-- ==== Sys2Proof/Word.lean ====
section
/-! DEFINITION. The bit widths of the link and of the records (CONVENTIONS of 00_scope.md): bytes, 32-bit words, 40-bit
byte addresses and 7-bit initiator numbers. -/

namespace Sys2Proof

/-- One byte of memory or of a record. -/
abbrev Byte := BitVec 8

/-- A parameter word of a command or a value word of a record (R28, R32). -/
abbrev Word := BitVec 32

/-- A 40-bit byte address (CONVENTIONS, Numbers and addresses). -/
abbrev Addr := BitVec 40

/-- An initiator number, 0 to 127. -/
abbrev Initiator := BitVec 7

end Sys2Proof
end

