-- ==== Sys2Proof/Syntax.lean ====
section
/-! DEFINITION. The commands the block takes: memory requests and responses of the link (00_scope.md, Memory requests),
and `Instr`, one constructor for each row of spec/opcode_table.json.

The rows of the Command Unit's commands (SET_RING_DEPTH to LOAD_TARIFF, BAD_COMMAND) carry no operand of their own: such a
row is the step in which the command at the head of the command queue starts (R29 to R31), and its operands are the
parameter words captured from the command slot (R28). The host hands them over with COMMAND_SLOT_WRITE (log entry 3). -/

namespace Sys2Proof

/-- The kind of a memory request. -/
inductive ReqKind where
  | read
  | write
  deriving DecidableEq, Repr

/-- A memory request on the link: kind, 40-bit address, length, issuing initiator, tag and, for a write, the data. -/
structure Request where
  kind      : ReqKind
  addr      : Addr
  len       : Nat
  initiator : Initiator
  tag       : Nat
  data      : List Byte
  deriving DecidableEq, Repr

/-- A response: ERROR, or a completion with the data of a read (empty for a write). -/
inductive Response where
  | error
  | done (data : List Byte)
  deriving DecidableEq, Repr

/-- One constructor per row of spec/opcode_table.json, in the table's order. Feeds `f`, destinations `d` and booking
entries `e` are numbers; `r` is a request from the memory switch; a response is matched to its request by tag (R21). -/
inductive Instr where
  | powerOnReset (strapBase : BitVec 20) (strapInit : Initiator)
  | commandSlotWrite (r : Request)
  | busyHandover
  | consumerIndexWrite (r : Request)
  | controlAreaRequest (r : Request)
  | ringWrite (r : Request)
  | ringRead (r : Request)
  | windowRead (r : Request)
  | windowWrite (r : Request)
  | otherRequest (r : Request)
  | downstreamGrant
  | ownRequestSubmit
  | passedResponse (i : Initiator) (tag : Nat) (resp : Response)
  | windowReadResponse (i : Initiator) (tag : Nat) (resp : Response)
  | ownWriteResponse (tag : Nat) (resp : Response)
  | descriptorReadResponse (tag : Nat) (resp : Response)
  /-- `u`: the sub-millisecond position at which the mark arrives, 0 to 999 µs (R50). -/
  | referenceMark (u : Nat)
  | markDeadline
  | localMillisecond
  | windowCeiling (e : Nat)
  | allowanceExpiry (e : Nat)
  | suspensionCeiling (e : Nat)
  | retryInterval (f : Nat)
  | lossTimeout (f : Nat)
  | barRelease (f : Nat)
  | takeTimeout (d : Nat)
  | freezeLimit (d : Nat)
  | revertHold (d : Nat)
  | adaptationPeriodEnd (d : Nat)
  | impairmentHoldEnd (d : Nat)
  | holdLimitExpiry (d : Nat)
  | badCommand
  | setRingDepth
  | defineFeedRing
  | defineWindow
  | setMonitorInitiators
  | enterRun
  | enterConfig
  | setEventMask
  | setNotice
  | reportStatus
  | restart
  | restartFinish
  | setTime
  | setReferenceMode
  | setReferenceWindow
  | reportTime
  | setFeedParameters
  | clearFeed
  | reportFeed
  | loadBooking
  | cancel
  | advance
  | release
  | extend
  | reportBooking
  | reportDestination
  | take
  | cue
  | confirm
  | uncue
  | setDestinationParameters
  | setLag
  | loadTariff
  | resetAssertion
  deriving DecidableEq, Repr

end Sys2Proof
end

