-- ==== Sys2Proof/Decode.lean ====
section
/-! DEFINITION. The commands that the table's bits spell. spec/opcode_table.json gives bits ("fixed", "fields") to none of
its 65 rows: the block takes its commands as requests, responses, marks, timer events and captured command records, not as
encoded words. The 64-byte command record (Table 11-2) is read in Machine/Operands.lean. -/

namespace Sys2Proof

/-- The command that a word spells by the table's bits: none, since the table gives no row any bits. -/
def decodeTableWord (_nbits _w : Nat) : Option Instr := none

end Sys2Proof
end

