-- ==== Sys2Proof/Config.lean ====
section
/-! DEFINITION. What the manual leaves to the node (the straps of the part that `State.reset` stands for) and the free
values: constants without a body, of which nothing can be proved. -/

namespace Sys2Proof.Config

/-- DESIGN CHOICE (unsafe, log entry 2): the twenty control-area strap levels of the machine `State.reset` stands for. R1
samples them from the node's wiring; a POWER_ON_RESET command carries its own levels. -/
def resetStrapBase : BitVec 20 := 0

/-- DESIGN CHOICE (unsafe, log entry 2): the seven own-initiator strap levels of the machine `State.reset` stands for. -/
def resetStrapInit : BitVec 7 := 0

/-- FREE VALUE (log entry 5). R50 names NT seconds + 1 as the nearest second of a mark that comes before the second
boundary. At NT seconds 4,294,967,295 that number is outside the range of NT seconds (R48) and the manual states no
result; the argument is the mark's position within its second, in µs. -/
opaque secondAfterTheLast : Nat → BitVec 32

end Sys2Proof.Config
end

