-- ==== Sys2Proof/Machine/State.lean ====
section
/-! DEFINITION. The state of the part, block by block (00_scope.md, BLOCK DIAGRAM: each block owns its own state), the
queue of waiting commands, the reasons a step can stop, and the state right after power-on reset.

A table of numbered objects (feeds, destinations, booking entries, tariffs, command slots) is a `Tbl`: a list of
(number, value) pairs with strictly rising numbers that lists no object at the table's resting value. The resting value is
given where the table is read (Machine/Ops.lean), and reset lists nothing. -/

namespace Sys2Proof.Machine

/-- The machine stops with a fault: never. Every row of the table has its effect in every state, so there is no fault. -/
inductive Fault where
  deriving DecidableEq, Repr

/-- Reasons for refusing a command. -/
inductive Refusal where
  /-- Raised by `exec` alone, for a row that has no meaning yet; safe. Every row has its meaning, so no arm raises it. -/
  | notModelled (mnemonic : String)
  deriving DecidableEq, Repr

/-- A table of numbered objects (see the header): (number, value) pairs, numbers strictly rising. -/
abbrev Tbl (α : Type) := List (Nat × α)

/-! ### Link Path Unit -/

/-- The mode of the part (R3). -/
inductive Mode where
  | config
  | run
  | restarting
  deriving DecidableEq, Repr

/-- A ring or window definition: its base, and its assigned writer or reader (Table 1-3). -/
structure Region where
  base  : Addr
  agent : Nat
  deriving DecidableEq, Repr

/-- What a slot start is served from (R16): the slate, or ring slot `q` of feed `f`. -/
inductive Served where
  | slate
  | ring (f q : Nat)
  deriving DecidableEq, Repr

/-- The source of a slot latch: pending while the slot start stands in the hold list, else decided (R16). -/
inductive LatchSource where
  | pending
  | decided (x : Served)
  deriving DecidableEq, Repr

/-- The slot latch of a destination: the window slot of the latest slot start, with its source (R16). -/
structure Latch where
  slot   : Nat
  source : LatchSource
  deriving DecidableEq, Repr

/-- An entry of the hold list (R158). `limit` is the hold limit in force when the hold began (R168). The first of `reads`
is the slot start read; the others have joined in arrival order. -/
structure HoldEntry where
  dest     : Nat
  feed     : Nat
  ringSlot : Nat
  slot     : Nat
  elapsed  : Nat
  limit    : Nat
  reads    : List Request
  deriving DecidableEq, Repr

/-- What a forwarded upstream request was: passed unchanged, or a window read of destination `d`, window slot `s` (R21). -/
inductive Origin where
  | passed
  | window (d s : Nat)
  deriving DecidableEq, Repr

/-- A request of the forwarding queue, with its address as memory will see it. -/
structure Forward where
  req    : Request
  origin : Origin
  deriving DecidableEq, Repr

/-- The three rings of the control area (Table 2-4). -/
inductive RingId where
  | result
  | event
  | billing
  deriving DecidableEq, Repr

/-- The part's own requests (R19): a record write, a producer word write with its index, a descriptor read. -/
inductive OwnKind where
  | record (ring : RingId)
  | producer (ring : RingId) (index : Nat)
  | descriptor
  deriving DecidableEq, Repr

/-- An own request as it goes downstream. -/
structure OwnRequest where
  req  : Request
  kind : OwnKind
  deriving DecidableEq, Repr

/-- A request that memory has accepted and not answered yet. -/
inductive Issued where
  | upstream (x : Forward)
  | own (x : OwnRequest)
  deriving DecidableEq, Repr

/-- A response the part has returned upstream. -/
structure Answer where
  initiator : Initiator
  tag       : Nat
  response  : Response
  deriving DecidableEq, Repr

/-- The Link Path Unit (Table 1-1) and the two link ports. The last five fields are the model's: reads decided while the
forwarding queue is full (R10), requests in memory's hands (R21), the responses returned upstream so far, oldest first, and
the running number that tags own requests ("a tag of the part's choosing", R19), and the level of RESETN. -/
structure Lpu where
  mode          : Mode
  strapBase     : BitVec 20
  strapInit     : Initiator
  depth         : Option Nat
  rings         : Tbl (Option Region)
  windows       : Tbl (Option Region)
  monitors      : List Nat
  latches       : Tbl (Option Latch)
  holds         : List HoldEntry
  forwarding    : List Forward
  ownQueue      : List OwnRequest
  waitingCount  : Nat
  foreignWrites : Tbl Nat
  unauthReads   : Nat
  windowWrites  : Nat
  decidedReads  : List Forward
  issued        : List Issued
  answers       : List Answer
  nextTag       : Nat
  resetAsserted : Bool
  deriving DecidableEq, Repr

/-! ### Command Unit -/

/-- The command that executes: at once, a descriptor fetch into an entry, or a Restart with the numbers of entries closed
and fetches abandoned (R31). -/
inductive Job where
  | loading (e : Nat)
  | restarting (closed abandoned : Nat)
  deriving DecidableEq, Repr

/-- The executing command: its slot, the 64 captured bytes, and what it waits for. -/
structure Executing where
  slot : Nat
  data : List Byte
  job  : Job
  deriving DecidableEq, Repr

/-- A BUSY answer of the busy list (R27). -/
structure BusyAnswer where
  slot : Nat
  code : Nat
  tag  : Nat
  deriving DecidableEq, Repr

/-- The Command Unit (Table 2-3). A slot is free when it is not listed, and occupied with its captured 64 bytes. -/
structure Cu where
  slots     : Tbl (Option (List Byte))
  queue     : List Nat
  executing : Option Executing
  busy      : List BusyAnswer
  ignored   : Nat
  deriving DecidableEq, Repr

/-! ### Record Writer -/

/-- The three indexes of a ring (R34). -/
structure RingIndexes where
  producer  : Nat
  published : Nat
  consumer  : Nat
  deriving DecidableEq, Repr

/-- Kinds of billing record (R186). -/
inductive BillKind where
  | close
  | cancel
  | checkpoint
  deriving DecidableEq, Repr

/-- Close reasons (Table 10-1), `none` for an open booking and for a CHECKPOINT. -/
inductive CloseReason where
  | none
  | ended
  | allowance
  | released
  | cancelled
  | endedWaiting
  | restart
  deriving DecidableEq, Repr

/-- The eight meters of a booking entry (Table 9-1). -/
structure Meters where
  p  : Nat
  c  : Nat
  d  : Nat
  u  : Nat
  oc : Nat
  od : Nat
  ou : Nat
  su : Nat
  deriving DecidableEq, Repr

/-- A produced billing record (Table 10-2). -/
structure BillRecord where
  kind        : BillKind
  reason      : CloseReason
  minApplied  : Bool
  capApplied  : Bool
  rough       : Bool
  timeStepped : Bool
  notLocked   : Bool
  failovers   : Nat
  ref         : Nat
  account     : Nat
  dest        : Nat
  tariff      : Nat
  liveNT      : Nat
  closeNT     : Nat
  meters      : Meters
  seconds     : Nat
  charge      : Nat
  takes       : Nat
  slips       : Nat
  deriving DecidableEq, Repr

/-- The Record Writer (Table 2-5). `waiting` holds accepted work that waits for a place in the own request queue (R34). -/
structure Rw where
  result          : RingIndexes
  event           : RingIndexes
  billing         : RingIndexes
  waiting         : List OwnRequest
  pendingBilling  : List BillRecord
  mask            : Word
  lostCount       : Nat
  lostTotal       : Nat
  noticeResult    : Bool
  noticeEvent     : Bool
  noticeBilling   : Bool
  noticeLine      : Bool
  badIndexWrites  : Nat
  ownWriteErrors  : Nat
  checkpointsLost : Nat
  deriving DecidableEq, Repr

/-! ### Time Base -/

/-- Reference modes (Section 3.3). -/
inductive RefMode where
  | off
  | monitor
  | track
  | alignOnce
  deriving DecidableEq, Repr

/-- Reference states (Section 3.4). -/
inductive RefState where
  | absent
  | acquiring
  | locked
  | holdover
  deriving DecidableEq, Repr

/-- The Time Base (Sections 3.1 and 3.3). `expected` is a point of local oscillator time, in µs since the release of reset.
The oscillator is held as the time `msStart` at which the sub-millisecond position was last 0, which is the model's field
(log entry 8). -/
structure Tb where
  seconds        : Nat
  millis         : Nat
  subMicros      : Nat
  reported       : Nat
  refMode        : RefMode
  refState       : RefState
  window         : Nat
  markCount      : Nat
  wanderCount    : Nat
  lastOffset     : Int
  firstMarkDue   : Bool
  consecutive    : Nat
  failed         : Nat
  expected       : Option Nat
  staged         : Option Nat
  msStart        : Nat
  deriving DecidableEq, Repr

/-! ### Feed Monitor -/

/-- Health states of a feed (Section 4.7). -/
inductive Health where
  | absent
  | qualifying
  | retryWait
  | healthy
  | degraded
  | failed
  | lost
  | barred
  deriving DecidableEq, Repr

/-- Header results: the classes of Table 4-4, FIRST (R74) and the two header faults (R72). -/
inductive HeaderResult where
  | inOrder
  | gap
  | duplicate
  | late
  | jump
  | resync
  | first
  | malformed
  | misrouted
  deriving DecidableEq, Repr

/-- What a readable header gave its unit. -/
structure UnitHead where
  result       : HeaderResult
  pictureStart : Bool
  testSignal   : Bool
  deriving DecidableEq, Repr

/-- The open unit of a feed: its slot, and its head unless it is headerless (R66, R67). -/
structure OpenUnit where
  slot : Nat
  head : Option UnitHead
  deriving DecidableEq, Repr

/-- The unit counters of a feed record (Table 4-2). -/
structure UnitCounters where
  completions : Nat
  inOrder     : Nat
  gaps        : Nat
  missing     : Nat
  duplicates  : Nat
  late        : Nat
  jumps       : Nat
  resyncs     : Nat
  malformed   : Nat
  misrouted   : Nat
  torn        : Nat
  deriving DecidableEq, Repr

/-- The feed record (Table 4-1). -/
structure FeedRecord where
  health        : Health
  openUnit      : Option OpenUnit
  seqKnown      : Bool
  expectedSeq   : Nat
  lastSeq       : Nat
  lastSlot      : Nat
  complete      : Nat
  pictureStarts : List Nat
  testSignal    : Bool
  score         : Nat
  cleanRun      : Nat
  attempts      : Nat
  silence       : Nat
  stateTimer    : Nat
  counters      : UnitCounters
  deriving DecidableEq, Repr

/-- The parameters of a feed (Table 4-3). -/
structure FeedParams where
  qualLength       : Nat
  attemptLimit     : Nat
  retryInterval    : Nat
  lossTimeout      : Nat
  barRelease       : Nat
  degradeThreshold : Nat
  recoverThreshold : Nat
  failThreshold    : Nat
  deriving DecidableEq, Repr

/-- The Feed Monitor: a record per feed (none outside RUN and RESTARTING) and the parameters of every feed. -/
structure Fm where
  records : Tbl (Option FeedRecord)
  params  : Tbl FeedParams
  deriving DecidableEq, Repr

/-! ### Booking Table -/

/-- Booking states (Section 5.3). -/
inductive BookingState where
  | empty
  | fetching
  | scheduled
  | waiting
  | preroll
  | live
  | suspended
  | overrun
  | closing
  deriving DecidableEq, Repr

/-- How an entry was loaded: by command, or by a chain from the booking whose reference it names (Table 5-3). -/
inductive LoadOrigin where
  | command
  | chain (predecessor : Nat)
  deriving DecidableEq, Repr

/-- The descriptor fields (Table 5-1) with the seven flags (R91); 255 stands for no feed. -/
structure Descriptor where
  mayPreempt         : Bool
  preemptible        : Bool
  autoFailover       : Bool
  autoRevert         : Bool
  billBackupDegraded : Bool
  holdOn             : Bool
  checkpoint         : Bool
  ref                : Nat
  account            : Nat
  dest               : Nat
  primary            : Nat
  backup             : Nat
  alt1               : Nat
  alt2               : Nat
  priority           : Nat
  arms               : Nat
  tariff             : Nat
  preroll            : Nat
  startSec           : Nat
  endSec             : Nat
  allowance          : Nat
  next               : Nat
  deriving DecidableEq, Repr

/-- A booking entry (Table 5-3). `fired` counts the boundaries fired in boundary order. `address` is the descriptor
address of a fetch and `fetchTag` the tag of its own read; `record` is a final record that waits in its entry (R191). -/
structure Entry where
  state       : BookingState
  origin      : LoadOrigin
  address     : Nat
  fetchTag    : Option Nat
  desc        : Descriptor
  effStart    : Nat
  fired       : Nat
  requestNo   : Nat
  resume      : Option BookingState
  selected    : Nat
  armsLeft    : Nat
  hasLive     : Bool
  liveNT      : Nat
  timeStepped : Bool
  reason      : CloseReason
  closeSeq    : Option Nat
  takes       : Nat
  failovers   : Nat
  slips       : Nat
  rough       : Bool
  meters      : Meters
  record      : Option BillRecord
  deriving DecidableEq, Repr

/-- The Booking Table: 128 entries and the two counts of R93. -/
structure Bt where
  entries      : Tbl Entry
  requestCount : Nat
  closeCount   : Nat
  deriving DecidableEq, Repr

/-! ### Grant Arbiter -/

/-- The Grant Arbiter: per destination the holder and the grant queue, head first (R115, R116). -/
structure Ga where
  holders : Tbl (Option Nat)
  queues  : Tbl (List Nat)
  deriving DecidableEq, Repr

/-! ### Route Unit -/

/-- The current source of a route: the slate or a feed (Table 7-1). -/
inductive Source where
  | slate
  | feed (f : Nat)
  deriving DecidableEq, Repr

/-- States of a pending take (Section 7.2). -/
inductive TakeState where
  | waitSource
  | arming
  | cued
  | ready
  deriving DecidableEq, Repr

/-- Reasons of a take (R131). -/
inductive TakeReason where
  | start
  | resume
  | manual
  | cue
  | failover
  | revert
  | restore
  deriving DecidableEq, Repr

/-- A pending take (R131). -/
structure Take where
  target : Nat
  reason : TakeReason
  state  : TakeState
  slot   : Option Nat
  rough  : Bool
  timer  : Nat
  deriving DecidableEq, Repr

/-- A pending mapping change (R130): a change to slate or one lag adjustment (R166). -/
inductive Change where
  | toSlate
  | lagRepeat
  | lagReset
  deriving DecidableEq, Repr

/-- The route record (Table 7-1). Its selected feed is the holder's selected feed (R129) and is read from the holder's
entry. `freeze` is none when the freeze timer is stopped. -/
structure Route where
  source        : Source
  phase         : Nat
  wanted        : Option Nat
  take          : Option Take
  failoverSince : Bool
  freeze        : Option Nat
  revert        : Nat
  change        : Option Change
  deriving DecidableEq, Repr

/-- The destination parameters (Table 7-6). -/
structure DestParams where
  takeTimeout    : Nat
  freezeLimit    : Nat
  revertHold     : Nat
  impairmentHold : Nat
  deriving DecidableEq, Repr

/-- The Route Unit: a route record per destination (none outside RUN and RESTARTING) and the parameters of every one. -/
structure Ru where
  routes : Tbl (Option Route)
  params : Tbl DestParams
  deriving DecidableEq, Repr

/-! ### Delivery Monitor -/

/-- Delivery conditions (Table 8-6). -/
inductive Condition where
  | none
  | clean
  | degraded
  | outage
  deriving DecidableEq, Repr

/-- The delivery state of a destination (Table 8-1). -/
structure Delivery where
  lag            : Nat
  lagMax         : Nat
  adapt          : Bool
  holdLimit      : Nat
  impairment     : Nat
  periodCount    : Nat
  periodRepeats  : Nat
  repeatSlips    : Nat
  dropSlips      : Nat
  unitsSkipped   : Nat
  freezeRepeats  : Nat
  lagAdjustments : Nat
  readErrors     : Nat
  condition      : Condition
  deriving DecidableEq, Repr

/-- The Delivery Monitor: the delivery state of each destination. -/
structure Dm where
  dests : Tbl Delivery
  deriving DecidableEq, Repr

/-! ### Meter Unit -/

/-- A loaded tariff (Table 9-4). The meters stand in the booking entries. -/
structure Tariff where
  rate     : Nat
  weight   : Nat
  overrun  : Nat
  quantum  : Nat
  minimum  : Nat
  fee      : Nat
  cap      : Nat
  deriving DecidableEq, Repr

/-- The Meter Unit: 16 tariff entries, each unloaded or loaded (R176). -/
structure Mu where
  tariffs : Tbl (Option Tariff)
  deriving DecidableEq, Repr

/-! ### The part -/

/-- The whole part, and the commands that wait to be taken, first in, first out. -/
structure State where
  lpu     : Lpu
  cu      : Cu
  rw      : Rw
  tb      : Tb
  fm      : Fm
  bt      : Bt
  ga      : Ga
  ru      : Ru
  dm      : Dm
  mu      : Mu
  pending : List Instr
  deriving DecidableEq, Repr

/-! ### Reset -/

/-- Table 1-1, with the given straps; the model's own port fields are passed in, since a reset does not undo what has left
the part. -/
def Lpu.afterReset (base : BitVec 20) (init : Initiator) (issued : List Issued) (answers : List Answer) (nextTag : Nat) :
    Lpu :=
  { mode := .config, strapBase := base, strapInit := init, depth := none, rings := [], windows := [],
    monitors := [255, 255, 255, 255], latches := [], holds := [], forwarding := [], ownQueue := [], waitingCount := 0,
    foreignWrites := [], unauthReads := 0, windowWrites := 0, decidedReads := [], issued := issued, answers := answers,
    nextTag := nextTag, resetAsserted := false }

/-- Table 2-3. -/
def Cu.afterReset : Cu := { slots := [], queue := [], executing := none, busy := [], ignored := 0 }

/-- Table 2-5. The mask enables classes 0 to 8 except SLIP, class 2. -/
def Rw.afterReset : Rw :=
  { result := ⟨0, 0, 0⟩, event := ⟨0, 0, 0⟩, billing := ⟨0, 0, 0⟩, waiting := [], pendingBilling := [],
    mask := 0x1FB, lostCount := 0, lostTotal := 0, noticeResult := false, noticeEvent := false, noticeBilling := false,
    noticeLine := false, badIndexWrites := 0, ownWriteErrors := 0, checkpointsLost := 0 }

/-- R48, R61 and the table of Section 3.3. -/
def Tb.afterReset : Tb :=
  { seconds := 0, millis := 0, subMicros := 0, reported := 0, refMode := .off, refState := .absent, window := 1000,
    markCount := 0, wanderCount := 0, lastOffset := 0, firstMarkDue := true, consecutive := 0, failed := 0,
    expected := none, staged := none, msStart := 0 }

/-- R62, R64: no feed record; every feed at the default parameters. -/
def Fm.afterReset : Fm := { records := [], params := [] }

/-- R93: every entry EMPTY, both counts 0. -/
def Bt.afterReset : Bt := { entries := [], requestCount := 0, closeCount := 0 }

/-- R115: no holder and an empty queue for every destination. -/
def Ga.afterReset : Ga := { holders := [], queues := [] }

/-- R128, R151: no route record; every destination at the default parameters. -/
def Ru.afterReset : Ru := { routes := [], params := [] }

/-- Table 8-1, the column Power-on reset, for every destination. -/
def Dm.afterReset : Dm := { dests := [] }

/-- R176: every tariff entry unloaded. -/
def Mu.afterReset : Mu := { tariffs := [] }

/-- The part right after the release of power-on reset, with the strap levels of Config and no command waiting. -/
def State.reset : State :=
  { lpu := .afterReset Config.resetStrapBase Config.resetStrapInit [] [] 0, cu := .afterReset, rw := .afterReset,
    tb := .afterReset, fm := .afterReset, bt := .afterReset, ga := .afterReset, ru := .afterReset, dm := .afterReset,
    mu := .afterReset, pending := [] }

/-! ### One update per block -/

def State.withLpu (s : State) (x : Lpu) : State := { s with lpu := x }
def State.withCu (s : State) (x : Cu) : State := { s with cu := x }
def State.withRw (s : State) (x : Rw) : State := { s with rw := x }
def State.withTb (s : State) (x : Tb) : State := { s with tb := x }
def State.withFm (s : State) (x : Fm) : State := { s with fm := x }
def State.withBt (s : State) (x : Bt) : State := { s with bt := x }
def State.withGa (s : State) (x : Ga) : State := { s with ga := x }
def State.withRu (s : State) (x : Ru) : State := { s with ru := x }
def State.withDm (s : State) (x : Dm) : State := { s with dm := x }
def State.withMu (s : State) (x : Mu) : State := { s with mu := x }
def State.withPending (s : State) (x : List Instr) : State := { s with pending := x }

end Sys2Proof.Machine
end

