-- ==== Sys2Proof/Machine/Ops.lean ====
section
/-! DEFINITION. The named operations that the families share: arithmetic that saturates or is modulo a ring size, the
tables and their resting values, bytes and little-endian fields (R198), the numbers of Table 11-9, and the Record Writer's
acceptance of records and events (R34, R39, R40) with the notice line (R42). -/

namespace Sys2Proof.Machine

/-- The ceiling of a 32-bit count. -/
def max32 : Nat := 4294967295

/-- The ceiling of a 64-bit count. -/
def max64 : Nat := 18446744073709551615

/-- A saturating addition: a count that has reached its ceiling stays there (CONVENTIONS, Counters). -/
def satAdd (cap a b : Nat) : Nat := min cap (a + b)

/-- The distance from `b` to `a` on a ring of `n` places: (a - b) mod n (CONVENTIONS, Rings). -/
def modSub (n a b : Nat) : Nat := (a + (n - b % n)) % n

/-- `x` brought within `lo` to `hi`. -/
def clamp (lo hi x : Nat) : Nat := if x < lo then lo else if hi < x then hi else x

/-- The ceiling of a / b. -/
def ceilDiv (a b : Nat) : Nat := (a + (b - 1)) / b

/-! ### Tables -/

/-- The value of object `i`, `rest` where the table does not list it. -/
def Tbl.get {α : Type} (rest : α) : Tbl α → Nat → α
  | [], _ => rest
  | (k, v) :: t, i => if k = i then v else Tbl.get rest t i

/-- Insertion before the first larger number. -/
def Tbl.insert {α : Type} (i : Nat) (v : α) : Tbl α → Tbl α
  | [] => [(i, v)]
  | (k, w) :: t => if i < k then (i, v) :: (k, w) :: t else (k, w) :: Tbl.insert i v t

/-- The table without object `i`. -/
def Tbl.erase {α : Type} (i : Nat) (t : Tbl α) : Tbl α := t.filter (fun p => p.1 != i)

/-- The table with object `i` at `v`; an object at the resting value is not listed. -/
def Tbl.set {α : Type} [DecidableEq α] (rest : α) (t : Tbl α) (i : Nat) (v : α) : Tbl α :=
  if v = rest then Tbl.erase i t else Tbl.insert i v (Tbl.erase i t)

/-- The defaults of Table 4-3. -/
def FeedParams.default : FeedParams :=
  { qualLength := 32, attemptLimit := 5, retryInterval := 2000, lossTimeout := 200, barRelease := 30000,
    degradeThreshold := 64, recoverThreshold := 16, failThreshold := 512 }

/-- The defaults of Table 7-6. -/
def DestParams.default : DestParams :=
  { takeTimeout := 1000, freezeLimit := 2000, revertHold := 30, impairmentHold := 1000 }

/-- Table 8-1 after power-on reset. -/
def Delivery.initial : Delivery :=
  { lag := 4, lagMax := 16, adapt := false, holdLimit := 200, impairment := 0, periodCount := 0, periodRepeats := 0,
    repeatSlips := 0, dropSlips := 0, unitsSkipped := 0, freezeRepeats := 0, lagAdjustments := 0, readErrors := 0,
    condition := .none }

/-- All eight meters at 0. -/
def Meters.zero : Meters := { p := 0, c := 0, d := 0, u := 0, oc := 0, od := 0, ou := 0, su := 0 }

/-- All unit counters at 0. -/
def UnitCounters.zero : UnitCounters :=
  { completions := 0, inOrder := 0, gaps := 0, missing := 0, duplicates := 0, late := 0, jumps := 0, resyncs := 0,
    malformed := 0, misrouted := 0, torn := 0 }

/-- No descriptor: what an entry holds before validation. -/
def Descriptor.blank : Descriptor :=
  { mayPreempt := false, preemptible := false, autoFailover := false, autoRevert := false, billBackupDegraded := false,
    holdOn := false, checkpoint := false, ref := 0, account := 0, dest := 0, primary := 0, backup := 255, alt1 := 255,
    alt2 := 255, priority := 0, arms := 0, tariff := 0, preroll := 0, startSec := 0, endSec := 0, allowance := 0,
    next := 0 }

/-- An EMPTY entry. Its other fields are not examined (R92). -/
def Entry.blank : Entry :=
  { state := .empty, origin := .command, address := 0, fetchTag := none, desc := .blank, effStart := 0, fired := 0,
    requestNo := 0, resume := none, selected := 0, armsLeft := 0, hasLive := false, liveNT := 0, timeStepped := false,
    reason := .none, closeSeq := none, takes := 0, failovers := 0, slips := 0, rough := false, meters := .zero,
    record := none }

namespace State

/-- Ring depth N. While it is unset the manual gives no N; the model takes 0, so that no region contains an address (DESIGN
CHOICE, log entry 24, which says where that can be seen). -/
def ringDepth (s : State) : Nat := s.lpu.depth.getD 0

/-- The ring definition of feed `f` (Table 1-3). -/
def ringDef (s : State) (f : Nat) : Option Region := Tbl.get none s.lpu.rings f

/-- The window definition of destination `d` (Table 1-3). -/
def windowDef (s : State) (d : Nat) : Option Region := Tbl.get none s.lpu.windows d

/-- The slot latch of destination `d`. -/
def latch (s : State) (d : Nat) : Option Latch := Tbl.get none s.lpu.latches d

def setLatch (d : Nat) (x : Option Latch) (s : State) : State :=
  s.withLpu { s.lpu with latches := Tbl.set none s.lpu.latches d x }

/-- The foreign write count of feed `f` (Table 1-5). -/
def foreignWrites (s : State) (f : Nat) : Nat := Tbl.get 0 s.lpu.foreignWrites f

def setForeignWrites (f n : Nat) (s : State) : State :=
  s.withLpu { s.lpu with foreignWrites := Tbl.set 0 s.lpu.foreignWrites f n }

/-- The hold list entry of destination `d`. -/
def hold (s : State) (d : Nat) : Option HoldEntry := s.lpu.holds.find? (fun h => h.dest == d)

/-- The captured bytes of command slot `n`; none while it is free. -/
def slotData (s : State) (n : Nat) : Option (List Byte) := Tbl.get none s.cu.slots n

def setSlotData (n : Nat) (x : Option (List Byte)) (s : State) : State :=
  s.withCu { s.cu with slots := Tbl.set none s.cu.slots n x }

/-- The feed record of feed `f`, where it has one. -/
def feedRec (s : State) (f : Nat) : Option FeedRecord := Tbl.get none s.fm.records f

def setFeedRec (f : Nat) (x : Option FeedRecord) (s : State) : State :=
  s.withFm { s.fm with records := Tbl.set none s.fm.records f x }

/-- The parameters of feed `f`. -/
def feedParams (s : State) (f : Nat) : FeedParams := Tbl.get .default s.fm.params f

def setFeedParams (f : Nat) (x : FeedParams) (s : State) : State :=
  s.withFm { s.fm with params := Tbl.set .default s.fm.params f x }

/-- Booking entry `e`. -/
def entry (s : State) (e : Nat) : Entry := Tbl.get .blank s.bt.entries e

def setEntry (e : Nat) (x : Entry) (s : State) : State :=
  s.withBt { s.bt with entries := Tbl.set .blank s.bt.entries e x }

/-- The holder of destination `d` (R115). -/
def holder (s : State) (d : Nat) : Option Nat := Tbl.get none s.ga.holders d

def setHolder (d : Nat) (x : Option Nat) (s : State) : State :=
  s.withGa { s.ga with holders := Tbl.set none s.ga.holders d x }

/-- The grant queue of destination `d`, head first (R116). -/
def grantQueue (s : State) (d : Nat) : List Nat := Tbl.get [] s.ga.queues d

def setGrantQueue (d : Nat) (x : List Nat) (s : State) : State :=
  s.withGa { s.ga with queues := Tbl.set [] s.ga.queues d x }

/-- The route record of destination `d`, where it has one. -/
def route (s : State) (d : Nat) : Option Route := Tbl.get none s.ru.routes d

def setRoute (d : Nat) (x : Option Route) (s : State) : State :=
  s.withRu { s.ru with routes := Tbl.set none s.ru.routes d x }

/-- The parameters of destination `d`. -/
def destParams (s : State) (d : Nat) : DestParams := Tbl.get .default s.ru.params d

def setDestParams (d : Nat) (x : DestParams) (s : State) : State :=
  s.withRu { s.ru with params := Tbl.set .default s.ru.params d x }

/-- The delivery state of destination `d`. -/
def delivery (s : State) (d : Nat) : Delivery := Tbl.get .initial s.dm.dests d

def setDelivery (d : Nat) (x : Delivery) (s : State) : State :=
  s.withDm { s.dm with dests := Tbl.set .initial s.dm.dests d x }

/-- Tariff `i`, where it is loaded. -/
def tariff (s : State) (i : Nat) : Option Tariff := Tbl.get none s.mu.tariffs i

def setTariff (i : Nat) (x : Option Tariff) (s : State) : State :=
  s.withMu { s.mu with tariffs := Tbl.set none s.mu.tariffs i x }

/-- The holder of `d` with its entry. -/
def holderEntry (s : State) (d : Nat) : Option (Nat × Entry) := (s.holder d).map (fun e => (e, s.entry e))

/-- The oscillator time, in µs since the release of reset, of the last event that came with a time. -/
def now (s : State) : Nat := s.tb.msStart + s.tb.subMicros

end State

/-- Changes entry `e`. -/
def modEntry (e : Nat) (g : Entry → Entry) (s : State) : State := s.setEntry e (g (s.entry e))

/-- Changes the route record of `d`, where it has one. -/
def modRoute (d : Nat) (g : Route → Route) (s : State) : State :=
  match s.route d with
  | none => s
  | some r => s.setRoute d (some (g r))

/-- Changes the delivery state of `d`. -/
def modDelivery (d : Nat) (g : Delivery → Delivery) (s : State) : State := s.setDelivery d (g (s.delivery d))

/-- Changes the feed record of `f`, where it has one. -/
def modFeed (f : Nat) (g : FeedRecord → FeedRecord) (s : State) : State :=
  match s.feedRec f with
  | none => s
  | some r => s.setFeedRec f (some (g r))

/-- `g 0`, then `g 1`, ... then `g (n - 1)`: a treatment of numbered objects in ascending order. -/
def forAll (n : Nat) (g : Nat → State → State) (s : State) : State := (List.range n).foldl (fun t i => g i t) s

/-! ### Bytes (R198) -/

/-- `n` bytes of `x`, least significant first. -/
def le : Nat → Nat → List Byte
  | 0, _ => []
  | n + 1, x => BitVec.ofNat 8 x :: le n (x / 256)

/-- The number that bytes spell, least significant first. -/
def fromLE : List Byte → Nat
  | [] => 0
  | b :: bs => b.toNat + 256 * fromLE bs

/-- The field of `n` bytes at offset `off`. -/
def field (data : List Byte) (off n : Nat) : Nat := fromLE ((data.drop off).take n)

/-- A signed value as the 32-bit two's complement number of it. -/
def signed32 (x : Int) : Nat := (x % 4294967296).toNat

/-- `hi` in the upper half word or byte of width `w`, `lo` in the lower. -/
def pack (w hi lo : Nat) : Nat := hi * 2 ^ w + lo

/-! ### The numbers of Table 11-9 -/

def Mode.num : Mode → Nat
  | .config => 0
  | .run => 1
  | .restarting => 2

def RefMode.num : RefMode → Nat
  | .off => 0
  | .monitor => 1
  | .track => 2
  | .alignOnce => 3

def RefState.num : RefState → Nat
  | .absent => 0
  | .acquiring => 1
  | .locked => 2
  | .holdover => 3

def Health.num : Health → Nat
  | .absent => 0
  | .qualifying => 1
  | .retryWait => 2
  | .healthy => 3
  | .degraded => 4
  | .failed => 5
  | .lost => 6
  | .barred => 7

def BookingState.num : BookingState → Nat
  | .empty => 0
  | .fetching => 1
  | .scheduled => 2
  | .waiting => 3
  | .preroll => 4
  | .live => 5
  | .suspended => 6
  | .overrun => 7
  | .closing => 8

def CloseReason.num : CloseReason → Nat
  | .none => 0
  | .ended => 1
  | .allowance => 2
  | .released => 3
  | .cancelled => 4
  | .endedWaiting => 5
  | .restart => 6

def BillKind.num : BillKind → Nat
  | .close => 1
  | .cancel => 2
  | .checkpoint => 3

def TakeState.num : TakeState → Nat
  | .waitSource => 1
  | .arming => 2
  | .cued => 3
  | .ready => 4

def TakeReason.num : TakeReason → Nat
  | .start => 1
  | .resume => 2
  | .manual => 3
  | .cue => 4
  | .failover => 5
  | .revert => 6
  | .restore => 7

def Condition.num : Condition → Nat
  | .none => 0
  | .clean => 1
  | .degraded => 2
  | .outage => 3

/-- The resume state's number, 0 for none. -/
def resumeNum (x : Option BookingState) : Nat := (x.map BookingState.num).getD 0

/-- A feed's number, 255 for the slate. -/
def Source.num : Source → Nat
  | .slate => 255
  | .feed f => f

/-- The event classes of Table 2-6. -/
inductive EventClass where
  | feed
  | take
  | slip
  | booking
  | grant
  | time
  | access
  | chain
  | billing
  deriving DecidableEq, Repr

def EventClass.num : EventClass → Nat
  | .feed => 0
  | .take => 1
  | .slip => 2
  | .booking => 3
  | .grant => 4
  | .time => 5
  | .access => 6
  | .chain => 7
  | .billing => 8

/-! ### The Record Writer: rings (Tables 2-4 and 11-1) -/

/-- The number S of places of a ring. -/
def RingId.size : RingId → Nat
  | .result => 64
  | .event => 1024
  | .billing => 512

/-- The size of a record in bytes. -/
def RingId.recordSize : RingId → Nat
  | .result => 32
  | .event => 32
  | .billing => 64

/-- The offset of place 0 in the control area. -/
def RingId.recordOffset : RingId → Nat
  | .result => 0x1000
  | .event => 0x2000
  | .billing => 0xA000

/-- The offset of the producer word in the control area. -/
def RingId.producerOffset : RingId → Nat
  | .result => 0x400
  | .event => 0x408
  | .billing => 0x410

/-- Distance from the consumer index to the producer index: the records accepted and not consumed (R34). -/
def RingIndexes.count (size : Nat) (r : RingIndexes) : Nat := modSub size r.producer r.consumer

/-- Full in the RW's view: the distance is S - 1 (R34). -/
def RingIndexes.full (size : Nat) (r : RingIndexes) : Bool := size - 1 ≤ r.count size

/-- Not empty in the RW's view: the published producer differs from the consumer index (R34). -/
def RingIndexes.notEmpty (r : RingIndexes) : Bool := r.published != r.consumer

namespace State

/-- The indexes of a ring. -/
def ring (s : State) : RingId → RingIndexes
  | .result => s.rw.result
  | .event => s.rw.event
  | .billing => s.rw.billing

def setRing (id : RingId) (x : RingIndexes) (s : State) : State :=
  match id with
  | .result => s.withRw { s.rw with result := x }
  | .event => s.withRw { s.rw with event := x }
  | .billing => s.withRw { s.rw with billing := x }

/-- The ring holds S - 1 unconsumed records. -/
def ringFull (s : State) (id : RingId) : Bool := (s.ring id).full id.size

/-- The control area base: the strap bits over twenty zero bits (R1). -/
def controlBase (s : State) : Nat := s.lpu.strapBase.toNat * 1048576

end State

/-- R19: an own request joins the own request queue, or waits in the RW behind the work already waiting while the queue holds
16 requests. -/
def rwSubmit (o : OwnRequest) (s : State) : State :=
  if s.rw.waiting.isEmpty && s.lpu.ownQueue.length < 16 then
    s.withLpu { s.lpu with ownQueue := s.lpu.ownQueue ++ [o] }
  else
    s.withRw { s.rw with waiting := s.rw.waiting ++ [o] }

/-- R19: an own request carries the own initiator number and a tag of the part's choosing (the running number). -/
def rwRequest (kind : OwnKind) (access : ReqKind) (addr len : Nat) (data : List Byte) (s : State) : State :=
  rwSubmit
    { req := { kind := access, addr := BitVec.ofNat 40 addr, len := len, initiator := s.lpu.strapInit,
               tag := s.lpu.nextTag, data := data },
      kind := kind }
    (s.withLpu { s.lpu with nextTag := s.lpu.nextTag + 1 })

/-- R34: the RW accepts a record: the place at the producer index, the index advanced modulo S, then the record write and
the producer word write. -/
def rwAccept (id : RingId) (bytes : List Byte) (s : State) : State :=
  let place := (s.ring id).producer
  let next := (place + 1) % id.size
  let s1 := s.setRing id { s.ring id with producer := next }
  let s2 := rwRequest (.record id) .write (s.controlBase + id.recordOffset + place * id.recordSize) id.recordSize bytes s1
  rwRequest (.producer id next) .write (s.controlBase + id.producerOffset) 4 (le 4 next) s2

/-- The event record (Table 11-5, R201). -/
def eventBytes (cls : EventClass) (kind subject : Nat) (words : List Nat) (lost sec ms : Nat) : List Byte :=
  le 1 kind ++ le 1 cls.num ++ le 2 lost ++ le 4 sec ++ le 2 ms ++ le 2 subject ++ le 4 0 ++
    le 4 (words.getD 0 0) ++ le 4 (words.getD 1 0) ++ le 4 (words.getD 2 0) ++ le 4 (words.getD 3 0)

/-- R39, R40: an event of a disabled class is not written; one that finds the ring full is discarded and counted; else it is
accepted with the NT stamp and the lost count, which returns to 0. -/
def raise (cls : EventClass) (kind subject : Nat) (words : List Nat) (s : State) : State :=
  if s.rw.mask.getLsbD cls.num then
    if s.ringFull .event then
      s.withRw { s.rw with lostCount := satAdd 65535 s.rw.lostCount 1, lostTotal := satAdd max32 s.rw.lostTotal 1 }
    else
      rwAccept .event (eventBytes cls kind subject words s.rw.lostCount s.tb.seconds s.tb.millis)
        (s.withRw { s.rw with lostCount := 0 })
  else s

/-- R42: the notice line is asserted while an enabled ring is not empty in the RW's view. -/
def rwNotice (s : State) : State :=
  s.withRw { s.rw with
    noticeLine := (s.rw.noticeResult && s.rw.result.notEmpty) || (s.rw.noticeEvent && s.rw.event.notEmpty) ||
      (s.rw.noticeBilling && s.rw.billing.notEmpty) }

/-! ### Health and availability -/

/-- A feed is usable in HEALTHY or DEGRADED. -/
def Health.usable : Health → Bool
  | .healthy => true
  | .degraded => true
  | _ => false

namespace State

/-- Feed `f` may be put on a destination; a feed without a record is unusable (R62). -/
def usable (s : State) (f : Nat) : Bool :=
  match s.feedRec f with
  | none => false
  | some r => r.health.usable

/-- R79: slot `q` of feed `f` is available. -/
def available (s : State) (f q : Nat) : Bool :=
  match s.feedRec f with
  | none => false
  | some r => 1 ≤ r.complete && modSub s.ringDepth r.lastSlot q ≤ min (r.complete - 1) (s.ringDepth - 2)

/-- The last completed slot c of feed `f`. -/
def lastSlot (s : State) (f : Nat) : Nat :=
  match s.feedRec f with
  | none => 0
  | some r => r.lastSlot

/-- The selected feed of the route of `d`: its holder's selected feed, or none (R129). -/
def selectedFeed (s : State) (d : Nat) : Option Nat := (s.holderEntry d).map (fun p => p.2.selected)

end State

/-- The feed set of a booking: primary, then backup and alternates where named (R90). -/
def Descriptor.feedSet (x : Descriptor) : List Nat :=
  x.primary :: ([x.backup, x.alt1, x.alt2].filter (fun f => f != 255))

/-- PREROLL, LIVE and OVERRUN are the holder states (Section 5.3). -/
def BookingState.holds : BookingState → Bool
  | .preroll => true
  | .live => true
  | .overrun => true
  | _ => false

/-- SCHEDULED to OVERRUN: the open states of a validated booking. -/
def BookingState.isOpen : BookingState → Bool
  | .empty => false
  | .fetching => false
  | .closing => false
  | _ => true

end Sys2Proof.Machine
end

