-- ==== Sys2Proof/Machine/Flags.lean ====
section
/-! DEFINITION. The flag fields of the layouts: the seven booking flags (R91, R203), the three unit header flags (Section
4.3, R203) and the five billing flags (R189, R202). -/

namespace Sys2Proof.Machine

/-- A flag as a number: 1 set, 0 clear. -/
def flag (b : Bool) : Nat := if b then 1 else 0

/-- R203: bit `i` of a flags field. -/
def flagBit (flags i : Nat) : Bool := flags.testBit i

/-- The seven booking flags of a descriptor's flags field, on top of `x`. Bits 7 to 15 are not examined (R203). -/
def Descriptor.withFlags (flags : Nat) (x : Descriptor) : Descriptor :=
  { x with
    mayPreempt := flagBit flags 0, preemptible := flagBit flags 1, autoFailover := flagBit flags 2,
    autoRevert := flagBit flags 3, billBackupDegraded := flagBit flags 4, holdOn := flagBit flags 5,
    checkpoint := flagBit flags 6 }

/-- Bit 0 of a unit header's flags: a decoder can begin a clean picture at this unit. -/
def headerPictureStart (flags : Nat) : Bool := flagBit flags 0

/-- Bit 1: the sender restarted its sequence at this unit. -/
def headerDiscontinuity (flags : Nat) : Bool := flagBit flags 1

/-- Bit 2: the unit carries a test signal. -/
def headerTestSignal (flags : Nat) : Bool := flagBit flags 2

/-- R202: the flags byte of a billing record; bits 5 to 7 are written 0. -/
def BillRecord.flags (r : BillRecord) : Nat :=
  flag r.minApplied + 2 * flag r.capApplied + 4 * flag r.rough + 8 * flag r.timeStepped + 16 * flag r.notLocked

end Sys2Proof.Machine
end

