-- ==== Sys2Proof/Machine/Operands.lean ====
section
/-! DEFINITION. What the part reads and writes as fields: the command record (R28, R199), the result record (R200), the
billing record (R202), the booking descriptor and the unit header (R203). -/

namespace Sys2Proof.Machine

/-! ### The command record (Table 11-2) -/

/-- Bytes 0 and 1. -/
def commandCode (data : List Byte) : Nat := field data 0 2

/-- Bytes 2 and 3. -/
def commandTag (data : List Byte) : Nat := field data 2 2

/-- Parameter word `i`, a 32-bit number. -/
def commandParam (data : List Byte) (i : Nat) : Nat := field data (8 + 4 * i) 4

/-- A 40-bit address of two consecutive parameter words, low word first (R28). -/
def address (low high : Nat) : Nat := low + high * 4294967296

/-- The command codes of Table 11-3. -/
def commandCodes : List Nat :=
  [0x0101, 0x0102, 0x0103, 0x0104, 0x0105, 0x0106, 0x0201, 0x0202, 0x0203, 0x0204, 0x0301, 0x0302, 0x0303, 0x0304,
   0x0401, 0x0402, 0x0403, 0x0501, 0x0502, 0x0503, 0x0504, 0x0505, 0x0506, 0x0601, 0x0701, 0x0702, 0x0703, 0x0704,
   0x0705, 0x0801, 0x0901]

/-! ### The result record (Tables 2-2 and 11-4) -/

/-- Result codes. -/
inductive ResultCode where
  | done
  | clamped
  | busy
  | badCommand
  | wrongMode
  | wrongState
  | range
  | notFound
  | tooLate
  | tableFull
  | duplicateRef
  | notBooked
  | fetchError
  | descriptorInvalid
  | geometry
  deriving DecidableEq, Repr

def ResultCode.num : ResultCode → Nat
  | .done => 1
  | .clamped => 2
  | .busy => 3
  | .badCommand => 4
  | .wrongMode => 5
  | .wrongState => 6
  | .range => 7
  | .notFound => 8
  | .tooLate => 9
  | .tableFull => 10
  | .duplicateRef => 11
  | .notBooked => 12
  | .fetchError => 13
  | .descriptorInvalid => 14
  | .geometry => 15

/-- What a command's owner gives: the result code, the detail and the value words; words not given are 0 (R32). -/
structure Reply where
  code   : ResultCode
  detail : Nat
  words  : List Nat
  deriving DecidableEq, Repr

/-- A refusal with detail 0 and value words 0. -/
def Reply.refuse (code : ResultCode) : Reply := { code := code, detail := 0, words := [] }

/-- DONE, or CLAMPED where a value was brought into range. -/
def Reply.carried (clamped : Bool) (detail : Nat) (words : List Nat) : Reply :=
  { code := if clamped then .clamped else .done, detail := detail, words := words }

/-- Six value words. -/
def words6 (ws : List Nat) : List Byte :=
  le 4 (ws.getD 0 0) ++ le 4 (ws.getD 1 0) ++ le 4 (ws.getD 2 0) ++ le 4 (ws.getD 3 0) ++ le 4 (ws.getD 4 0) ++
    le 4 (ws.getD 5 0)

/-- The result record of a command with the given code, tag and slot. -/
def resultBytes (code tag slot : Nat) (r : Reply) : List Byte :=
  le 2 code ++ le 2 tag ++ le 1 slot ++ le 1 r.code.num ++ le 2 r.detail ++ words6 r.words

/-! ### The billing record (Table 11-7) -/

/-- The 64 bytes of a billing record. -/
def BillRecord.bytes (r : BillRecord) : List Byte :=
  le 1 r.kind.num ++ le 1 r.reason.num ++ le 1 r.flags ++ le 1 r.failovers ++ le 4 r.ref ++ le 2 r.account ++
    le 1 r.dest ++ le 1 r.tariff ++ le 4 r.liveNT ++ le 4 r.closeNT ++ le 4 r.meters.c ++ le 4 r.meters.d ++
    le 4 r.meters.u ++ le 4 r.meters.oc ++ le 4 r.meters.od ++ le 4 r.meters.ou ++ le 4 r.meters.p ++ le 4 r.meters.su ++
    le 4 r.seconds ++ le 4 r.charge ++ le 2 r.takes ++ le 2 r.slips

/-! ### The booking descriptor (Table 11-8) -/

/-- The marker field; it is met when byte 0 is 4Bh and byte 1 is 6Ah. -/
def descriptorMarker (data : List Byte) : Nat := field data 0 2

/-- The fields of a descriptor, each at its full width. -/
def descriptorOf (data : List Byte) : Descriptor :=
  Descriptor.withFlags (field data 2 2)
    { Descriptor.blank with
      ref := field data 4 4, account := field data 8 2, dest := field data 10 1, primary := field data 11 1,
      backup := field data 12 1, alt1 := field data 13 1, alt2 := field data 14 1, priority := field data 15 1,
      arms := field data 16 1, tariff := field data 17 1, preroll := field data 18 2, startSec := field data 20 4,
      endSec := field data 24 4, allowance := field data 28 2, next := field data 32 8 }

/-! ### The unit header (Table 11-8a) -/

/-- Marker; it is met when byte 0 is 6Ah and byte 1 is 4Bh. -/
def headerMarker (bytes : List Byte) : Nat := field bytes 0 2

def headerFeedTag (bytes : List Byte) : Nat := field bytes 2 1

def headerFlags (bytes : List Byte) : Nat := field bytes 3 1

def headerSequence (bytes : List Byte) : Nat := field bytes 4 2

end Sys2Proof.Machine
end

