-- ==== Sys2Proof/Machine/Commands.lean ====
section
/-! DEFINITION. The Command Unit: capture (R25 to R27), the order of hand-over and start (R29, R30), the running of a
command and its result (R31, R32), BUSY_HANDOVER and BAD_COMMAND. -/

namespace Sys2Proof.Machine

/-- What a step answers. -/
abbrev Out := Host.Outcome State Fault Refusal

/-! ### Capture -/

/-- R25 to R27: a command slot write of slot `n`, reported by the LPU with whether it is a full block write and its data. -/
def cuSlotWrite (n : Nat) (full : Bool) (data : List Byte) (s : State) : State :=
  if !full || commandCode data == 0 then
    s.withCu { s.cu with ignored := satAdd max32 s.cu.ignored 1 }
  else
    match s.slotData n with
    | none =>
      let s1 := s.setSlotData n (some (data.take 64))
      s1.withCu { s1.cu with queue := s1.cu.queue ++ [n] }
    | some _ =>
      if s.cu.busy.any (fun b => b.slot == n) then
        s.withCu { s.cu with ignored := satAdd max32 s.cu.ignored 1 }
      else
        s.withCu { s.cu with busy := s.cu.busy ++ [⟨n, commandCode data, commandTag data⟩] }

/-! ### Hand-over and start -/

/-- The free places of the result ring, counted from the RW's own index state (R30). -/
def resultPlaces (s : State) : Nat := 63 - s.rw.result.count 64

/-- R30: the head of the command queue may start: no reset, no executing command, no BUSY answer waiting, a place free.
Answers the slot, its captured bytes and the rest of the queue. -/
def cuNext (s : State) : Option (Nat × List Byte × List Nat) :=
  if s.lpu.resetAsserted || s.cu.executing.isSome || !s.cu.busy.isEmpty || resultPlaces s == 0 then none
  else
    match s.cu.queue with
    | [] => none
    | n :: rest => some (n, (s.slotData n).getD [], rest)

/-- R31: the result of slot `n` is handed to the RW, the slot becomes free and the reservation ends. -/
def cuFinish (n : Nat) (data : List Byte) (r : Reply) (s : State) : State :=
  let s1 := rwAccept .result (resultBytes (commandCode data) (commandTag data) n r) s
  let s2 := s1.setSlotData n none
  s2.withCu { s2.cu with executing := none }

/-- The step of a command row: where the head of the queue may start and holds the row's code, it leaves the queue (R29), its
owner carries it out on its parameter words, and the result is handed over. Where it may not, or holds another code, the
step does not come about and nothing changes (log entry 3). -/
def runCommand (code : Nat) (owner : (Nat → Nat) → State → State × Reply) (s : State) : State :=
  match cuNext s with
  | none => s
  | some (n, data, rest) =>
    if commandCode data = code then
      let r := owner (commandParam data) (s.withCu { s.cu with queue := rest })
      cuFinish n data r.2 r.1
    else s

/-- A command that may go on executing (R31): its owner answers at once, or leaves the command executing with a job. -/
def runLongCommand (code : Nat) (owner : (Nat → Nat) → State → State × (Reply ⊕ Job)) (s : State) : State :=
  match cuNext s with
  | none => s
  | some (n, data, rest) =>
    if commandCode data = code then
      match owner (commandParam data) (s.withCu { s.cu with queue := rest }) with
      | (s1, .inl reply) => cuFinish n data reply s1
      | (s1, .inr job) => s1.withCu { s1.cu with executing := some ⟨n, data, job⟩ }
    else s

/-- BUSY_HANDOVER (R30): the oldest BUSY answer is handed to the RW when a place is free beyond the reservation of the
executing command. -/
def cuBusyHandover (s : State) : State :=
  match s.cu.busy with
  | [] => s
  | b :: rest =>
    if !s.lpu.resetAsserted && (if s.cu.executing.isSome then 1 else 0) < resultPlaces s then
      rwAccept .result (resultBytes b.code b.tag b.slot (.refuse .busy)) (s.withCu { s.cu with busy := rest })
    else s

def execBusyHandover (s : State) : Out := .next (cuBusyHandover s)

/-- R31: a code that is not in Table 11-3 is answered BAD_COMMAND without reaching any block. -/
def cuBadCommand (s : State) : State :=
  match cuNext s with
  | none => s
  | some (n, data, rest) =>
    if commandCodes.contains (commandCode data) then s
    else cuFinish n data (.refuse .badCommand) (s.withCu { s.cu with queue := rest })

def execBadCommand (s : State) : Out := .next (cuBadCommand s)

end Sys2Proof.Machine
end

