-- ==== Sys2Proof/Machine/Delivery.lean ====
section
/-! DEFINITION. The Delivery Monitor: the delivery condition (R169), the impairment hold (R164), slips (R163), freeze
repeats (R157), lag adjustments (R166), window read errors (R165), the adaptation period (R167) and Set Lag (R168). -/

namespace Sys2Proof.Machine

/-! ### The delivery condition -/

/-- Table 8-6: the first line that holds, from the holder, the route record and the record of its current feed. -/
def dmCondition (s : State) (d : Nat) : Condition :=
  match s.holderEntry d, s.route d with
  | some (_, e), some r =>
    match r.source with
    | .slate => .outage
    | .feed f =>
      if r.change = some .toSlate then .outage
      else
        match s.feedRec f with
        | none => .outage
        | some x =>
          if !x.health.usable || x.testSignal then .outage
          else if x.health == .degraded || 0 < (s.delivery d).impairment ||
              (f == e.desc.backup && e.desc.billBackupDegraded) then .degraded
          else .clean
  | _, _ => .none

/-- R169: the DM recomputes the condition of `d`. -/
def dmReclass (d : Nat) (s : State) : State := modDelivery d (fun x => { x with condition := dmCondition s d }) s

/-- R86, R78: the DM reclasses every destination whose current feed is `f`. -/
def dmReclassFeed (f : Nat) (s : State) : State :=
  forAll 48 (fun d t => if (t.route d).any (fun r => r.source == .feed f) then dmReclass d t else t) s

/-! ### The impairment hold -/

/-- R164: a start sets the count to H when H is greater than the count. -/
def dmImpair (d : Nat) (s : State) : State :=
  dmReclass d (modDelivery d (fun x => { x with impairment := max x.impairment (s.destParams d).impairmentHold }) s)

/-- R164: the count becomes 0 at a clean take and at a holder change. -/
def dmClearImpairment (d : Nat) (s : State) : State :=
  dmReclass d (modDelivery d (fun x => { x with impairment := 0 }) s)

/-- R164, R170: one millisecond of the impairment hold of `d`, already classed, is counted off. -/
def dmImpairmentTick (d : Nat) (s : State) : State :=
  if 0 < (s.delivery d).impairment then
    let s1 := modDelivery d (fun x => { x with impairment := x.impairment - 1 }) s
    if (s1.delivery d).impairment = 0 then dmReclass d s1 else s1
  else s

/-! ### Slips -/

/-- R163, step 3: the slips count of the booking that holds `d`. -/
def btCountSlip (d : Nat) (s : State) : State :=
  match s.holder d with
  | none => s
  | some e => modEntry e (fun x => { x with slips := satAdd 65535 x.slips 1 }) s

/-- R163 for a repeat slip at window slot `slot`: counts, holder, impairment hold and the REPEAT event (Table 8-7). `served` is
the ring slot, or 65,536 for the slate; `cause` is 0 for a hold that expired and 1 for a full hold list. -/
def dmRepeatSlip (d slot served cause : Nat) (s : State) : State :=
  let s1 := modDelivery d (fun x =>
    { x with repeatSlips := satAdd max32 x.repeatSlips 1, periodRepeats := satAdd max32 x.periodRepeats 1 }) s
  let s2 := dmImpair d (btCountSlip d s1)
  raise .slip 1 d [slot, served, (s2.delivery d).repeatSlips, cause] s2

/-- R163 for a drop slip that skips `skipped` units, with the DROP event. -/
def dmDropSlip (d slot served skipped : Nat) (s : State) : State :=
  let s1 := modDelivery d (fun x =>
    { x with dropSlips := satAdd max32 x.dropSlips 1, unitsSkipped := satAdd max32 x.unitsSkipped skipped }) s
  let s2 := dmImpair d (btCountSlip d s1)
  raise .slip 2 d [slot, served, skipped, (s2.delivery d).dropSlips] s2

/-- R157: a freeze repeat is counted and is not a slip. -/
def dmFreezeRepeat (d : Nat) (s : State) : State :=
  modDelivery d (fun x => { x with freezeRepeats := satAdd max32 x.freezeRepeats 1 }) s

/-- R166: the application of a lag adjustment, `kind` 1 for a lag repeat and 2 for a lag reset. -/
def dmLagAdjusted (d kind phase : Nat) (s : State) : State :=
  let s1 := dmImpair d (modDelivery d (fun x => { x with lagAdjustments := satAdd max32 x.lagAdjustments 1 }) s)
  raise .slip 3 d [kind, phase, (s1.delivery d).lag, (s1.delivery d).lagAdjustments] s1

/-- R165: a remapped window read of `d`, window slot `slot`, was answered ERROR. The counters act only for a destination
that has a route record, in RUN and RESTARTING (R153). -/
def dmReadError (d slot : Nat) (s : State) : State :=
  match s.route d with
  | none => s
  | some r =>
    if s.lpu.mode == .config || s.lpu.resetAsserted then s
    else
      let s1 := dmImpair d (modDelivery d (fun x => { x with readErrors := satAdd max32 x.readErrors 1 }) s)
      raise .slip 5 d [slot, r.source.num, (s1.delivery d).readErrors] s1

/-! ### Lag adjustments and adaptation -/

/-- R166: a lag repeat asked of the RU. One asked while a lag repeat is pending turns it into a lag reset; a pending lag
reset absorbs it; while a change to slate is pending it is discarded (R130). -/
def dmAskLagRepeat (d : Nat) (s : State) : State :=
  modRoute d (fun r =>
    match r.change with
    | none => { r with change := some .lagRepeat }
    | some .lagRepeat => { r with change := some .lagReset }
    | some .lagReset => r
    | some .toSlate => r) s

/-- R166: a lag reset asked of the RU replaces a pending lag repeat; it is discarded while a change to slate is pending. -/
def dmAskLagReset (d : Nat) (s : State) : State :=
  modRoute d (fun r =>
    match r.change with
    | some .toSlate => r
    | _ => { r with change := some .lagReset }) s

/-- R167: the period has reached 10,000 local milliseconds. Λ is raised by 1 where the adapt flag is enabled, the period repeats
are 3 or more and Λ is below Λmax; the count and the repeats become 0 in every case. -/
def dmPeriodEnd (d : Nat) (s : State) : State :=
  let x := s.delivery d
  let s1 :=
    if x.adapt && 3 ≤ x.periodRepeats && x.lag < x.lagMax then
      raise .slip 4 d [x.lag + 1, x.lagMax, x.periodRepeats, 0]
        (dmAskLagRepeat d (modDelivery d (fun y => { y with lag := y.lag + 1 }) s))
    else s
  modDelivery d (fun y => { y with periodCount := 0, periodRepeats := 0 }) s1

/-- R167: the end of the period, where it is due. -/
def dmPeriodTest (d : Nat) (s : State) : State :=
  if (s.route d).isSome && 10000 ≤ (s.delivery d).periodCount then dmPeriodEnd d s else s

/-- R170: the DM's own changes of one local millisecond for `d`: the impairment count, then the adaptation period. -/
def dmMillisecond (d : Nat) (s : State) : State :=
  if (s.route d).isSome then
    let s1 := dmImpairmentTick d s
    dmPeriodTest d (modDelivery d (fun x => { x with periodCount := x.periodCount + 1 }) s1)
  else s

/-! ### Set Lag -/

/-- N/2, taken as 512 while the ring depth is unset (R154). -/
def halfDepth (s : State) : Nat := (s.lpu.depth.getD 1024) / 2

/-- R168: the values applied to one destination, and the lag reset asked in RUN where Λ has changed. -/
def dmSetLag (lag lagMax : Nat) (adapt : Bool) (limit d : Nat) (s : State) : State :=
  let s1 := modDelivery d (fun x => { x with lag := lag, lagMax := lagMax, adapt := adapt, holdLimit := limit }) s
  if s.lpu.mode == .run && (s.delivery d).lag != lag then dmAskLagReset d s1 else s1

/-- R168: Set Lag takes the destination (255 for all), Λ, Λmax, the adapt flag and the hold limit. -/
def dmSetLagCommand (p : Nat → Nat) (s : State) : State × Reply :=
  if (47 < p 0 && p 0 != 255) || 1 < p 3 then (s, .refuse .range)
  else
    let lagMax := clamp 1 (halfDepth s) (p 2)
    let lag := clamp 1 lagMax (p 1)
    let limit := clamp 1 1000 (p 4)
    let s1 :=
      if p 0 = 255 then forAll 48 (dmSetLag lag lagMax (p 3 == 1) limit) s
      else dmSetLag lag lagMax (p 3 == 1) limit (p 0) s
    (s1, .carried (lagMax != p 2 || lag != p 1 || limit != p 4) 0 [lag, lagMax, p 3, limit])

def execSetLag (s : State) : Out := .next (runCommand 0x0801 dmSetLagCommand s)

/-! ### Enter Run and the end of Restart -/

/-- R154 and the column Enter Run of Table 8-1: Λmax brought within N/2, Λ within Λmax, the rest started afresh. -/
def dmEnterRun (d : Nat) (s : State) : State :=
  modDelivery d (fun x =>
    let lagMax := min x.lagMax (halfDepth s)
    { Delivery.initial with lag := min x.lag lagMax, lagMax := lagMax, adapt := x.adapt, holdLimit := x.holdLimit }) s

/-- The column End of Restart of Table 8-1. -/
def dmEndRestart (d : Nat) (s : State) : State :=
  modDelivery d (fun x =>
    { Delivery.initial with lag := x.lag, lagMax := x.lagMax, adapt := x.adapt, holdLimit := x.holdLimit }) s

end Sys2Proof.Machine
end

