-- ==== Sys2Proof/Machine/Routes.lean ====
section
/-! DEFINITION. The Route Unit: takes and their arming (R131 to R136), application (R137, R138), the operator takes (R139 to
R143), freeze, failover, restore and revert (R144 to R150), and the destination parameters (R151). -/

namespace Sys2Proof.Machine

/-! ### Arming -/

/-- R132: the newest entry p of the target's picture-start list whose distance from c is from Λ to N/2. -/
def ruSearch (s : State) (d target : Nat) : Option Nat :=
  match s.feedRec target with
  | none => none
  | some x =>
    x.pictureStarts.find? (fun p =>
      (s.delivery d).lag ≤ modSub s.ringDepth x.lastSlot p && modSub s.ringDepth x.lastSlot p ≤ s.ringDepth / 2)

/-- Where an armed take stands: CUED for reason CUE, READY otherwise (R132). -/
def TakeReason.armed : TakeReason → TakeState
  | .cue => .cued
  | _ => .ready

/-- R132: a take that enters or stands in ARMING after the search. Where the search finds no entry, p is none and the rough flag
is clear, as they are at a request (R131); for a READY take that goes back to ARMING the manual states neither (R134, R137;
DESIGN CHOICE, log entry 22). -/
def ruArm (s : State) (d : Nat) (t : Take) : Take :=
  match ruSearch s d t.target with
  | some p => { t with state := t.reason.armed, slot := some p, rough := false }
  | none => { t with state := .arming, slot := none, rough := false }

/-- The rough slot (c - Λ) mod N of a target (R134, R135). -/
def ruRoughSlot (s : State) (d target : Nat) : Nat :=
  modSub s.ringDepth (s.lastSlot target) (s.delivery d).lag

/-- The distance of slot `p` from c of feed `f`. -/
def slotDistance (s : State) (f p : Nat) : Nat := modSub s.ringDepth (s.lastSlot f) p

/-- R131: a take to `target` is requested for `d`; a pending take is superseded. Nothing is requested outside RUN. -/
def ruRequestTake (d target : Nat) (reason : TakeReason) (s : State) : State :=
  match s.route d with
  | none => s
  | some r =>
    if s.lpu.mode == .run then
      let t0 : Take := { target := target, reason := reason, state := .waitSource, slot := none, rough := false, timer := 0 }
      let t := if s.usable target then ruArm s d t0 else t0
      raise .take 1 d [target, reason.num, t.state.num, (r.take.map Take.target).getD 255]
        (s.setRoute d (some { r with take := some t }))
    else s

/-! ### The tests of Section 7.5 -/

/-- The current source is the slate or an unusable feed. -/
def ruSourceDown (s : State) (r : Route) : Bool :=
  match r.source with
  | .slate => true
  | .feed f => !s.usable f

/-- R145, step 2: the failover target of a holder: its backup feed, or the primary where the backup is selected. -/
def failoverTarget (e : Entry) : Option Nat :=
  if e.selected = e.desc.backup then some e.desc.primary
  else if e.desc.backup = 255 then none else some e.desc.backup

/-- R147: the restore test, made in RUN for a destination with a route record and a holder. -/
def ruRestore (d : Nat) (s : State) : State :=
  match s.holderEntry d, s.route d with
  | some (_, e), some r =>
    if s.lpu.mode == .run && r.take.isNone && ruSourceDown s r then
      match r.wanted.filter s.usable with
      | some w => ruRequestTake d w .restore s
      | none => if s.usable e.selected then ruRequestTake d e.selected .restore s else s
    else s
  | _, _ => s

/-- A FAILOVER take to `target` is requested and consumes an arm of holder `h` (R145, R146). -/
def ruFailoverTake (d h target : Nat) (s : State) : State :=
  modEntry h (fun e => { e with armsLeft := e.armsLeft - 1 }) (ruRequestTake d target .failover s)

/-- R146: a deferred failover is taken up where the wanted feed is usable and every condition holds. -/
def ruDeferredFailover (d : Nat) (s : State) : State :=
  match s.holderEntry d, s.route d with
  | some (h, e), some r =>
    match r.source, r.wanted with
    | .feed f, some w =>
      if s.lpu.mode == .run && s.usable w && !s.usable f && r.change != some .toSlate &&
          !(r.take.any (fun t => s.usable t.target)) && e.desc.autoFailover && 0 < e.armsLeft &&
          failoverTarget e == some w && w != f then
        ruFailoverTake d h w s
      else s
    | _, _ => s
  | _, _ => s

/-- R145: the failover triggered when a health report makes the current feed `f` of `d` unusable. -/
def ruFailover (d f : Nat) (s : State) : State :=
  match s.holderEntry d, s.route d with
  | some (h, e), some r =>
    if s.lpu.mode == .run && r.change != some .toSlate &&
        !(r.take.any (fun t => t.state != .cued && s.usable t.target)) then
      match failoverTarget e with
      | none => s
      | some t =>
        if t = f || !e.desc.autoFailover || e.armsLeft = 0 then s
        else if s.usable t then
          ruFailoverTake d h t (s.setRoute d (some { r with failoverSince := true }))
        else
          raise .take 6 d [t, f, e.armsLeft] (s.setRoute d (some { r with failoverSince := true, wanted := some t }))
    else s
  | _, _ => s

/-- R148: the conditions of the revert timer, but for the pending take. -/
def ruRevertHolds (s : State) (d : Nat) (r : Route) : Bool :=
  match s.holderEntry d with
  | none => false
  | some (_, e) =>
    e.desc.autoRevert && r.failoverSince && r.source == .feed e.desc.backup && e.desc.backup != e.selected &&
      (s.feedRec e.selected).any (fun x => x.health == .healthy)

/-- R148: when a condition other than the pending take fails, the revert timer becomes 0. -/
def ruRevertCheck (d : Nat) (s : State) : State :=
  modRoute d (fun r => if ruRevertHolds s d r then r else { r with revert := 0 }) s

/-- R144: the freeze limit is reached: a change to slate, the wanted feed, the FROZEN event, and the timer stops. -/
def ruFrozen (d f : Nat) (s : State) : State :=
  match s.route d with
  | none => s
  | some r =>
    let wanted := r.wanted.getD f
    dmReclass d (raise .take 7 d [f, (s.destParams d).freezeLimit, wanted]
      (s.setRoute d (some { r with change := some .toSlate, wanted := some wanted, freeze := none })))

/-- R144: the freeze timer of `d` at its limit, made in RUN for a destination with a holder. -/
def ruFreezeTest (d : Nat) (s : State) : State :=
  match s.route d with
  | none => s
  | some r =>
    match r.freeze, r.source with
    | some n, .feed f =>
      if s.lpu.mode == .run && (s.holder d).isSome && (s.destParams d).freezeLimit ≤ n then ruFrozen d f s else s
    | _, _ => s

/-- R144: a health report makes the current feed unusable: the freeze timer is set to 0 and started, unless a change to slate
is pending; with a freeze limit of 0 its steps are taken at once. -/
def ruFreezeStart (d : Nat) (s : State) : State :=
  match s.route d with
  | none => s
  | some r =>
    if s.lpu.mode == .run && (s.holder d).isSome && r.change != some .toSlate then
      ruFreezeTest d (s.setRoute d (some { r with freeze := some 0 }))
    else s

/-- The freeze timer is stopped (R144). -/
def ruFreezeStop (d : Nat) (s : State) : State := modRoute d (fun r => { r with freeze := none }) s

/-! ### Timers -/

/-- R136: the pending take of `d` has failed at its timeout in WAIT_SOURCE: the wanted feed becomes its target, FAILED is
raised, and the deferred failover and restore tests are made. -/
def ruTakeFailed (d : Nat) (s : State) : State :=
  match s.route d with
  | none => s
  | some r =>
    match r.take with
    | none => s
    | some t =>
      let ref := ((s.holderEntry d).map (fun p => p.2.desc.ref)).getD 0
      ruRestore d (ruDeferredFailover d
        (raise .take 3 d [t.target, t.reason.num, ref, (s.destParams d).takeTimeout]
          (s.setRoute d (some { r with take := none, wanted := some t.target }))))

/-- R135: the take timer of `d` at the take timeout. -/
def ruTakeTimeoutTest (d : Nat) (s : State) : State :=
  match s.route d with
  | none => s
  | some r =>
    match r.take with
    | none => s
    | some t =>
      if s.lpu.mode == .run && (s.destParams d).takeTimeout ≤ t.timer then
        match t.state with
        | .arming =>
          s.setRoute d (some { r with
            take := some { t with state := t.reason.armed, slot := some (ruRoughSlot s d t.target), rough := true } })
        | .waitSource => ruTakeFailed d s
        | _ => s
      else s

/-- R148: the revert timer of `d` at the revert hold: a REVERT take to the selected feed is requested and the timer becomes 0.
A timer that a pending take holds at or past the revert hold does not expire until no take is pending (DESIGN CHOICE, log
entry 23). -/
def ruRevertTest (d : Nat) (s : State) : State :=
  match s.holderEntry d, s.route d with
  | some (_, e), some r =>
    if s.lpu.mode == .run && ruRevertHolds s d r && r.take.isNone && (s.destParams d).revertHold * 1000 ≤ r.revert then
      ruRequestTake d e.selected .revert (s.setRoute d (some { r with revert := 0 }))
    else s
  | _, _ => s

/-- R135: the take timer counts while its take is in ARMING or WAIT_SOURCE. -/
def ruTakeCount (d : Nat) (s : State) : State :=
  modRoute d (fun r => { r with take := r.take.map (fun t =>
    if t.state == .arming || t.state == .waitSource then { t with timer := t.timer + 1 } else t) }) s

/-- R144: the freeze timer counts while it runs. -/
def ruFreezeCount (d : Nat) (s : State) : State := modRoute d (fun r => { r with freeze := r.freeze.map (· + 1) }) s

/-- R148: the revert timer counts while every condition holds, keeps its count while only the pending take stands in the way,
and becomes 0 when another condition fails. -/
def ruRevertCount (d : Nat) (s : State) : State :=
  modRoute d (fun r =>
    if ruRevertHolds s d r then (if r.take.isNone then { r with revert := r.revert + 1 } else r)
    else { r with revert := 0 }) s

/-- R150: the three timers of `d` at a local millisecond, each counted and tested in its turn. These acts are made in RUN
(Section 7.5). -/
def ruMillisecond (d : Nat) (s : State) : State :=
  if s.lpu.mode == .run then
    ruRevertTest d (ruRevertCount d (ruFreezeTest d (ruFreezeCount d (ruTakeTimeoutTest d (ruTakeCount d s)))))
  else s

/-! ### Application -/

/-- R137, R138: the take `t`, armed at slot `p`, is applied at window slot `slot` of `d`. -/
def ruApply (d slot p : Nat) (t : Take) (r : Route) (s : State) : State :=
  let phase := modSub s.ringDepth p slot
  let home := (s.holderEntry d).any (fun h => h.2.selected == t.target)
  let r1 : Route :=
    { r with
      source := .feed t.target, phase := phase, wanted := none, take := none, change := none, freeze := none,
      failoverSince := r.failoverSince && !home, revert := 0 }
  let s1 := s.setRoute d (some r1)
  let s2 :=
    match s.holder d with
    | none => s1
    | some h =>
      modEntry h (fun e =>
        { e with
          takes := satAdd 65535 e.takes 1,
          failovers := if t.reason = .failover then satAdd 255 e.failovers 1 else e.failovers,
          rough := e.rough || t.rough }) s1
  let s3 := if t.rough then dmImpair d s2 else dmClearImpairment d s2
  raise .take 2 d [t.target, t.reason.num, phase, pack 16 (flag t.rough) p] s3

/-- R133, R137: a take whose target has become unusable returns to WAIT_SOURCE with its timer at 0. R133 makes p none and the
rough flag clear; at the test of R137, which says nothing of the two, the model does the same (DESIGN CHOICE, log entry
22). -/
def Take.toWait (t : Take) : Take := { t with state := .waitSource, slot := none, rough := false, timer := 0 }

/-- Step 3 of R155: a READY take is tested and applied (R137). Answers the ring slot served where it was applied. -/
def ruTryTake (d slot : Nat) (s : State) : State × Option Served :=
  match s.route d with
  | none => (s, none)
  | some r =>
    match r.take with
    | none => (s, none)
    | some t =>
      match t.state, t.slot with
      | .ready, some p =>
        if !s.usable t.target then (s.setRoute d (some { r with take := some t.toWait }), none)
        else if !s.available t.target p then
          (s.setRoute d (some { r with take := some (ruArm s d { t with timer := 0 }) }), none)
        else (ruApply d slot p t r s, some (.ring t.target p))
      | _, _ => (s, none)

/-! ### Reports of the FM -/

/-- R133: a health report of feed `f` acts on the pending take of `d` whose target is `f`. -/
def ruHealthTake (d f : Nat) (was is : Bool) (s : State) : State :=
  modRoute d (fun r => { r with take := r.take.map (fun t =>
    if t.target != f then t
    else if was && !is then
      match t.state with
      | .waitSource => t
      | .arming => { t with state := .waitSource, slot := none, rough := false }
      | _ => t.toWait
    else if !was && is && t.state == .waitSource then ruArm s d t
    else t) }) s

/-- R134 and R132 at a slot completion report of the target of the take of `d`. A READY take that goes back to ARMING without a
find has p none and the rough flag clear (DESIGN CHOICE, log entry 22). -/
def ruCompletionTake (s : State) (d : Nat) (t : Take) : Take :=
  let far := fun p => decide (s.ringDepth / 2 < slotDistance s t.target p)
  match t.state, t.slot with
  | .arming, _ => ruArm s d t
  | .ready, some p =>
    if t.rough then
      match ruSearch s d t.target with
      | some q => { t with slot := some q, rough := false }
      | none => if far p then { t with state := .arming, slot := none, rough := false, timer := 0 } else t
    else if far p then ruArm s d { t with timer := 0 } else t
  | .cued, some p =>
    match ruSearch s d t.target with
    | some q => { t with slot := some q, rough := false }
    | none => if far p then { t with slot := some (ruRoughSlot s d t.target), rough := true } else t
  | _, _ => t

/-- A slot completion report of feed `f` reaches the pending take of `d` (R132, R134). -/
def ruCompletion (d f : Nat) (s : State) : State :=
  modRoute d (fun r => { r with take := r.take.map (fun t =>
    if t.target = f then ruCompletionTake s d t else t) }) s

/-- R149, step 3, for the current feed `f` of `d`. -/
def ruHealthCurrent (d f : Nat) (was is : Bool) (s : State) : State :=
  if was && !is then ruFailover d f (ruFreezeStart d s)
  else if !was && is then ruFreezeStop d s
  else s

/-- R149, step 4: the deferred failover where the wanted feed has become usable, then the restore test where its event is
met. `current` says that `f` is the current feed. -/
def ruHealthTests (d f : Nat) (was is current : Bool) (s : State) : State :=
  let wanted := (s.route d).any (fun r => r.wanted == some f)
  let s1 := if !was && is && wanted then ruDeferredFailover d s else s
  if (!was && is && (wanted || s.selectedFeed d == some f)) || (was && !is && current) then ruRestore d s1 else s1

/-! ### Operator takes (Section 7.4) -/

/-- R139: the value words of an accepted take command: the pending take's state, target and p, and the holder's
reference. -/
def ruTakeReply (d : Nat) (s : State) : Reply :=
  let t := (s.route d).bind Route.take
  let ref := ((s.holderEntry d).map (fun p => p.2.desc.ref)).getD 0
  { code := .done, detail := 0,
    words := [(t.map (fun x => x.state.num)).getD 0, (t.map Take.target).getD 255,
              ((t.bind Take.slot)).getD 65536, ref] }

/-- The holder's selected feed becomes `f`, and the revert conditions are looked at again (R129, R148). -/
def ruSelect (d f : Nat) (s : State) : State :=
  match s.holder d with
  | none => s
  | some h => ruRevertCheck d (modEntry h (fun e => { e with selected := f }) s)

/-- R140. -/
def ruTakeCommand (p : Nat → Nat) (s : State) : State × Reply :=
  if 47 < p 0 || 63 < p 1 then (s, .refuse .range)
  else
    match s.holderEntry (p 0) with
    | none => (s, .refuse .notBooked)
    | some (_, e) =>
      if e.desc.feedSet.contains (p 1) then
        let s1 := ruRequestTake (p 0) (p 1) .manual (ruSelect (p 0) (p 1) s)
        (s1, ruTakeReply (p 0) s1)
      else (s, .refuse .notBooked)

def execTake (s : State) : Out := .next (runCommand 0x0701 ruTakeCommand s)

/-- R141. -/
def ruCueCommand (p : Nat → Nat) (s : State) : State × Reply :=
  if 47 < p 0 || 63 < p 1 then (s, .refuse .range)
  else
    match s.holderEntry (p 0) with
    | none => (s, .refuse .notBooked)
    | some (_, e) =>
      if e.desc.feedSet.contains (p 1) then
        let s1 := ruRequestTake (p 0) (p 1) .cue s
        (s1, ruTakeReply (p 0) s1)
      else (s, .refuse .notBooked)

def execCue (s : State) : Out := .next (runCommand 0x0702 ruCueCommand s)

/-- The pending take of `d` where it is in CUED, with the route record. -/
def ruCuedTake (s : State) (d : Nat) : Option (Route × Take) :=
  match s.route d with
  | none => none
  | some r =>
    match r.take with
    | none => none
    | some t => if t.state = .cued then some (r, t) else none

/-- R142. -/
def ruConfirmCommand (p : Nat → Nat) (s : State) : State × Reply :=
  if 47 < p 0 then (s, .refuse .range)
  else if (s.holder (p 0)).isNone then (s, .refuse .notBooked)
  else
    match ruCuedTake s (p 0) with
    | none => (s, .refuse .wrongState)
    | some (r, t) =>
      let s1 := ruSelect (p 0) t.target
        (s.setRoute (p 0) (some { r with take := some { t with state := .ready, reason := .manual } }))
      (s1, ruTakeReply (p 0) s1)

def execConfirm (s : State) : Out := .next (runCommand 0x0703 ruConfirmCommand s)

/-- R143, R136: UNCUED is raised and the deferred failover and restore tests are made. -/
def ruUncueCommand (p : Nat → Nat) (s : State) : State × Reply :=
  if 47 < p 0 then (s, .refuse .range)
  else
    match s.holderEntry (p 0) with
    | none => (s, .refuse .notBooked)
    | some (_, e) =>
      match ruCuedTake s (p 0) with
      | none => (s, .refuse .wrongState)
      | some (r, t) =>
        let s1 := raise .take 5 (p 0) [t.target, t.slot.getD 65536, e.desc.ref, 0]
          (s.setRoute (p 0) (some { r with take := none }))
        let s2 := ruRestore (p 0) (ruDeferredFailover (p 0) s1)
        (s2, ruTakeReply (p 0) s2)

def execUncue (s : State) : Out := .next (runCommand 0x0704 ruUncueCommand s)

/-! ### Destination parameters -/

/-- R151. -/
def ruSetParamsCommand (p : Nat → Nat) (s : State) : State × Reply :=
  if 47 < p 0 && p 0 != 255 then (s, .refuse .range)
  else
    let x : DestParams :=
      { takeTimeout := clamp 100 10000 (p 1), freezeLimit := clamp 0 10000 (p 2), revertHold := clamp 5 600 (p 3),
        impairmentHold := clamp 0 10000 (p 4) }
    let s1 := if p 0 = 255 then forAll 48 (fun d => State.setDestParams d x) s else s.setDestParams (p 0) x
    (s1, .carried (x.takeTimeout != p 1 || x.freezeLimit != p 2 || x.revertHold != p 3 || x.impairmentHold != p 4) 0
      [x.takeTimeout, x.freezeLimit, x.revertHold, x.impairmentHold])

def execSetDestinationParameters (s : State) : Out := .next (runCommand 0x0705 ruSetParamsCommand s)

/-! ### Enter Run -/

/-- R23, step 2, and Table 7-1: a defined destination is given a route record on the slate. -/
def Route.atEnterRun : Route :=
  { source := .slate, phase := 0, wanted := none, take := none, failoverSince := false, freeze := none, revert := 0,
    change := none }

end Sys2Proof.Machine
end

