-- ==== Sys2Proof/Machine/Slots.lean ====
section
/-! DEFINITION. The slot-start decision (R155 to R157, R162), the forwarding queue and answers of the LPU (R10, R16), the
hold list (R158 to R161, R124) and the window reads that follow a latch or the route (R17, R18). -/

namespace Sys2Proof.Machine

/-! ### The decision -/

/-- What the RU answers at a slot start (R17): serve from a source, or hold for slot `q` of feed `f`. -/
inductive Decision where
  | serve (x : Served)
  | hold (f q : Nat)
  deriving DecidableEq, Repr

/-- R155, steps 1 and 2: the current source becomes the slate, every pending mapping change leaves, the freeze timer stops,
the restore test is made, and the DM reclasses. -/
def ruToSlate (d : Nat) (s : State) : State :=
  dmReclass d (ruRevertCheck d (ruRestore d
    (modRoute d (fun r => { r with source := .slate, change := none, freeze := none }) s)))

/-- The slot before `q` where it is available, else the slate: what a repeat or freeze repeat shows (R157, R162). -/
def previousSlot (s : State) (f q : Nat) : Served :=
  let before := modSub s.ringDepth q 1
  if s.available f before then .ring f before else .slate

/-- A ring slot's number in a SLIP event, 65,536 for the slate (R171). -/
def Served.slotNum : Served → Nat
  | .slate => 65536
  | .ring _ q => q

/-- φ becomes (φ - 1) mod N. -/
def ruPhaseBack (d : Nat) (s : State) : State := modRoute d (fun r => { r with phase := modSub s.ringDepth r.phase 1 }) s

/-- φ becomes ((c - Λ) - slot) mod N, so that window slot `slot` reads at distance Λ (R156, R166). -/
def ruPhaseToLag (d f slot : Nat) (s : State) : State :=
  modRoute d (fun r => { r with phase := modSub s.ringDepth (ruRoughSlot s d f) slot }) s

/-- R157: a freeze repeat at slot `q` of the unusable current feed `f`. -/
def ruFreezeRepeat (d f q : Nat) (s : State) : State × Served :=
  (dmFreezeRepeat d (ruPhaseBack d s), previousSlot s f q)

/-- R162: a repeat slip at slot `q` of `f`, window slot `slot`. -/
def ruRepeatSlip (d slot f q cause : Nat) (s : State) : State × Served :=
  let x := previousSlot s f q
  (dmRepeatSlip d slot x.slotNum cause (ruPhaseBack d s), x)

/-- R156: a drop slip at distance `dist` of slot q from c. -/
def ruDropSlip (d slot f dist : Nat) (s : State) : State × Served :=
  let q := ruRoughSlot s d f
  (dmDropSlip d slot q (dist - (s.delivery d).lag) (ruPhaseToLag d f slot s), .ring f q)

/-- R155, step 5: a pending lag adjustment is applied to φ. -/
def ruApplyLag (d slot f : Nat) (s : State) : State :=
  match s.route d with
  | none => s
  | some r =>
    let clear := modRoute d (fun x => { x with change := none })
    let done := fun kind t => dmLagAdjusted d kind (((t.route d).map Route.phase).getD 0) t
    match r.change with
    | some .lagRepeat => done 1 (ruPhaseBack d (clear s))
    | some .lagReset => done 2 (ruPhaseToLag d f slot (clear s))
    | _ => s

/-- R155, step 6: the start is decided by the availability of slot q of the current feed `f` (R156 to R158). -/
def ruByAvailability (d slot f : Nat) (s : State) : State × Decision :=
  let n := s.ringDepth
  let q := (slot + ((s.route d).map Route.phase).getD 0) % n
  let dist := modSub n (s.lastSlot f) q
  if s.available f q then
    if dist + 4 ≤ n then (s, .serve (.ring f q))
    else
      let y := ruDropSlip d slot f dist s
      (y.1, .serve y.2)
  else if s.usable f then (s, .hold f q)
  else
    let y := ruFreezeRepeat d f q s
    (y.1, .serve y.2)

/-- R155, steps 4 to 6. -/
def ruServeCurrent (d slot : Nat) (s : State) : State × Decision :=
  match (s.route d).map Route.source with
  | some (.feed f) => ruByAvailability d slot f (ruApplyLag d slot f s)
  | _ => (s, .serve .slate)

/-- R155: the decision of the slot start for window slot `slot` of `d`. -/
def ruDecide (d slot : Nat) (s : State) : State × Decision :=
  match s.route d with
  | none => (s, .serve .slate)
  | some r =>
    if s.lpu.mode == .restarting || (s.holder d).isNone || r.change == some .toSlate then
      (ruToSlate d s, .serve .slate)
    else
      match ruTryTake d slot s with
      | (s1, some x) => (s1, .serve x)
      | (s1, none) => ruServeCurrent d slot s1

/-! ### The forwarding queue and the answers -/

/-- R10: a request enters the forwarding queue; one decided while the queue holds 32 enters at the next free place. -/
def lpuForward (x : Forward) (s : State) : State :=
  if s.lpu.forwarding.length < 32 && s.lpu.decidedReads.isEmpty then
    s.withLpu { s.lpu with forwarding := s.lpu.forwarding ++ [x] }
  else s.withLpu { s.lpu with decidedReads := s.lpu.decidedReads ++ [x] }

/-- A response goes back upstream to the initiator of `r` under its tag. -/
def lpuAnswer (r : Request) (resp : Response) (s : State) : State :=
  s.withLpu { s.lpu with answers := s.lpu.answers ++ [⟨r.initiator, r.tag, resp⟩] }

/-- R16: the window slot of a request into the window of `d`. -/
def windowSlot (s : State) (d : Nat) (r : Request) : Nat :=
  (r.addr.toNat - ((s.windowDef d).map (fun x => x.base.toNat)).getD 0) / 2048

/-- R16: the offset within the slot. -/
def windowOffset (s : State) (d : Nat) (r : Request) : Nat :=
  (r.addr.toNat - ((s.windowDef d).map (fun x => x.base.toNat)).getD 0) % 2048

/-- R16: the remapped address of offset `o` of a served slot. -/
def remapped (s : State) (x : Served) (o : Nat) : Addr :=
  match x with
  | .slate => BitVec.ofNat 40 (s.controlBase + 0x12000 + o)
  | .ring f q => BitVec.ofNat 40 (((s.ringDef f).map (fun y => y.base.toNat)).getD 0 + q * 2048 + o)

/-- R16: a window read of `d` goes downstream with the remapped address; length, initiator and tag are kept. -/
def lpuServe (d : Nat) (r : Request) (x : Served) (s : State) : State :=
  lpuForward
    { req := { r with addr := remapped s x (windowOffset s d r) }, origin := .window d (windowSlot s d r) } s

/-! ### Window reads -/

/-- R158: the hold list entry for a start that waits for slot `q` of `f`, with its read first. -/
def lpuHold (d f q slot : Nat) (r : Request) (s : State) : State :=
  s.withLpu { s.lpu with holds := s.lpu.holds ++
    [{ dest := d, feed := f, ringSlot := q, slot := slot, elapsed := 0, limit := (s.delivery d).holdLimit, reads := [r] }] }

/-- R17, R158: a slot start read of `d`. Answers whether the start is held. -/
def lpuSlotStart (d : Nat) (r : Request) (s : State) : State × Bool :=
  let slot := windowSlot s d r
  match ruDecide d slot s with
  | (s1, .serve x) => (lpuServe d r x (s1.setLatch d (some ⟨slot, .decided x⟩)), false)
  | (s1, .hold f q) =>
    if s1.lpu.holds.length < 8 then
      (lpuHold d f q slot r (s1.setLatch d (some ⟨slot, .pending⟩)), true)
    else
      let y := ruRepeatSlip d slot f q 1 s1
      (lpuServe d r y.2 (y.1.setLatch d (some ⟨slot, .decided y.2⟩)), false)

/-- R18: the source of a read that follows no slot start of its own: the latched source for the latched slot, else the slot
that φ points to on the current source. -/
def lpuFollow (s : State) (d slot : Nat) : Served :=
  let byRoute :=
    match s.route d with
    | some r =>
      match r.source with
      | .feed f => Served.ring f ((slot + r.phase) % s.ringDepth)
      | .slate => .slate
    | none => .slate
  match s.latch d with
  | some ⟨k, .decided x⟩ => if k = slot then x else byRoute
  | _ => byRoute

/-- R17: the latch of `d` holds `slot` with its source decided. -/
def latchDecided (s : State) (d slot : Nat) : Bool :=
  match s.latch d with
  | some ⟨k, .decided _⟩ => k == slot
  | _ => false

/-- R17, R18: a read of the window of `d` by its reader that joins no hold entry. Answers whether it is held. -/
def lpuReadWindow (d : Nat) (r : Request) (s : State) : State × Bool :=
  let slot := windowSlot s d r
  if windowOffset s d r < 64 && !latchDecided s d slot then lpuSlotStart d r s
  else (lpuServe d r (lpuFollow s d slot) s, false)

/-! ### The end of a hold -/

/-- Adds `rs` behind the reads of the hold entry of `d`. -/
def holdJoin (d : Nat) (rs : List Request) (s : State) : State :=
  s.withLpu { s.lpu with holds := s.lpu.holds.map (fun h => if h.dest = d then { h with reads := h.reads ++ rs } else h) }

/-- The hold list entry of `d` becomes free. -/
def holdFree (d : Nat) (s : State) : State := s.withLpu { s.lpu with holds := s.lpu.holds.filter (fun h => h.dest != d) }

/-- R161: the joined reads are answered in arrival order; a slot start among them that is decided to hold keeps the reads
behind it in its entry. -/
def lpuAnswerJoined (d : Nat) : List Request → State → State
  | [], s => s
  | r :: rs, s =>
    match lpuReadWindow d r s with
    | (s1, true) => holdJoin d rs s1
    | (s1, false) => lpuAnswerJoined d rs s1

/-- R161: the first read of the hold entry `h` has been decided to `x`. -/
def lpuEndHold (h : HoldEntry) (x : Served) (s : State) : State :=
  let s1 := (holdFree h.dest s).setLatch h.dest (some ⟨h.slot, .decided x⟩)
  match h.reads with
  | [] => s1
  | r :: rs => lpuAnswerJoined h.dest rs (lpuServe h.dest r x s1)

/-- R3, R24, R124: every read of the hold entry of `d` is answered from the slate slot, its latch source becomes the slate, and
the entry becomes free. -/
def lpuHoldToSlate (d : Nat) (s : State) : State :=
  match s.hold d with
  | none => s
  | some h =>
    h.reads.foldl (fun t r => lpuServe d r .slate t) ((holdFree d s).setLatch d (some ⟨h.slot, .decided .slate⟩))

/-- Every read that stands in the hold list is answered from the slate slot (R3, R24, R45). No rule orders the entries of
different destinations; the model takes them in the order of the hold list, the oldest hold first (DESIGN CHOICE, log
entry 17). -/
def lpuAllHoldsToSlate (s : State) : State :=
  (s.lpu.holds.map HoldEntry.dest).foldl (fun t d => lpuHoldToSlate d t) s

/-- R159: a slot completion report of feed `f` tests the hold entry of `d`. -/
def lpuHoldCompletion (d f : Nat) (s : State) : State :=
  match s.hold d with
  | none => s
  | some h => if h.feed = f && s.available f h.ringSlot then lpuEndHold h (.ring f h.ringSlot) s else s

/-- R160: feed `f` has become unusable: a hold of `d` on it ends as a freeze repeat. -/
def lpuHoldFreeze (d f : Nat) (s : State) : State :=
  match s.hold d with
  | none => s
  | some h =>
    if h.feed = f then
      let y := ruFreezeRepeat d f h.ringSlot s
      lpuEndHold h y.2 y.1
    else s

/-- The oscillator runs on by `us` µs for every entry of the hold list (R158). -/
def holdsAge (us : Nat) (s : State) : State :=
  s.withLpu { s.lpu with holds := s.lpu.holds.map (fun h => { h with elapsed := h.elapsed + us }) }

/-- R159: the hold of `d` has expired: its start is decided as a repeat slip. -/
def lpuHoldExpire (d : Nat) (s : State) : State :=
  match s.hold d with
  | none => s
  | some h =>
    let y := ruRepeatSlip d h.slot h.feed h.ringSlot 0 s
    lpuEndHold h y.2 y.1

end Sys2Proof.Machine
end

