-- ==== Sys2Proof/Machine/Feeds.lean ====
section
/-! DEFINITION. The Feed Monitor: header writes, partial first writes and completions (R65 to R71), the header and sequence
checks (R72 to R75), the error score (R76), picture starts and the test signal (R77, R78), health (R80 to R86, R149), and the
feed commands (R87 to R89). -/

namespace Sys2Proof.Machine

/-! ### Reports of health -/

/-- R149: a health report of feed `f` at destination `d`; `was` and `is` say whether the feed was and is usable. -/
def ruHealthReport (f : Nat) (was is : Bool) (d : Nat) (s : State) : State :=
  if (s.route d).isNone then s
  else
    let s1 := ruHealthTake d f was is s
    let s2 := if was && !is then lpuHoldFreeze d f s1 else s1
    let current := (s2.route d).any (fun r => r.source == .feed f)
    let s3 := if current then ruHealthCurrent d f was is s2 else s2
    ruRevertCheck d (ruHealthTests d f was is current s3)

/-- R86: a change of health of `f` from `old` to `new` is reported to the RU and to the DM. R149 gives no order between the
destinations that take one report; the model takes them in ascending order, which orders their events and the held reads they
set free (DESIGN CHOICE, log entry 26). -/
def healthReport (f : Nat) (old new : Health) (s : State) : State :=
  dmReclassFeed f (forAll 48 (ruHealthReport f old.usable new.usable) s)

/-- R86: feed `f` enters health state `new` with the record `x`, and the HEALTH event is raised. -/
def fmEnter (f : Nat) (new : Health) (x : FeedRecord) (s : State) : State :=
  match s.feedRec f with
  | none => s
  | some r =>
    raise .feed 1 f [r.health.num, new.num, x.score, x.attempts] (s.setFeedRec f (some { x with health := new }))

/-- A change of health that is reported at once. -/
def fmChange (f : Nat) (new : Health) (x : FeedRecord) (s : State) : State :=
  match s.feedRec f with
  | none => s
  | some r => healthReport f r.health new (fmEnter f new x s)

/-! ### The record -/

/-- R74: on entry to ABSENT or LOST the sequence becomes unknown. -/
def FeedRecord.forget (r : FeedRecord) : FeedRecord := { r with seqKnown := false }

/-- R80: on entry to QUALIFYING from ABSENT or LOST. -/
def FeedRecord.startAfresh (r : FeedRecord) : FeedRecord := { r with complete := 0, pictureStarts := [], cleanRun := 0 }

/-- R68: slot `w` is overwritten, ring depth `n`. -/
def FeedRecord.overwrite (n w : Nat) (r : FeedRecord) : FeedRecord :=
  let dw := modSub n r.lastSlot w
  if 1 ≤ r.complete && dw < r.complete then
    { r with complete := dw, pictureStarts := r.pictureStarts.filter (fun p => modSub n r.lastSlot p < dw) }
  else r

/-- R70: K after a completion at slot `w`. -/
def FeedRecord.completeAfter (n w : Nat) (r : FeedRecord) : Nat :=
  if r.complete = 0 then 1 else if w = (r.lastSlot + 1) % n then min n (r.complete + 1) else 1

/-- R69, step 3: the open unit at slot `w` is closed and the slot becomes complete. -/
def FeedRecord.completeSlot (n w : Nat) (r : FeedRecord) : FeedRecord :=
  { r with
    openUnit := none, complete := r.completeAfter n w, lastSlot := w,
    counters := { r.counters with completions := satAdd max32 r.counters.completions 1 } }

/-- R77: the push of slot c, then the prune. -/
def FeedRecord.listPictureStart (n : Nat) (push : Bool) (r : FeedRecord) : FeedRecord :=
  let pushed := if push then (r.lastSlot :: r.pictureStarts.filter (· != r.lastSlot)).take 8 else r.pictureStarts
  { r with
    pictureStarts := pushed.filter (fun p =>
      modSub n r.lastSlot p ≤ n / 2 && modSub n r.lastSlot p < r.complete) }

/-- R69, step 6: the score and the consecutive clean count at a completion. -/
def FeedRecord.countClean (clean : Bool) (r : FeedRecord) : FeedRecord :=
  if clean then { r with score := r.score - 1, cleanRun := satAdd 255 r.cleanRun 1 } else { r with cleanRun := 0 }

/-! ### Header and sequence checks -/

/-- Table 4-4 for a known sequence: the class, the score it adds, and whether the sequence resyncs. `delta` is Δ. -/
def sequenceClass (discontinuity : Bool) (delta seq last : Nat) : HeaderResult × Nat × Bool :=
  if discontinuity then (.resync, 0, true)
  else if delta = 0 then (.inOrder, 0, true)
  else if delta ≤ 1023 then (.gap, min delta 16, true)
  else if 65472 ≤ delta then (if seq = last then (.duplicate, 1, false) else (.late, 2, false))
  else (.jump, 16, true)

/-- The counters of Table 4-2 that a header result increases. -/
def UnitCounters.count (x : HeaderResult) (delta : Nat) (c : UnitCounters) : UnitCounters :=
  match x with
  | .inOrder => { c with inOrder := satAdd max32 c.inOrder 1 }
  | .gap => { c with gaps := satAdd max32 c.gaps 1, missing := satAdd max32 c.missing delta }
  | .duplicate => { c with duplicates := satAdd max32 c.duplicates 1 }
  | .late => { c with late := satAdd max32 c.late 1 }
  | .jump => { c with jumps := satAdd max32 c.jumps 1 }
  | .resync => { c with resyncs := satAdd max32 c.resyncs 1 }
  | .first => c
  | .malformed => { c with malformed := satAdd max32 c.malformed 1 }
  | .misrouted => { c with misrouted := satAdd max32 c.misrouted 1 }

/-- Resync (Table 4-4): the last sequence becomes `seq` and the expected one its successor. -/
def FeedRecord.resync (seq : Nat) (r : FeedRecord) : FeedRecord :=
  { r with seqKnown := true, lastSeq := seq, expectedSeq := (seq + 1) % 65536 }

/-- R72 to R74: the checks of a header of feed `f`: the record after, what the header gave its unit, and the score added. -/
def checkHeader (f : Nat) (bytes : List Byte) (r : FeedRecord) : FeedRecord × UnitHead × Nat :=
  let counted := fun x delta => { r with counters := r.counters.count x delta }
  if headerMarker bytes != 0x4B6A then (counted .malformed 0, ⟨.malformed, false, false⟩, 8)
  else if headerFeedTag bytes != f then (counted .misrouted 0, ⟨.misrouted, false, false⟩, 16)
  else
    let flags := headerFlags bytes
    let seq := headerSequence bytes
    let head := fun x => (⟨x, headerPictureStart flags, headerTestSignal flags⟩ : UnitHead)
    if !r.seqKnown then (r.resync seq, head .first, 0)
    else
      let delta := modSub 65536 seq r.expectedSeq
      let x := sequenceClass (headerDiscontinuity flags) delta seq r.lastSeq
      let r1 := counted x.1 delta
      (if x.2.2 then r1.resync seq else r1, head x.1, x.2.1)

/-! ### The error score -/

/-- R83: the threshold tests of a feed in HEALTHY or DEGRADED; the changes made, in order. -/
def fmThresholds (f : Nat) (s : State) : State × List (Health × Health) :=
  match s.feedRec f with
  | none => (s, [])
  | some r =>
    let p := s.feedParams f
    let failed : FeedRecord := { r with attempts := satAdd 15 r.attempts 1, stateTimer := 0 }
    match r.health with
    | .healthy =>
      if p.degradeThreshold ≤ r.score then
        let s1 := fmEnter f .degraded r s
        if p.failThreshold ≤ r.score then (fmEnter f .failed failed s1, [(.healthy, .degraded), (.degraded, .failed)])
        else (s1, [(.healthy, .degraded)])
      else (s, [])
    | .degraded =>
      if p.failThreshold ≤ r.score then (fmEnter f .failed failed s, [(.degraded, .failed)])
      else if r.score ≤ p.recoverThreshold then (fmEnter f .healthy r s, [(.degraded, .healthy)])
      else (s, [])
    | _ => (s, [])

/-- The RU and DM are told of changes of health of `f`, in the order made (R86). -/
def fmReport (f : Nat) (changes : List (Health × Health)) (s : State) : State :=
  changes.foldl (fun t c => healthReport f c.1 c.2 t) s

/-- R76, R81, R83: a scored error of `n` for feed `f`: the score, the health state after it, and the reports. -/
def fmScored (f n : Nat) (s : State) : State :=
  match s.feedRec f with
  | none => s
  | some r =>
    let r1 : FeedRecord := { r with score := satAdd 1023 r.score n }
    match r.health with
    | .qualifying =>
      let r2 : FeedRecord := { r1 with attempts := satAdd 15 r.attempts 1 }
      if (s.feedParams f).attemptLimit ≤ r2.attempts then fmChange f .barred r2 s
      else fmChange f .retryWait { r2 with stateTimer := 0 } s
    | _ =>
      let y := fmThresholds f (s.setFeedRec f (some r1))
      fmReport f y.2 y.1

/-! ### Reports of the LPU -/

/-- R66, step 1: an open unit is torn. -/
def fmTear (f : Nat) (s : State) : State :=
  match s.feedRec f with
  | none => s
  | some r =>
    if r.openUnit.isSome then
      fmScored f 8 (s.setFeedRec f (some
        { r with
          openUnit := none,
          counters := { r.counters with
            malformed := satAdd max32 r.counters.malformed 1, torn := satAdd max32 r.counters.torn 1 } }))
    else s

/-- R66: a header write for slot `w` of feed `f`. -/
def fmHeaderWrite (f w : Nat) (bytes : List Byte) (s : State) : State :=
  let s1 := modFeed f (FeedRecord.overwrite s.ringDepth w) (fmTear f s)
  match s1.feedRec f with
  | none => s1
  | some r =>
    let y := checkHeader f bytes r
    let s2 := s1.setFeedRec f (some y.1)
    let s3 := if 0 < y.2.2 then fmScored f y.2.2 s2 else s2
    modFeed f (fun x => { x with openUnit := some ⟨w, some y.2.1⟩ }) s3

/-- R67: a partial first write for slot `w` of feed `f`. -/
def fmPartialWrite (f w : Nat) (s : State) : State :=
  modFeed f (fun x => { x with openUnit := some ⟨w, none⟩ })
    (modFeed f (FeedRecord.overwrite s.ringDepth w) (fmTear f s))

/-- R71: a completion of slot `w` that finds no headed open unit there. In ABSENT and LOST the slot is not overwritten: R71
lists no overwrite there, though the last sentence of R68 makes no exception (DESIGN CHOICE, log entry 19). The consecutive
clean count stays as it is: R71 lists no change of it, though R75 calls a headerless unit not clean and makes the count 0 at
the completion of such a unit (DESIGN CHOICE, log entry 25). -/
def fmHeaderlessCompletion (f w : Nat) (s : State) : State :=
  let close := fun (x : FeedRecord) =>
    if x.openUnit.any (fun u => u.slot == w && u.head.isNone) then { x with openUnit := none } else x
  match s.feedRec f with
  | none => s
  | some r =>
    let s1 := s.setFeedRec f (some { r with silence := 0 })
    if r.health == .absent || r.health == .lost then modFeed f close s1
    else
      let s2 := modFeed f (fun x =>
        { x with counters := { x.counters with malformed := satAdd max32 x.counters.malformed 1 } }) (fmScored f 8 s1)
      modFeed f (fun x => close (x.overwrite s.ringDepth w)) s2

/-- R69, step 5, and R78: the test-signal indication takes the unit's flag; a change raises TEST_SIGNAL. -/
def fmTestSignal (f : Nat) (x : Bool) (s : State) : State :=
  match s.feedRec f with
  | none => s
  | some r =>
    if r.testSignal = x then s
    else
      dmReclassFeed f (raise .feed 2 f [flag x, r.lastSlot, r.health.num, r.score]
        (s.setFeedRec f (some { r with testSignal := x })))

/-- R69, step 7: the evaluation after a completion. In QUALIFYING a clean completion compares the consecutive clean count with
Nq (R81); in HEALTHY and DEGRADED the thresholds are tested where the score was changed (R83). -/
def fmEvaluate (f : Nat) (clean : Bool) (s : State) : State × List (Health × Health) :=
  match s.feedRec f with
  | none => (s, [])
  | some r =>
    if !clean then (s, [])
    else if r.health == .qualifying then
      if (s.feedParams f).qualLength ≤ r.cleanRun then
        (fmEnter f .healthy { r with score := 0, attempts := 0 } s, [(.qualifying, .healthy)])
      else (s, [])
    else fmThresholds f s

/-- The slot completion report of feed `f` reaches the take and the hold entry of `d` (R132, R134, R159). -/
def ruSlotCompletion (f d : Nat) (s : State) : State := lpuHoldCompletion d f (ruCompletion d f s)

/-- R69: a completion of slot `w`, where feed `f` has an open unit with head `head`; the RU takes the health reports and the
slot completion report with the record as it stands after all seven steps. -/
def fmUnitCompletion (f w : Nat) (head : UnitHead) (r : FeedRecord) (s : State) : State :=
  let n := s.ringDepth
  let s1 := s.setFeedRec f (some { r with silence := 0 })
  let awake := r.health == .absent || r.health == .lost
  let s2 := if awake then fmEnter f .qualifying ({ r with silence := 0 }).startAfresh s1 else s1
  let clean := head.result == .inOrder
  let push := head.pictureStart && (head.result == .inOrder || head.result == .gap)
  let s3 := modFeed f (fun x => (x.completeSlot n w).listPictureStart n push) s2
  let s4 := modFeed f (FeedRecord.countClean clean) (fmTestSignal f head.testSignal s3)
  let y := fmEvaluate f clean s4
  let changes := (if awake then [(r.health, .qualifying)] else []) ++ y.2
  forAll 48 (ruSlotCompletion f) (fmReport f changes y.1)

/-- A completion report for slot `w` of feed `f` (R69, R71). -/
def fmCompletion (f w : Nat) (s : State) : State :=
  match s.feedRec f with
  | none => s
  | some r =>
    match r.openUnit with
    | some ⟨k, some head⟩ => if k = w then fmUnitCompletion f w head r s else fmHeaderlessCompletion f w s
    | _ => fmHeaderlessCompletion f w s

/-! ### Intervals -/

/-- R82: the state timer of RETRY_WAIT or FAILED at the retry interval. -/
def fmRetryTest (f : Nat) (s : State) : State :=
  match s.feedRec f with
  | none => s
  | some r =>
    let p := s.feedParams f
    if p.retryInterval ≤ r.stateTimer then
      match r.health with
      | .retryWait => fmChange f .qualifying { r with cleanRun := 0 } s
      | .failed =>
        if p.attemptLimit ≤ r.attempts then fmChange f .barred r s
        else fmChange f .qualifying { r with cleanRun := 0 } s
      | _ => s
    else s

/-- R84: the silence count at the loss timeout. -/
def fmLossTest (f : Nat) (s : State) : State :=
  match s.feedRec f with
  | none => s
  | some r =>
    if (s.feedParams f).lossTimeout ≤ r.silence then
      match r.health with
      | .healthy => fmChange f .lost r.forget s
      | .degraded => fmChange f .lost r.forget s
      | .qualifying => fmChange f .absent r.forget s
      | .retryWait => fmChange f .absent r.forget s
      | _ => s
    else s

/-- R85: the silence count of a BARRED feed at a bar release time that is not 0. -/
def fmBarTest (f : Nat) (s : State) : State :=
  match s.feedRec f with
  | none => s
  | some r =>
    let p := s.feedParams f
    if r.health == .barred && p.barRelease != 0 && p.barRelease ≤ r.silence then
      fmChange f .absent { r.forget with attempts := 0 } s
    else s

/-- R82, R84: at a local millisecond the silence count and, in RETRY_WAIT and FAILED, the state timer advance. -/
def FeedRecord.tick (r : FeedRecord) : FeedRecord :=
  { r with
    silence := satAdd max32 r.silence 1,
    stateTimer := if r.health == .retryWait || r.health == .failed then satAdd max32 r.stateTimer 1 else r.stateTimer }

/-- R84: the feed, which stood in `old` before the test of the state timer, has entered QUALIFYING from FAILED after a silence
already longer than the loss timeout. -/
def FeedRecord.lateRetry (p : FeedParams) (old : Health) (r : FeedRecord) : Bool :=
  old == .failed && r.health == .qualifying && p.lossTimeout < r.silence

/-- R82: the counts first, then the test of the state timer, then the silence tests in the state that results. Only the feed
that R84 names, one that enters QUALIFYING from FAILED after a silence already longer than the loss timeout, has its silence
test at the next local millisecond; one whose silence reaches the timeout at this very millisecond enters ABSENT here (DESIGN
CHOICE between R82 and R84, log entry 16). A feed that enters BARRED from FAILED here has its bar release time tested in the
same millisecond, of which R82 and R85 say nothing (DESIGN CHOICE, log entry 20). -/
def fmMillisecond (f : Nat) (s : State) : State :=
  match s.feedRec f with
  | none => s
  | some r =>
    let s1 := fmRetryTest f (modFeed f FeedRecord.tick s)
    if (s1.feedRec f).any (FeedRecord.lateRetry (s.feedParams f) r.health) then s1 else fmBarTest f (fmLossTest f s1)

/-! ### Feed commands (Section 4.8) -/

/-- R87: the values of Set Feed Parameters brought within Table 4-3. -/
def feedParamsOf (p : Nat → Nat) : FeedParams :=
  { qualLength := clamp 1 255 (p 1), attemptLimit := clamp 1 15 (p 2), retryInterval := clamp 100 60000 (p 3),
    lossTimeout := clamp 10 5000 (p 4), barRelease := clamp 0 600000 (p 5), degradeThreshold := clamp 0 1023 (p 6),
    recoverThreshold := clamp 0 1023 (p 7), failThreshold := clamp 0 1023 (p 8) }

/-- R87. -/
def fmSetParamsCommand (p : Nat → Nat) (s : State) : State × Reply :=
  let x := feedParamsOf p
  if 63 < p 0 && p 0 != 255 then (s, .refuse .range)
  else if x.degradeThreshold ≤ x.recoverThreshold || x.failThreshold ≤ x.degradeThreshold then (s, .refuse .range)
  else
    let clamped := x.qualLength != p 1 || x.attemptLimit != p 2 || x.retryInterval != p 3 || x.lossTimeout != p 4 ||
      x.barRelease != p 5 || x.degradeThreshold != p 6 || x.recoverThreshold != p 7 || x.failThreshold != p 8
    (if p 0 = 255 then forAll 64 (fun f => State.setFeedParams f x) s else s.setFeedParams (p 0) x,
      .carried clamped x.failThreshold
        [x.qualLength, x.attemptLimit, x.retryInterval, x.lossTimeout, x.barRelease, x.degradeThreshold])

def execSetFeedParameters (s : State) : Out := .next (runCommand 0x0401 fmSetParamsCommand s)

/-- R88, Table 4-2: the counters that Clear Feed clears. -/
def UnitCounters.cleared (c : UnitCounters) : UnitCounters :=
  { UnitCounters.zero with completions := c.completions, inOrder := c.inOrder }

/-- R88. -/
def fmClearCommand (p : Nat → Nat) (s : State) : State × Reply :=
  if s.lpu.mode != .run then (s, .refuse .wrongMode)
  else if 63 < p 0 then (s, .refuse .range)
  else
    match s.feedRec (p 0) with
    | none => (s, .refuse .wrongState)
    | some r =>
      let r1 : FeedRecord := { r with counters := r.counters.cleared }
      let s1 := (s.setFeedRec (p 0) (some r1)).setForeignWrites (p 0) 0
      let s2 := if r.health == .barred then fmChange (p 0) .absent { r1.forget with attempts := 0 } s1 else s1
      let after := ((s2.feedRec (p 0)).map (fun x => x.health.num)).getD 0
      (s2, { code := .done, detail := after, words := [r.health.num] })

def execClearFeed (s : State) : Out := .next (runCommand 0x0402 fmClearCommand s)

/-- Two entries of a list of 16-bit values in a word, the earlier in the lower half, `gap` where there is none. -/
def pairWord (gap : Nat) (xs : List Nat) (i : Nat) : Nat := pack 16 (xs.getD (i + 1) gap) (xs.getD i gap)

/-- Table 4-10, parts 0 to 3. -/
def feedRecordReply (s : State) (f part : Nat) (r : FeedRecord) : Reply :=
  let c := r.counters
  match part with
  | 0 => { code := .done, detail := pack 8 (flag r.testSignal) r.health.num,
           words := [r.score, if r.complete = 0 then 0 else r.lastSlot, r.complete, r.attempts, r.cleanRun,
                     if r.seqKnown then r.expectedSeq else 65536] }
  | 1 => { code := .done, detail := 0,
           words := [c.completions, c.inOrder, c.gaps, c.missing, c.duplicates, c.late] }
  | 2 => { code := .done, detail := min 65535 r.silence,
           words := [c.jumps, c.resyncs, c.malformed, c.misrouted, c.torn, s.foreignWrites f] }
  | _ => { code := .done, detail := r.pictureStarts.length,
           words := [pairWord 0 r.pictureStarts 0, pairWord 0 r.pictureStarts 2, pairWord 0 r.pictureStarts 4,
                     pairWord 0 r.pictureStarts 6, (r.openUnit.map OpenUnit.slot).getD 65536, r.stateTimer] }

/-- R89. -/
def fmReportCommand (p : Nat → Nat) (s : State) : State × Reply :=
  if 63 < p 0 || 5 < p 1 then (s, .refuse .range)
  else
    let x := s.feedParams (p 0)
    if p 1 = 4 then
      (s, { code := .done, detail := 0,
            words := [x.qualLength, x.attemptLimit, x.retryInterval, x.lossTimeout, x.barRelease, x.degradeThreshold] })
    else if p 1 = 5 then (s, { code := .done, detail := 0, words := [x.recoverThreshold, x.failThreshold] })
    else
      match s.feedRec (p 0) with
      | none => (s, .refuse .wrongState)
      | some r => (s, feedRecordReply s (p 0) (p 1) r)

def execReportFeed (s : State) : Out := .next (runCommand 0x0403 fmReportCommand s)

/-! ### Enter Run -/

/-- Table 4-1, the column At Enter Run. -/
def FeedRecord.atEnterRun : FeedRecord :=
  { health := .absent, openUnit := none, seqKnown := false, expectedSeq := 0, lastSeq := 0, lastSlot := 0, complete := 0,
    pictureStarts := [], testSignal := false, score := 0, cleanRun := 0, attempts := 0, silence := 0, stateTimer := 0,
    counters := .zero }

end Sys2Proof.Machine
end

