-- ==== Sys2Proof/Machine/Metering.lean ====
section
/-! DEFINITION. The Meter Unit: accrual (R173), the charge in six steps (R179 to R183), the final and provisional charge
(R184, R185), the billing records it produces (R186 to R189), and Load Tariff (R177, R178). -/

namespace Sys2Proof.Machine

/-! ### Meters -/

/-- Table 9-2: the meter that one local millisecond adds to, by the state and the delivery condition. -/
def Meters.accrue (st : BookingState) (c : Condition) (m : Meters) : Meters :=
  match st with
  | .preroll => { m with p := satAdd max32 m.p 1 }
  | .live =>
    match c with
    | .clean => { m with c := satAdd max32 m.c 1 }
    | .degraded => { m with d := satAdd max32 m.d 1 }
    | .outage => { m with u := satAdd max32 m.u 1 }
    | .none => m
  | .overrun =>
    match c with
    | .clean => { m with oc := satAdd max32 m.oc 1 }
    | .degraded => { m with od := satAdd max32 m.od 1 }
    | .outage => { m with ou := satAdd max32 m.ou 1 }
    | .none => m
  | .suspended => { m with su := satAdd max32 m.su 1 }
  | _ => m

/-- R173: one local millisecond accrued to entry `e`. -/
def muAccrue (e : Nat) (s : State) : State :=
  modEntry e (fun x => { x with meters := x.meters.accrue x.state (s.delivery x.desc.dest).condition }) s

/-- C + D + U. -/
def Meters.window (m : Meters) : Nat := m.c + m.d + m.u

/-- OC + OD + OU. -/
def Meters.over (m : Meters) : Nat := m.oc + m.od + m.ou

/-- The delivered time C + D + OC + OD (R180). -/
def Meters.delivered (m : Meters) : Nat := m.c + m.d + m.oc + m.od

/-! ### The charge (Section 9.3) -/

/-- What the charge computation yields: S′, the charge, and the two flags. -/
structure Charge where
  seconds    : Nat
  charge     : Nat
  minApplied : Bool
  capApplied : Bool
  deriving DecidableEq, Repr

/-- No charge: a delivered time of 0 (R180), or a CANCEL record (R184). -/
def Charge.nothing : Charge := { seconds := 0, charge := 0, minApplied := false, capApplied := false }

/-- R179: the weighted time T32. -/
def weightedTime (t : Tariff) (m : Meters) : Nat := 8 * (4 * m.c + t.weight * m.d) + t.overrun * (4 * m.oc + t.weight * m.od)

/-- R180: the billable seconds S before the minimum. -/
def billableSeconds (t : Tariff) (m : Meters) : Nat := ceilDiv (weightedTime t m) 32000

/-- R181: S after the step of the minimum, which is made for a final CLOSE record only. -/
def afterMinimum (final : Bool) (t : Tariff) (x : Nat) : Nat := if final && x < t.minimum then t.minimum else x

/-- R182: S′. -/
def roundedSeconds (t : Tariff) (x : Nat) : Nat := t.quantum * ceilDiv x t.quantum

/-- R183, the fifth step. -/
def usage (t : Tariff) (rounded : Nat) : Nat := ceilDiv (rounded * t.rate) 60

/-- R183, the sixth step: the total, and whether the cap acts on it. -/
def capApplies (t : Tariff) (total : Nat) : Bool := t.cap != 0 && t.cap < total

/-- The six steps of Section 9.3; `final` says that the step of the minimum is made. -/
def chargeOf (final : Bool) (t : Tariff) (m : Meters) : Charge :=
  if m.delivered = 0 then .nothing
  else
    let x := billableSeconds t m
    let rounded := roundedSeconds t (afterMinimum final t x)
    let total := t.fee + usage t rounded
    { seconds := rounded, charge := if capApplies t total then t.cap else total,
      minApplied := final && x < t.minimum, capApplied := capApplies t total }

/-- The charge of entry `x` by its own tariff. A validated booking names a loaded tariff (R176), so the other case does not
arise for one. -/
def muCharge (final : Bool) (s : State) (x : Entry) : Charge :=
  match s.tariff x.desc.tariff with
  | none => .nothing
  | some t => chargeOf final t x.meters

/-! ### Records (R186 to R189) -/

/-- A billing record of entry `x` with kind, reason and charge, taken from the state as it stands (R188, R189). -/
def muRecord (kind : BillKind) (reason : CloseReason) (c : Charge) (s : State) (x : Entry) : BillRecord :=
  { kind := kind, reason := reason, minApplied := c.minApplied, capApplied := c.capApplied, rough := x.rough,
    timeStepped := x.timeStepped, notLocked := s.tb.refState != .locked, failovers := x.failovers, ref := x.desc.ref,
    account := x.desc.account, dest := x.desc.dest, tariff := x.desc.tariff, liveNT := x.liveNT, closeNT := s.tb.seconds,
    meters := x.meters, seconds := c.seconds, charge := c.charge, takes := x.takes, slips := x.slips }

/-- R184, R186: the final record: CLOSE with the full charge where the has-been-live flag is set, else CANCEL with none. -/
def muFinal (s : State) (x : Entry) : BillRecord :=
  if x.hasLive then muRecord .close x.reason (muCharge true s x) s x
  else muRecord .cancel x.reason .nothing s x

/-- R185: the CHECKPOINT record, with the provisional charge. -/
def muCheckpoint (s : State) (x : Entry) : BillRecord := muRecord .checkpoint .none (muCharge false s x) s x

/-! ### Load Tariff -/

/-- R177, check 4: the entries in SCHEDULED to CLOSING that name tariff `i`, ascending. -/
def tariffUsers (s : State) (i : Nat) : List Nat :=
  (List.range 128).filter (fun e =>
    ((s.entry e).state.isOpen || (s.entry e).state == .closing) && (s.entry e).desc.tariff == i)

/-- R177, R178. -/
def muLoadCommand (p : Nat → Nat) (s : State) : State × Reply :=
  if 15 < p 0 || !([0, 1, 2, 4].contains (p 2)) || !([1, 6, 15, 30, 60].contains (p 4)) then (s, .refuse .range)
  else
    match tariffUsers s (p 0) with
    | e :: es => (s, { code := .wrongState, detail := 0, words := [e, es.length + 1] })
    | [] =>
      let t : Tariff :=
        { rate := clamp 0 65535 (p 1), weight := p 2, overrun := clamp 8 32 (p 3), quantum := p 4,
          minimum := clamp 0 7200 (p 5), fee := clamp 0 65535 (p 6), cap := p 7 }
      (s.setTariff (p 0) (some t),
        .carried (t.rate != p 1 || t.overrun != p 3 || t.minimum != p 5 || t.fee != p 6) (p 0)
          [t.rate, t.weight, t.overrun, t.quantum, t.minimum, t.fee])

def execLoadTariff (s : State) : Out := .next (runCommand 0x0901 muLoadCommand s)

end Sys2Proof.Machine
end

