-- ==== Sys2Proof/Machine/Grants.lean ====
section
/-! DEFINITION. The Grant Arbiter: the grant queue (R116), requests and preemption (R117, R118), release, grant and withdrawal
(R120 to R122), the holder change notice (R123, R124, R129), the moves of entries that its decisions make (R101), and Report
Destination (R127). -/

namespace Sys2Proof.Machine

/-! ### Moves of an entry -/

/-- R94: a BOOKING event of kind STATE of entry `e`. -/
def btStateEvent (e ref : Nat) (old new : BookingState) (word3 : Nat) (s : State) : State :=
  raise .booking 1 e [ref, old.num, new.num, word3] s

/-- R101: entry `x` enters `st`; at its first entry to LIVE the flag is set and LIVE entry NT becomes NT seconds. -/
def Entry.enter (st : BookingState) (nt : Nat) (x : Entry) : Entry :=
  if st = .live && !x.hasLive then { x with state := st, resume := none, hasLive := true, liveNT := nt }
  else { x with state := st, resume := none }

/-- R101, R121: the state a grant gives an entry. -/
def grantedState (nt : Nat) (x : Entry) : BookingState :=
  let early := x.fired < 2 && nt < x.effStart
  match x.state, x.resume with
  | .suspended, some .preroll => if early then .preroll else .live
  | .suspended, some st => st
  | _, _ => if early then .preroll else .live

/-- R101: the BT applies a grant to entry `e`. -/
def btGranted (e : Nat) (s : State) : State :=
  let x := s.entry e
  let st := grantedState s.tb.seconds x
  btStateEvent e x.desc.ref x.state st 0 (s.setEntry e (x.enter st s.tb.seconds))

/-- R101: the request of entry `e` is queued. -/
def btQueued (e : Nat) (s : State) : State :=
  let x := s.entry e
  btStateEvent e x.desc.ref x.state .waiting 0 (s.setEntry e { x with state := .waiting })

/-- R101: entry `e` is suspended by preemption; its resume state is the state it left. -/
def btSuspended (e : Nat) (s : State) : State :=
  let x := s.entry e
  btStateEvent e x.desc.ref x.state .suspended x.state.num
    (s.setEntry e { x with state := .suspended, resume := some x.state })

/-! ### The grant queue -/

/-- R116: entry `a` stands ahead of entry `b`: higher priority, or equal priority and a lower request number. -/
def gaAhead (s : State) (a b : Nat) : Bool :=
  (s.entry b).desc.priority < (s.entry a).desc.priority ||
    ((s.entry a).desc.priority == (s.entry b).desc.priority && (s.entry a).requestNo < (s.entry b).requestNo)

/-- R116: entry `e` joins a queue at the place its priority and request number give. -/
def gaInsert (s : State) (e : Nat) : List Nat → List Nat
  | [] => [e]
  | h :: t => if gaAhead s e h then e :: h :: t else h :: gaInsert s e t

/-- Entry `e` joins the grant queue of `d`. -/
def gaJoin (d e : Nat) (s : State) : State := s.setGrantQueue d (gaInsert s e (s.grantQueue d))

/-- Queue positions count from 1 at the head (R125). -/
def gaPosition (s : State) (d e : Nat) : Nat := (s.grantQueue d).idxOf e + 1

/-! ### The holder change notice -/

/-- R123, step 1: the pending take of `d` is cancelled, with a CANCELLED event. -/
def ruCancelTake (d : Nat) (newHolder : Option Nat) (s : State) : State :=
  match (s.route d).bind Route.take with
  | none => s
  | some t =>
    raise .take 4 d [t.target, t.reason.num, t.state.num, newHolder.getD 255]
      (modRoute d (fun r => { r with take := none }) s)

/-- R123, step 2, and R129: a change to slate is placed and the route record is set for the new holder. -/
def ruNewHolder (d : Nat) (s : State) : State :=
  modRoute d (fun r =>
    { r with change := some .toSlate, wanted := none, failoverSince := false, revert := 0, freeze := none }) s

/-- R123: the notice of a change of holder of `d`, made after the holder has been changed. A hold of `d` is answered from the
slate (R124), the RU does its three acts, and the DM clears the impairment hold (R164) and reclasses. -/
def gaNotice (d : Nat) (newHolder : Option Nat) (reason : TakeReason) (s : State) : State :=
  let s1 := ruNewHolder d (ruCancelTake d newHolder (lpuHoldToSlate d s))
  let s2 :=
    match newHolder with
    | none => s1
    | some e => ruRequestTake d (s1.entry e).selected reason s1
  dmClearImpairment d s2

/-- The reason of the take for a new holder: RESUME from SUSPENDED, START otherwise (R123). -/
def noticeReason (x : Entry) : TakeReason := if x.state = .suspended then .resume else .start

/-! ### Requests, releases and withdrawals -/

/-- R118: the preemption test of requester `b` against holder `a`. -/
def preempts (b a : Descriptor) : Bool := a.priority < b.priority && b.mayPreempt && a.preemptible

/-- R117, R118: a request of entry `b` for its destination. -/
def gaRequest (b : Nat) (s : State) : State :=
  let x := s.entry b
  let d := x.desc.dest
  match s.holder d with
  | none =>
    let s1 := btGranted b (s.setHolder d (some b))
    gaNotice d (some b) (noticeReason x)
      (raise .grant 1 d [b, 255, x.desc.ref, (s1.grantQueue d).length] s1)
  | some a =>
    if preempts x.desc (s.entry a).desc then
      let s1 := btSuspended a (gaJoin d a s)
      let s2 := btGranted b (s1.setHolder d (some b))
      gaNotice d (some b) (noticeReason x) (raise .grant 3 d [b, a, x.desc.ref, gaPosition s2 d a] s2)
    else
      let s1 := btQueued b (gaJoin d b s)
      raise .grant 2 d [a, b, x.desc.ref, gaPosition s1 d b] s1

/-- R120, R121: the holder `a` of `d` is released. In RUN the head of the queue becomes the holder; in RESTARTING, and with an
empty queue, none does. -/
def gaRelease (d a : Nat) (s : State) : State :=
  match s.lpu.mode, s.grantQueue d with
  | .run, h :: rest =>
    let x := s.entry h
    let s1 := btGranted h ((s.setGrantQueue d rest).setHolder d (some h))
    gaNotice d (some h) (noticeReason x) (raise .grant 4 d [h, a, x.desc.ref, rest.length] s1)
  | _, q =>
    gaNotice d none .start (raise .grant 5 d [255, a, (s.entry a).desc.ref, q.length] (s.setHolder d none))

/-- R122: entry `e` is withdrawn from the grant queue of its destination. -/
def gaWithdraw (e : Nat) (s : State) : State :=
  s.setGrantQueue (s.entry e).desc.dest ((s.grantQueue (s.entry e).desc.dest).filter (· != e))

/-! ### Report Destination -/

/-- Table 6-4, part 0: the grant state of `d`. -/
def grantReply (s : State) (d : Nat) : Reply :=
  let h := s.holderEntry d
  let q := s.grantQueue d
  { code := .done, detail := pack 8 q.length ((s.holder d).getD 255),
    words := [(h.map (fun p => p.2.desc.ref)).getD 0, (h.map (fun p => p.2.state.num)).getD 0, pairWord 65535 q 0,
              pairWord 65535 q 2, pack 16 (s.delivery d).lagMax (s.delivery d).lag, (s.delivery d).condition.num] }

/-- Table 6-4, part 1: the route record of `d`. With no take pending word 4 reads 0, which the table does not state (DESIGN
CHOICE, log entry 21). -/
def routeReply (s : State) (d : Nat) (r : Route) : Reply :=
  { code := .done, detail := pack 8 ((r.take.map (fun t => t.state.num)).getD 0) r.source.num,
    words := [r.phase, (s.selectedFeed d).getD 255, r.wanted.getD 255, (r.take.map Take.target).getD 255,
              (r.take.map (fun t => pack 16 (flag t.rough) t.reason.num)).getD 0, (r.take.bind Take.slot).getD 65536] }

/-- Table 6-4, part 2: the delivery counters of `d`. -/
def deliveryReply (s : State) (d : Nat) : Reply :=
  let x := s.delivery d
  { code := .done, detail := 0,
    words := [x.repeatSlips, x.dropSlips, x.unitsSkipped, x.freezeRepeats, x.lagAdjustments, x.readErrors] }

/-- R127. -/
def gaReportCommand (p : Nat → Nat) (s : State) : State × Reply :=
  if 47 < p 0 || 2 < p 1 then (s, .refuse .range)
  else if p 1 = 0 then (s, grantReply s (p 0))
  else if p 1 = 2 then (s, deliveryReply s (p 0))
  else
    match s.route (p 0) with
    | none => (s, .refuse .wrongState)
    | some r => (s, routeReply s (p 0) r)

def execReportDestination (s : State) : Out := .next (runCommand 0x0601 gaReportCommand s)

end Sys2Proof.Machine
end

