-- ==== Sys2Proof/Machine/Billing.lean ====
section
/-! DEFINITION. The closing of bookings: the placement of final records (R190, R191) and CHECKPOINT records (R192), the
ring-ward moves (R193), the closing of an entry (R112) and the end of its life (R113, R195). -/

namespace Sys2Proof.Machine

/-! ### The fetch of a descriptor -/

/-- R95, R113: entry `e` enters FETCHING for the descriptor at `addr`, and the RW submits its 64-byte own read. -/
def btFetch (e addr : Nat) (origin : LoadOrigin) (s : State) : State :=
  rwRequest .descriptor .read addr 64 []
    (s.setEntry e
      { Entry.blank with state := .fetching, origin := origin, address := addr, fetchTag := some s.lpu.nextTag })

/-! ### The end of an entry -/

/-- R113, R195: entry `e`, whose final record has been placed, leaves CLOSING. The BOOKING event comes before the fetch of
the chain, which is followed in RUN alone. -/
def btLeaveClosing (e : Nat) (s : State) : State :=
  let x := s.entry e
  let s1 := btStateEvent e x.desc.ref .closing .empty 0 (s.setEntry e .blank)
  if x.desc.next != 0 && s1.lpu.mode == .run then btFetch e x.desc.next (.chain x.desc.ref) s1 else s1

/-- The entries that wait in CLOSING with their records, ascending. -/
def waitingEntries (s : State) : List Nat := (List.range 128).filter (fun e => (s.entry e).record.isSome)

/-! ### Placement -/

/-- A BILLING event (Table 10-3) of entry `e`. -/
def rwBillingEvent (kind e ref word1 word2 word3 : Nat) (s : State) : State :=
  raise .billing kind e [ref, word1, word2, word3] s

/-- R191: the RW places the final record `r` of entry `e`: in the ring, in the pending billing queue, or in its entry. -/
def rwPlaceFinal (e : Nat) (r : BillRecord) (s : State) : State :=
  if !s.ringFull .billing && s.rw.pendingBilling.isEmpty then
    btLeaveClosing e (rwAccept .billing r.bytes (modEntry e (fun x => { x with record := none }) s))
  else if s.rw.pendingBilling.length < 8 then
    let s1 := modEntry e (fun x => { x with record := none }) s
    let s2 := s1.withRw { s1.rw with pendingBilling := s1.rw.pendingBilling ++ [r] }
    btLeaveClosing e (rwBillingEvent 1 e r.ref r.kind.num s2.rw.pendingBilling.length r.reason.num s2)
  else
    let s1 := modEntry e (fun x => { x with record := some r }) s
    rwBillingEvent 2 e r.ref r.kind.num (waitingEntries s1).length r.reason.num s1

/-- R192: the RW places the CHECKPOINT record `r` of entry `e`, or discards it. -/
def rwPlaceCheckpoint (e : Nat) (r : BillRecord) (s : State) : State :=
  if !s.ringFull .billing && s.rw.pendingBilling.isEmpty then rwAccept .billing r.bytes s
  else if s.rw.pendingBilling.length < 8 then
    s.withRw { s.rw with pendingBilling := s.rw.pendingBilling ++ [r] }
  else
    let s1 := s.withRw { s.rw with checkpointsLost := satAdd max32 s.rw.checkpointsLost 1 }
    rwBillingEvent 3 e r.ref r.charge s1.rw.pendingBilling.length s1.rw.checkpointsLost s1

/-! ### Ring-ward moves -/

/-- R193, pass 1: records go from the head of the pending billing queue into the ring while it has room. -/
def rwPassQueue : Nat → State → State
  | 0, s => s
  | n + 1, s =>
    match s.rw.pendingBilling with
    | [] => s
    | r :: rest =>
      if s.ringFull .billing then s
      else rwPassQueue n (rwAccept .billing r.bytes (s.withRw { s.rw with pendingBilling := rest }))

/-- Of the waiting entries, one with the lowest close sequence number. -/
def firstWaiting (s : State) : List Nat → Option Nat
  | [] => none
  | e :: es =>
    match firstWaiting s es with
    | none => some e
    | some f => if (s.entry f).closeSeq.getD 0 < (s.entry e).closeSeq.getD 0 then some f else some e

/-- R193, pass 2: records go from their entries, in close sequence order, until the queue holds 8. -/
def rwPassEntries : Nat → State → State
  | 0, s => s
  | n + 1, s =>
    if 8 ≤ s.rw.pendingBilling.length then s
    else
      match firstWaiting s (waitingEntries s) with
      | none => s
      | some e =>
        match (s.entry e).record with
        | none => s
        | some r => rwPassEntries n (rwPlaceFinal e r s)

/-- R193: the moves of an accepted billing consumer write: a turn for each record of the queue, then one for each entry. -/
def rwRingward (s : State) : State := rwPassEntries 128 (rwPassQueue s.rw.pendingBilling.length s)

/-! ### Closing -/

/-- R112, step 2: entry `e`, which stood in `old`, leaves the GA. -/
def btLeaveGa (e : Nat) (old : BookingState) (s : State) : State :=
  if old.holds then gaRelease (s.entry e).desc.dest e s
  else if old == .waiting || old == .suspended then gaWithdraw e s
  else s

/-- R112: entry `e` enters CLOSING with `reason`. -/
def btClose (e : Nat) (reason : CloseReason) (s : State) : State :=
  let old := (s.entry e).state
  let count := satAdd max64 s.bt.closeCount 1
  let s1 := modEntry e (fun x => { x with state := .closing, reason := reason, closeSeq := some count })
    (s.withBt { s.bt with closeCount := count })
  let s2 := btLeaveGa e old s1
  let r := muFinal s2 (s2.entry e)
  rwPlaceFinal e r (btStateEvent e r.ref old .closing reason.num s2)

end Sys2Proof.Machine
end

