-- ==== Sys2Proof/Machine/Bookings.lean ====
section
/-! DEFINITION. The Booking Table: boundaries (R99 to R104) and their second reports (R49), meter limits (R105), Load Booking
and validation (R95 to R98, R114), and the booking commands (R106 to R111). -/

namespace Sys2Proof.Machine

/-! ### Boundaries -/

/-- R99: the second of boundary `i` of an entry: 0 preroll, 1 start, 2 half, else end. -/
def Entry.boundary (x : Entry) (i : Nat) : Nat :=
  match i with
  | 0 => x.effStart - x.desc.preroll
  | 1 => x.effStart
  | 2 => x.effStart + (x.desc.endSec - x.effStart) / 2
  | _ => x.desc.endSec

/-- R93, R100: entry `e` takes the next request number and asks the GA for its destination. -/
def btAsk (e : Nat) (s : State) : State :=
  let count := satAdd max64 s.bt.requestCount 1
  gaRequest e (modEntry e (fun x => { x with requestNo := count }) (s.withBt { s.bt with requestCount := count }))

/-- R101, R169: holder `e` enters LIVE or OVERRUN by a boundary or Advance, with its BOOKING event; the DM recomputes the
condition of its destination. -/
def btMoveHolder (e : Nat) (st : BookingState) (s : State) : State :=
  let x := s.entry e
  dmReclass x.desc.dest (btStateEvent e x.desc.ref x.state st 0 (s.setEntry e (x.enter st s.tb.seconds)))

/-- R102: the start boundary acts. -/
def btStart (e : Nat) (s : State) : State :=
  let x := s.entry e
  match x.state with
  | .preroll => btMoveHolder e .live s
  | .suspended =>
    if x.resume = some .preroll then s.setEntry e { x with resume := some .live } else s
  | _ => s

/-- R103: the states in which the half boundary produces a CHECKPOINT. -/
def BookingState.checkpoints : BookingState → Bool
  | .waiting => true
  | .preroll => true
  | .live => true
  | .suspended => true
  | _ => false

/-- R103: the half boundary acts. -/
def btHalf (e : Nat) (s : State) : State :=
  let x := s.entry e
  if x.state.checkpoints && x.desc.checkpoint then rwPlaceCheckpoint e (muCheckpoint s x) s else s

/-- R104: the end boundary acts. -/
def btEnd (e : Nat) (s : State) : State :=
  let x := s.entry e
  match x.state with
  | .live => if x.desc.holdOn && 0 < x.desc.allowance then btMoveHolder e .overrun s else btClose e .ended s
  | .waiting => btClose e .endedWaiting s
  | .suspended => btClose e .endedWaiting s
  | _ => s

/-- Boundary `i` of entry `e` fires: it is recorded as fired and acts (R100, R102 to R104). -/
def btFire (e i : Nat) (s : State) : State :=
  let s1 := modEntry e (fun x => { x with fired := i + 1 }) s
  match i with
  | 0 => if (s1.entry e).state = .scheduled then btAsk e s1 else s1
  | 1 => btStart e s1
  | 2 => btHalf e s1
  | _ => btEnd e s1

/-- R99: the unfired boundaries of entry `e` at or before second `sec` fire in boundary order, at most `n` of them. -/
def btFireUpTo (sec e : Nat) : Nat → State → State
  | 0, s => s
  | n + 1, s =>
    let x := s.entry e
    if x.state.isOpen && x.fired < 4 && x.boundary x.fired ≤ sec then btFireUpTo sec e n (btFire e x.fired s) else s

/-- R99: a report of second `sec`, entries in ascending order. -/
def btReport (sec : Nat) (s : State) : State := forAll 128 (fun e t => btFireUpTo sec e 4 t) s

/-- Insertion into a rising list without repeats. -/
def insertRising (n : Nat) : List Nat → List Nat
  | [] => [n]
  | m :: t => if n < m then n :: m :: t else if n = m then m :: t else m :: insertRising n t

/-- The seconds after `from` up to `to` whose report fires a boundary of entry `x`. -/
def Entry.dueSeconds (x : Entry) (after upTo : Nat) : List Nat :=
  if x.state.isOpen then
    (((List.range 4).filter (fun i => x.fired ≤ i)).map x.boundary |>.filter (fun b => b ≤ upTo)).map
      (fun b => max b (after + 1))
  else []

/-- The seconds among r + 1 to `upTo` whose report fires a boundary, ascending. -/
def dueSeconds (s : State) (after upTo : Nat) : List Nat :=
  (List.range 128).foldl (fun l e => ((s.entry e).dueSeconds after upTo).foldl (fun l b => insertRising b l) l) []

/-- R49: after a change of NT, the seconds from r + 1 to NT seconds are reported and r becomes NT seconds. The report of a
second that no boundary waits for fires nothing, and only the others are gone through (log entry 12). -/
def tbReport (s : State) : State :=
  if s.tb.reported < s.tb.seconds then
    let s1 := (dueSeconds s s.tb.reported s.tb.seconds).foldl (fun t sec => btReport sec t) s
    s1.withTb { s1.tb with reported := s.tb.seconds }
  else s

/-! ### Meter limits (R105) -/

/-- R105: the limit of an entry whose totals were taken in state `st`, where it is reached, with its close reason. -/
def Entry.limit (st : BookingState) (x : Entry) : Option CloseReason :=
  match st with
  | .live => if 86400000 ≤ x.meters.window then some .ended else none
  | .overrun => if x.desc.allowance * 60000 ≤ x.meters.over then some .allowance else none
  | .suspended => if 86400000 ≤ x.meters.su then some .endedWaiting else none
  | _ => none

/-- R105: the test of entry `e` in the state its totals were taken from. -/
def btLimitTest (e : Nat) (st : BookingState) (s : State) : State :=
  if (s.entry e).state.isOpen then
    match (s.entry e).limit st with
    | some reason => btClose e reason s
    | none => s
  else s

/-- R105: the tests of every entry, ascending, each in the state that `taken` gives. -/
def btLimits (taken : List (Nat × BookingState)) (s : State) : State :=
  taken.foldl (fun t p => btLimitTest p.1 p.2 t) s

/-- The state of every entry, in which its totals are taken. -/
def entryStates (s : State) : List (Nat × BookingState) := (List.range 128).map (fun e => (e, (s.entry e).state))

/-! ### Load Booking -/

/-- R95: the lowest-numbered EMPTY entry. -/
def emptyEntry (s : State) : Option Nat := (List.range 128).find? (fun e => (s.entry e).state == .empty)

/-- R95. -/
def btLoadCommand (p : Nat → Nat) (s : State) : State × (Reply ⊕ Job) :=
  if s.lpu.mode != .run then (s, .inl (.refuse .wrongMode))
  else if 255 < p 1 || p 0 % 64 != 0 then (s, .inl (.refuse .range))
  else
    match emptyEntry s with
    | none => (s, .inl (.refuse .tableFull))
    | some e => (btFetch e (address (p 0) (p 1)) .command s, .inr (.loading e))

def execLoadBooking (s : State) : Out := .next (runLongCommand 0x0501 btLoadCommand s)

/-! ### Validation (R97) -/

/-- The entries in SCHEDULED to CLOSING that hold booking reference `ref`. -/
def bookingOf (s : State) (ref : Nat) : Option Nat :=
  (List.range 128).find? (fun e =>
    ((s.entry e).state.isOpen || (s.entry e).state == .closing) && (s.entry e).desc.ref == ref)

/-- Check 6 for one member of the feed set. -/
def feedBad (s : State) (f : Nat) : Bool := 63 < f || (s.ringDef f).isNone

/-- The fourteen checks of Table 5-5 on the 64 bytes of a descriptor, in order; true where the check fails. -/
def validationFailures (s : State) (data : List Byte) : List Bool :=
  let x := descriptorOf data
  [ descriptorMarker data != 0x6A4B,
    x.ref == 0,
    (bookingOf s x.ref).isSome,
    1023 < x.account,
    47 < x.dest || (s.windowDef x.dest).isNone,
    x.feedSet.any (feedBad s) || !decide x.feedSet.Nodup,
    x.endSec ≤ x.startSec || 86400 < x.endSec - x.startSec,
    x.endSec ≤ s.tb.seconds,
    600 < x.preroll,
    240 < x.allowance,
    15 < x.tariff || (s.tariff x.tariff).isNone,
    3 < x.arms,
    15 < x.priority,
    x.next != 0 && (x.next % 64 != 0 || 1099511627776 ≤ x.next) ]

/-- R97: the number of the first check that fails. -/
def validation (s : State) (data : List Byte) : Option Nat :=
  ((validationFailures s data).findIdx? id).map (· + 1)

/-- R98: the entry after validation passes; the origin and the time-stepped flag are kept. -/
def Entry.scheduled (x : Entry) (d : Descriptor) : Entry :=
  { Entry.blank with
    state := .scheduled, origin := x.origin, address := x.address, desc := d, effStart := d.startSec,
    selected := d.primary, armsLeft := d.arms, timeStepped := x.timeStepped }

/-- R98: entry `e` is SCHEDULED with the descriptor, and the boundaries already due fire. -/
def btSchedule (e : Nat) (d : Descriptor) (s : State) : State :=
  let s1 := btStateEvent e d.ref .fetching .scheduled 0 (modEntry e (fun x => x.scheduled d) s)
  btFireUpTo s1.tb.seconds e 4 s1

/-! ### The end of a fetch -/

/-- The result of the executing Load Booking is handed over (R31). -/
def cuFinishExecuting (r : Reply) (s : State) : State :=
  match s.cu.executing with
  | none => s
  | some x => cuFinish x.slot x.data r s

/-- A failed fetch of entry `e`: the entry becomes EMPTY, and `r` is the result (R96) or kind and detail of the CHAIN event
(R114). -/
def btFetchFailed (e kind detail : Nat) (r : Reply) (s : State) : State :=
  let x := s.entry e
  let s1 := s.setEntry e .blank
  match x.origin with
  | .command => cuFinishExecuting r s1
  | .chain pred => raise .chain kind e [x.address % 4294967296, x.address / 4294967296, detail, pred] s1

/-- R96, R97, R114: the response ends the fetch of entry `e`. -/
def btFetchEnds (e : Nat) (resp : Response) (s : State) : State :=
  let x := s.entry e
  match resp with
  | .error =>
    btFetchFailed e 1 0
      { code := .fetchError, detail := 0, words := [e, x.address % 4294967296, x.address / 4294967296] } s
  | .done data =>
    let d := descriptorOf data
    match validation s data with
    | some 3 =>
      btFetchFailed e 2 3 { code := .duplicateRef, detail := 3, words := [e, d.ref, (bookingOf s d.ref).getD 0] } s
    | some n => btFetchFailed e 2 n { code := .descriptorInvalid, detail := n, words := [e, d.ref] } s
    | none =>
      let s1 := btSchedule e d s
      match x.origin with
      | .command => cuFinishExecuting { code := .done, detail := 0, words := [e, d.ref, (s1.entry e).state.num] } s1
      | .chain _ => s1

/-- The entry in FETCHING whose descriptor read carries `tag`. -/
def fetchingEntry (s : State) (tag : Nat) : Option Nat :=
  (List.range 128).find? (fun e => (s.entry e).state == .fetching && (s.entry e).fetchTag == some tag)

/-- The descriptor read with `tag` in memory's hands is answered: it leaves them, and the BT takes the response. One whose
fetch has been abandoned (R45) or lost is discarded. -/
def btDescriptorResponse (tag : Nat) (resp : Response) (s : State) : State :=
  let own := fun (x : Issued) =>
    match x with
    | .own o => o.kind == .descriptor && o.req.tag == tag
    | .upstream _ => false
  if s.lpu.issued.any own then
    let s1 := s.withLpu { s.lpu with issued := s.lpu.issued.eraseP own }
    match fetchingEntry s1 tag with
    | none => s1
    | some e => btFetchEnds e resp s1
  else s

def execDescriptorReadResponse (tag : Nat) (resp : Response) (s : State) : Out := .next (btDescriptorResponse tag resp s)

/-! ### Booking commands (Section 5.6) -/

/-- A booking command on the entry with reference p 0, after its other parameters (R106). -/
def withBooking (p : Nat → Nat) (act : Nat → State → State × Reply) (s : State) : State × Reply :=
  match bookingOf s (p 0) with
  | none => (s, .refuse .notFound)
  | some e => act e s

/-- A result that carries the entry number and the entry's state after the command (R106). -/
def bookingReply (code : ResultCode) (e : Nat) (more : List Nat) (s : State) : Reply :=
  { code := code, detail := 0, words := [e, (s.entry e).state.num] ++ more }

/-- The close of Cancel and Release: with the end-chain flag 1 the next descriptor address becomes 0 first (R107). -/
def btCommandClose (e : Nat) (endChain : Bool) (reason : CloseReason) (s : State) : State × Reply :=
  let s1 :=
    if endChain then modEntry e (fun x => { x with desc := { x.desc with next := 0 } }) s else s
  let s2 := btClose e reason s1
  (s2, bookingReply .done e [] s2)

/-- R107 by state: closed, or refused with the code given. -/
def cancelRefusal : BookingState → Option ResultCode
  | .scheduled => none
  | .waiting => none
  | .preroll => none
  | .closing => some .tooLate
  | _ => some .wrongState

/-- R109 by state. -/
def releaseRefusal : BookingState → Option ResultCode
  | .preroll => none
  | .live => none
  | .overrun => none
  | .suspended => none
  | .closing => some .tooLate
  | _ => some .wrongState

/-- Cancel and Release: the flag is checked, the booking found, and its state decides (R106, R107, R109). -/
def btEndCommand (refusal : BookingState → Option ResultCode) (reason : CloseReason) (p : Nat → Nat) (s : State) :
    State × Reply :=
  if 1 < p 1 then (s, .refuse .range)
  else
    withBooking p (fun e t =>
      match refusal (t.entry e).state with
      | some code => (t, bookingReply code e [] t)
      | none => btCommandClose e (p 1 == 1) reason t) s

/-- R107. -/
def btCancelCommand (p : Nat → Nat) (s : State) : State × Reply := btEndCommand cancelRefusal .cancelled p s

def execCancel (s : State) : Out := .next (runCommand 0x0502 btCancelCommand s)

/-- R109. -/
def btReleaseCommand (p : Nat → Nat) (s : State) : State × Reply := btEndCommand releaseRefusal .released p s

def execRelease (s : State) : Out := .next (runCommand 0x0504 btReleaseCommand s)

/-- R108: the effective start becomes NT seconds, and the preroll and start boundaries are recorded as fired. -/
def Entry.advanced (nt : Nat) (x : Entry) : Entry := { x with effStart := nt, fired := max x.fired 2 }

/-- R108 by state, where it is accepted; then the half boundary fires if its new second is due. -/
def btAdvance (e : Nat) (s : State) : State :=
  let s1 := modEntry e (Entry.advanced s.tb.seconds) s
  let s2 :=
    match (s.entry e).state with
    | .scheduled => btAsk e s1
    | .preroll => btMoveHolder e .live s1
    | _ => s1
  btFireUpTo s2.tb.seconds e 4 s2

/-- R108: Advance applies in SCHEDULED, WAITING and PREROLL. -/
def BookingState.advances : BookingState → Bool
  | .scheduled => true
  | .waiting => true
  | .preroll => true
  | _ => false

/-- R108. -/
def btAdvanceCommand (p : Nat → Nat) (s : State) : State × Reply :=
  withBooking p (fun e t =>
    let x := t.entry e
    if !x.state.advances then (t, bookingReply .wrongState e [] t)
    else if x.desc.endSec ≤ t.tb.seconds || 86400 < x.desc.endSec - t.tb.seconds then (t, .refuse .range)
    else
      let t1 := btAdvance e t
      (t1, bookingReply .done e [(t1.entry e).effStart] t1)) s

def execAdvance (s : State) : Out := .next (runCommand 0x0503 btAdvanceCommand s)

/-- R110: the overrun already metered bounds the allowance from below in OVERRUN and in SUSPENDED with that resume state. -/
def Entry.inOverrun (x : Entry) : Bool :=
  x.state == .overrun || (x.state == .suspended && x.resume == some .overrun)

/-- R110. -/
def btExtendCommand (p : Nat → Nat) (s : State) : State × Reply :=
  if 1 < p 2 then (s, .refuse .range)
  else
    withBooking p (fun e t =>
      let x := t.entry e
      let minutes := min 240 (p 1)
      if x.state = .closing then (t, bookingReply .tooLate e [] t)
      else if x.inOverrun && minutes * 60000 ≤ x.meters.over then (t, .refuse .range)
      else
        let t1 := t.setEntry e { x with desc := { x.desc with allowance := minutes, holdOn := p 2 == 1 } }
        (t1, bookingReply (if 240 < p 1 then .clamped else .done) e [minutes, p 2] t1)) s

def execExtend (s : State) : Out := .next (runCommand 0x0505 btExtendCommand s)

/-- R111: the charge and S′ that Report Booking gives: of the final record in CLOSING, provisional before it. -/
def reportedCharge (s : State) (x : Entry) : Nat × Nat :=
  match x.record with
  | some r => (r.charge, r.seconds)
  | none => ((muCharge false s x).charge, (muCharge false s x).seconds)

/-- Table 5-7. -/
def bookingReport (s : State) (e part : Nat) : Reply :=
  let x := s.entry e
  let m := x.meters
  match part with
  | 0 =>
    { code := .done, detail := pack 8 (if x.state = .suspended then resumeNum x.resume else 0) x.state.num,
      words := [e, x.effStart, x.desc.endSec, x.desc.allowance, x.selected, x.armsLeft] }
  | 1 => { code := .done, detail := x.reason.num, words := [m.c, m.d, m.u, m.oc, m.od, m.ou] }
  | 2 =>
    { code := .done, detail := 0,
      words := [m.p, m.su, (reportedCharge s x).1, (reportedCharge s x).2, x.takes, x.slips] }
  | _ =>
    { code := .done, detail := x.fired,
      words := [flag x.hasLive, flag x.timeStepped, flag x.desc.holdOn, x.liveNT, x.failovers,
                (x.closeSeq.getD 0) % 4294967296] }

/-- R111. -/
def btReportCommand (p : Nat → Nat) (s : State) : State × Reply :=
  if 3 < p 1 then (s, .refuse .range)
  else withBooking p (fun e t => (t, bookingReport t e (p 1))) s

def execReportBooking (s : State) : Out := .next (runCommand 0x0506 btReportCommand s)

end Sys2Proof.Machine
end

