-- ==== Sys2Proof/Machine/Time.lean ====
section
/-! DEFINITION. The Time Base and the passing of time: the oscillator with the deadlines that fall due on it (R54, R159), the
local millisecond (R47, R48), the reference mark (R50 to R55), and the time commands (R56 to R60).

Time passes in LOCAL_MILLISECOND, with the rows of the single intervals (Intervals.lean), and in REFERENCE_MARK, MARK_DEADLINE
and HOLD_LIMIT_EXPIRY. Each takes the oscillator to the moment of its event, and whatever falls due strictly before that
moment comes about first (log entry 8). -/

namespace Sys2Proof.Machine

/-! ### Reference state -/

/-- A TIME event (Table 3-5). -/
def tbEvent (kind : Nat) (words : List Nat) (s : State) : State := raise .time kind 0 words s

/-- The reference state becomes `new`; a change raises STATE. -/
def tbSetState (new : RefState) (s : State) : State :=
  let old := s.tb.refState
  if old = new then s
  else
    tbEvent 1 [old.num, new.num, s.tb.refMode.num, signed32 s.tb.lastOffset] (s.withTb { s.tb with refState := new })

/-- The counts become 0, the first-mark-due flag is set, and the expected mark time becomes none (R56). -/
def Tb.startAfresh (t : Tb) : Tb := { t with consecutive := 0, failed := 0, firstMarkDue := true, expected := none }

/-- R54: the deadline of the expected mark time `at_` has passed. -/
def tbDeadlinePassed (at_ : Nat) (s : State) : State :=
  match s.tb.refState with
  | .acquiring => s.withTb { s.tb with consecutive := 0, expected := none }
  | .locked =>
    if 3 ≤ s.tb.failed + 1 then
      tbSetState .holdover (s.withTb { s.tb with consecutive := 0, failed := 0, expected := none })
    else s.withTb { s.tb with failed := s.tb.failed + 1, expected := some (at_ + 1000000) }
  | _ => s

/-! ### The oscillator -/

/-- What falls due on the oscillator inside a millisecond. -/
inductive Due where
  | deadline (at_ : Nat)
  | hold (d : Nat)
  deriving DecidableEq, Repr

/-- The position within the millisecond in progress at which the deadline of the expected mark falls due (R54). -/
def deadlineDue (s : State) : Option (Nat × Due) :=
  if s.tb.refState = .acquiring ∨ s.tb.refState = .locked then
    s.tb.expected.map (fun x => (max s.tb.subMicros (x + s.tb.window - s.tb.msStart), .deadline x))
  else none

/-- The position at which the hold entry `h` reaches its limit (R159). -/
def holdDue (s : State) (h : HoldEntry) : Nat × Due := (s.tb.subMicros + (h.limit - h.elapsed), .hold h.dest)

/-- The earlier of two, the first of equals. -/
def earlier (a : Option (Nat × Due)) (b : Nat × Due) : Option (Nat × Due) :=
  match a with
  | none => some b
  | some x => if b.1 < x.1 then some b else some x

/-- What falls due next. -/
def nextDue (s : State) : Option (Nat × Due) := s.lpu.holds.foldl (fun a h => earlier a (holdDue s h)) (deadlineDue s)

/-- The oscillator comes to position `pos` of the millisecond in progress; every hold has waited so much longer. -/
def moveTo (pos : Nat) (s : State) : State :=
  let s1 := holdsAge (pos - s.tb.subMicros) s
  s1.withTb { s1.tb with subMicros := max s1.tb.subMicros pos }

/-- What has fallen due comes about. -/
def comeDue (x : Due) (s : State) : State :=
  match x with
  | .deadline a => tbDeadlinePassed a s
  | .hold d => lpuHoldExpire d s

/-- All that falls due strictly before position `pos`, in the order of time, at most `n` of them. -/
def passTime (pos : Nat) : Nat → State → State
  | 0, s => s
  | n + 1, s =>
    match nextDue s with
    | none => s
    | some (at_, x) => if at_ < pos then passTime pos n (comeDue x (moveTo at_ s)) else s

/-- How many things may fall due in one millisecond: each expiry answers a read of the hold list, and one deadline falls in
a millisecond. -/
def dueBound (s : State) : Nat := (s.lpu.holds.map (fun h => h.reads.length)).sum + 2

/-- Time passes up to position `pos`. -/
def timeTo (pos : Nat) (s : State) : State := moveTo pos (passTime pos (dueBound s) s)

/-! ### The local millisecond -/

/-- R48: NT advances by one millisecond; at its last value it stays. -/
def Tb.advance (t : Tb) : Tb :=
  if t.millis < 999 then { t with millis := t.millis + 1 }
  else if t.seconds < max32 then { t with millis := 0, seconds := t.seconds + 1 }
  else t

/-- R47, R48, R105, R170, R174: what the blocks do at a local millisecond event, in the order of log entry 6: NT advances, the
MU accrues, the DM makes its changes, the timers of the RU and of the FM run, the BT tests the meter limits, and a second
that NT has entered is reported. -/
def millisecondEvent (s : State) : State :=
  let taken := entryStates s
  let s1 := forAll 128 muAccrue (s.withTb s.tb.advance)
  let s2 := forAll 48 ruMillisecond (forAll 48 dmMillisecond s1)
  tbReport (btLimits taken (forAll 64 fmMillisecond s2))

/-- The millisecond in progress ends where the oscillator stands `us` µs after it began. -/
def Tb.newMillisecond (us : Nat) (t : Tb) : Tb := { t with msStart := t.msStart + us, subMicros := 0 }

/-- LOCAL_MILLISECOND: 1,000 µs have passed (R47). -/
def tbMillisecond (s : State) : State :=
  let s1 := timeTo 1000 s
  millisecondEvent (s1.withTb (s1.tb.newMillisecond 1000))

def execLocalMillisecond (s : State) : Out := .next (if s.lpu.resetAsserted then s else tbMillisecond s)

/-- MARK_DEADLINE: the deadline of the expected mark passes within the millisecond in progress (R54). -/
def tbMarkDeadline (s : State) : State :=
  match deadlineDue s with
  | none => s
  | some (at_, _) =>
    if at_ < 1000 then
      let s1 := timeTo at_ s
      match s1.tb.expected with
      | none => s1
      | some x => tbDeadlinePassed x s1
    else s

def execMarkDeadline (s : State) : Out := .next (if s.lpu.resetAsserted then s else tbMarkDeadline s)

/-- HOLD_LIMIT_EXPIRY of destination `d`: its hold reaches its limit within the millisecond in progress (R159). -/
def tbHoldExpiry (d : Nat) (s : State) : State :=
  match s.hold d with
  | none => s
  | some h => if (holdDue s h).1 < 1000 then lpuHoldExpire d (timeTo (holdDue s h).1 s) else s

def execHoldLimitExpiry (d : Nat) (s : State) : Out := .next (if s.lpu.resetAsserted then s else tbHoldExpiry d s)

/-! ### The reference mark -/

/-- R50: p, the NT position of a mark within its second, in µs. -/
def Tb.position (t : Tb) : Nat := t.millis * 1000 + t.subMicros

/-- R50: the offset e of a mark at position p. -/
def markOffset (p : Nat) : Int := if p < 500000 then (p : Int) else (p : Int) - 1000000

/-- R50: the mark is in window. -/
def inWindow (w : Nat) (e : Int) : Bool := e.natAbs ≤ w

/-- R50: the nearest second of a mark with offset e. At the last second the manual states none (log entry 5). -/
def Tb.nearestSecond (t : Tb) (e : Int) : Nat :=
  if 0 ≤ e then t.seconds
  else if t.seconds < max32 then t.seconds + 1
  else (Config.secondAfterTheLast t.position).toNat

/-- R47, R51: the millisecond in progress is re-phased to end at the mark: with 500 µs or more elapsed its event takes place
here, else the elapsed time is carried. -/
def tbRephase (s : State) : State :=
  let u := s.tb.subMicros
  let s1 := s.withTb (s.tb.newMillisecond u)
  if 500 ≤ u then millisecondEvent s1 else s1

/-- R59: a Set Time value has been applied: every entry that is not EMPTY takes the time-stepped flag. -/
def btTimeStepped (s : State) : State :=
  forAll 128 (fun e t =>
    if (t.entry e).state = .empty then t else modEntry e (fun x => { x with timeStepped := true }) t) s

/-- NT is set to a whole second. -/
def tbSetNT (sec : Nat) (s : State) : State := s.withTb { s.tb with seconds := sec, millis := 0 }

/-- R51: in ALIGN_ONCE the mode becomes MONITOR. -/
def tbAlignedOnce (s : State) : State :=
  if s.tb.refMode = .alignOnce then s.withTb { s.tb with refMode := .monitor } else s

/-- R51: a mark with offset `e` and nearest second `near` is accepted. Answers whether it aligned NT or applied a staged
time. -/
def tbAccept (e : Int) (near : Nat) (s : State) : State × Bool :=
  match s.tb.staged with
  | some sec =>
    let s1 := tbRephase s
    let s2 := (tbSetNT sec s1).withTb { (tbSetNT sec s1).tb with staged := none }
    let s3 := tbEvent 4 [sec, s1.tb.seconds, s1.tb.millis, signed32 e] s2
    (tbAlignedOnce (btTimeStepped s3), true)
  | none =>
    if s.tb.refMode = .track ∨ s.tb.refMode = .alignOnce then
      let s1 := tbSetNT near (tbRephase s)
      let s2 :=
        if inWindow s1.tb.window e then s1 else tbEvent 2 [signed32 e, near, s1.tb.refMode.num, 0] s1
      (tbAlignedOnce s2, true)
    else (s, false)

/-- R52: a mark in ACQUIRING. -/
def tbAcquiring (e : Int) (near : Nat) (s : State) : State :=
  let inside := inWindow s.tb.window e
  let next := s.now + 1000000
  if s.tb.firstMarkDue then
    let y := tbAccept e near s
    if y.2 || inside then
      y.1.withTb { y.1.tb with consecutive := 1, firstMarkDue := false, expected := some next }
    else y.1.withTb { y.1.tb with consecutive := 0, expected := none }
  else if inside then
    let s1 := (tbAccept e near s).1
    let s2 := s1.withTb { s1.tb with consecutive := min 4 (s1.tb.consecutive + 1), expected := some next }
    if 4 ≤ s2.tb.consecutive then tbSetState .locked (s2.withTb { s2.tb with failed := 0 }) else s2
  else s.withTb { s.tb with consecutive := 0, firstMarkDue := true, expected := none }

/-- R52, R55: the state moves to ACQUIRING with the first-mark-due flag set, and the mark is treated there. -/
def tbToAcquiring (e : Int) (near : Nat) (s : State) : State :=
  let s1 := tbSetState .acquiring s
  tbAcquiring e near (s1.withTb { s1.tb with firstMarkDue := true })

/-- The wander count increases by 1 (R53, R55). -/
def Tb.wander (t : Tb) : Tb := { t with wanderCount := satAdd max32 t.wanderCount 1 }

/-- R52 to R55: a measured mark is treated by the reference state. -/
def tbTreat (e : Int) (near : Nat) (s : State) : State :=
  let inside := inWindow s.tb.window e
  match s.tb.refState with
  | .absent => tbToAcquiring e near s
  | .acquiring => tbAcquiring e near s
  | .locked =>
    if inside then
      let s1 := (tbAccept e near s).1
      s1.withTb { s1.tb with failed := 0, expected := some (s.now + 1000000) }
    else
      let s1 := s.withTb s.tb.wander
      tbEvent 3 [signed32 e, s1.tb.seconds, s1.tb.window, s1.tb.wanderCount] s1
  | .holdover => if inside then tbToAcquiring e near s else s.withTb s.tb.wander

/-- R50: a mark arrives where the oscillator stands. The boundary reports of a new NT come after the mark's events. -/
def tbMark (s : State) : State :=
  let s1 := s.withTb { s.tb with markCount := satAdd max32 s.tb.markCount 1 }
  if s1.tb.refMode = .off then s1
  else
    let e := markOffset s1.tb.position
    tbReport (tbTreat e (s1.tb.nearestSecond e) (s1.withTb { s1.tb with lastOffset := e }))

/-- REFERENCE_MARK at sub-millisecond position `u`. A mark is not counted while the reset input is asserted (R61). -/
def execReferenceMark (u : Nat) (s : State) : Out :=
  .next (if s.lpu.resetAsserted then s else tbMark (timeTo (max s.tb.subMicros (min 999 u)) s))

/-! ### Time commands -/

/-- The mode that a parameter word names (R56). -/
def refModeOf : Nat → Option RefMode
  | 0 => some .off
  | 1 => some .monitor
  | 2 => some .track
  | 3 => some .alignOnce
  | _ => none

/-- R56: mode OFF cancels a staged time, with its event. -/
def tbCancelStaged (s : State) : State :=
  match s.tb.staged with
  | none => s
  | some sec => tbEvent 5 [sec, 0, 0, 0] (s.withTb { s.tb with staged := none })

/-- R56: the TB acts by the new mode. -/
def tbEnterMode (m : RefMode) (s : State) : State :=
  match m with
  | .off =>
    let s1 := tbSetState .absent s
    tbCancelStaged (s1.withTb s1.tb.startAfresh)
  | .alignOnce =>
    let s1 := if s.tb.refState = .absent then s else tbSetState .acquiring s
    s1.withTb s1.tb.startAfresh
  | _ => s

/-- R56. -/
def tbModeCommand (p : Nat → Nat) (s : State) : State × Reply :=
  match refModeOf (p 0) with
  | none => (s, .refuse .range)
  | some m =>
    let s1 := tbEnterMode m (s.withTb { s.tb with refMode := m })
    (s1, { code := .done, detail := 0, words := [s.tb.refMode.num, m.num, s1.tb.refState.num] })

def execSetReferenceMode (s : State) : Out := .next (runCommand 0x0302 tbModeCommand s)

/-- R57. -/
def tbWindowCommand (p : Nat → Nat) (s : State) : State × Reply :=
  let w := clamp 10 10000 (p 0)
  (s.withTb { s.tb with window := w }, .carried (w != p 0) 0 [w])

def execSetReferenceWindow (s : State) : Out := .next (runCommand 0x0303 tbWindowCommand s)

/-- R58, R59: the given seconds are applied at once. -/
def tbApplyTime (sec : Nat) (s : State) : State :=
  let s1 := tbSetNT sec s
  tbReport (btTimeStepped (s1.withTb { s1.tb with staged := none }))

/-- R58. -/
def tbTimeCommand (p : Nat → Nat) (s : State) : State × Reply :=
  let words := [s.tb.seconds, s.tb.millis, p 0, flag s.tb.staged.isSome]
  if 1 < p 1 then (s, .refuse .range)
  else if p 1 = 0 ∨ s.tb.refMode = .off then (tbApplyTime (p 0) s, { code := .done, detail := 1, words := words })
  else (s.withTb { s.tb with staged := some (p 0) }, { code := .done, detail := 2, words := words })

def execSetTime (s : State) : Out := .next (runCommand 0x0301 tbTimeCommand s)

/-- R60, Table 3-4. -/
def tbReportCommand (p : Nat → Nat) (s : State) : State × Reply :=
  let t := s.tb
  let detail := pack 8 t.refState.num t.refMode.num
  match p 0 with
  | 0 =>
    (s, { code := .done, detail := detail,
          words := [t.seconds, t.millis, t.markCount, t.wanderCount, signed32 t.lastOffset, t.window] })
  | 1 =>
    (s, { code := .done, detail := detail,
          words := [flag t.staged.isSome, t.staged.getD 0, t.consecutive, t.failed, t.reported, flag t.firstMarkDue] })
  | _ => (s, .refuse .range)

def execReportTime (s : State) : Out := .next (runCommand 0x0304 tbReportCommand s)

end Sys2Proof.Machine
end

