-- ==== Sys2Proof/Machine/Intervals.lean ====
section
/-! DEFINITION. The rows of the single intervals (WINDOW_CEILING to IMPAIRMENT_HOLD_END). Every interval is tested at a local
millisecond and at no other moment (R82, R84, R85, R87, R105, R150, R151, R164, R167), so the moment at which an interval is
reached is a local millisecond event. The row of an interval is that moment: where the local millisecond event that ends the
millisecond in progress reaches the interval, the row takes time to that event and makes it; otherwise its moment has not
come and nothing changes (log entry 7). -/

namespace Sys2Proof.Machine

/-- The local millisecond event at which an interval is reached. `due` looks at the state at the end of the millisecond in
progress, before the event, and says whether the event reaches the interval. -/
def tbInterval (due : State → Bool) (s : State) : State :=
  if !s.lpu.resetAsserted && due (timeTo 1000 s) then tbMillisecond s else s

/-! ### Meter limits (R105) -/

/-- The total of entry `e`, which stands in `st`, reaches its limit with the millisecond that the event accrues. -/
def btLimitDue (e : Nat) (st : BookingState) (s : State) : Bool :=
  (s.entry e).state == st && (((muAccrue e s).entry e).limit st).isSome

/-- WINDOW_CEILING of entry `e`. -/
def execWindowCeiling (e : Nat) (s : State) : Out := .next (tbInterval (btLimitDue e .live) s)

/-- ALLOWANCE_EXPIRY of entry `e`. -/
def execAllowanceExpiry (e : Nat) (s : State) : Out := .next (tbInterval (btLimitDue e .overrun) s)

/-- SUSPENSION_CEILING of entry `e`. -/
def execSuspensionCeiling (e : Nat) (s : State) : Out := .next (tbInterval (btLimitDue e .suspended) s)

/-! ### Feeds (R82, R84, R85) -/

/-- The record `r`, with its counts advanced, reaches the retry interval in RETRY_WAIT or FAILED. -/
def FeedRecord.retryDue (p : FeedParams) (r : FeedRecord) : Bool :=
  (r.health == .retryWait || r.health == .failed) && p.retryInterval ≤ r.tick.stateTimer

/-- The record `r`, with its counts advanced, reaches the loss timeout in one of the states that act on it, or on the entry to
QUALIFYING from FAILED, where the silence is not already longer (R84). -/
def FeedRecord.lossDue (p : FeedParams) (r : FeedRecord) : Bool :=
  ((r.health.usable || r.health == .qualifying || r.health == .retryWait) && p.lossTimeout ≤ r.tick.silence) ||
    (r.health == .failed && r.retryDue p && r.attempts < p.attemptLimit && p.lossTimeout == r.tick.silence)

/-- The record `r`, with its counts advanced, reaches the bar release time in BARRED, or on the entry to it from FAILED. -/
def FeedRecord.barDue (p : FeedParams) (r : FeedRecord) : Bool :=
  (r.health == .barred || (r.health == .failed && r.retryDue p && p.attemptLimit ≤ r.attempts)) &&
    p.barRelease != 0 && p.barRelease ≤ r.tick.silence

/-- RETRY_INTERVAL of feed `f`. -/
def execRetryInterval (f : Nat) (s : State) : Out :=
  .next (tbInterval (fun t => (t.feedRec f).any (FeedRecord.retryDue (t.feedParams f))) s)

/-- LOSS_TIMEOUT of feed `f`. -/
def execLossTimeout (f : Nat) (s : State) : Out :=
  .next (tbInterval (fun t => (t.feedRec f).any (FeedRecord.lossDue (t.feedParams f))) s)

/-- BAR_RELEASE of feed `f`. -/
def execBarRelease (f : Nat) (s : State) : Out :=
  .next (tbInterval (fun t => (t.feedRec f).any (FeedRecord.barDue (t.feedParams f))) s)

/-! ### Routes (R150) -/

/-- The take of `d` reaches the take timeout in ARMING or WAIT_SOURCE (R135). -/
def ruTakeDue (d : Nat) (s : State) : Bool :=
  s.lpu.mode == .run && ((s.route d).bind Route.take).any (fun t =>
    (t.state == .arming || t.state == .waitSource) && (s.destParams d).takeTimeout ≤ t.timer + 1)

/-- The freeze timer of `d` reaches the freeze limit (R144). -/
def ruFreezeDue (d : Nat) (s : State) : Bool :=
  s.lpu.mode == .run && (s.holder d).isSome && (s.route d).any (fun r =>
    r.source != .slate && r.freeze.any (fun n => decide ((s.destParams d).freezeLimit ≤ n + 1)))

/-- The revert timer of `d` reaches the revert hold (R148), seen where the timers before it have been taken (R150). -/
def ruRevertDue (d : Nat) (s : State) : Bool :=
  let t := ruRevertCount d (ruFreezeTest d (ruFreezeCount d (ruTakeTimeoutTest d (ruTakeCount d s))))
  s.lpu.mode == .run && (t.route d).any (fun r =>
    ruRevertHolds t d r && r.take.isNone && (s.destParams d).revertHold * 1000 ≤ r.revert)

/-- TAKE_TIMEOUT of destination `d`. -/
def execTakeTimeout (d : Nat) (s : State) : Out := .next (tbInterval (ruTakeDue d) s)

/-- FREEZE_LIMIT of destination `d`. -/
def execFreezeLimit (d : Nat) (s : State) : Out := .next (tbInterval (ruFreezeDue d) s)

/-- REVERT_HOLD of destination `d`. -/
def execRevertHold (d : Nat) (s : State) : Out := .next (tbInterval (ruRevertDue d) s)

/-! ### Deliveries (R164, R167) -/

/-- The adaptation period of `d` reaches 10,000 local milliseconds (R167). -/
def dmPeriodDue (d : Nat) (s : State) : Bool := (s.route d).isSome && 10000 ≤ (s.delivery d).periodCount + 1

/-- The impairment count of `d` reaches 0 (R164). -/
def dmImpairmentDue (d : Nat) (s : State) : Bool := (s.route d).isSome && (s.delivery d).impairment == 1

/-- ADAPTATION_PERIOD_END of destination `d`. -/
def execAdaptationPeriodEnd (d : Nat) (s : State) : Out := .next (tbInterval (dmPeriodDue d) s)

/-- IMPAIRMENT_HOLD_END of destination `d`. -/
def execImpairmentHoldEnd (d : Nat) (s : State) : Out := .next (tbInterval (dmImpairmentDue d) s)

end Sys2Proof.Machine
end

