-- ==== Sys2Proof/Machine/LinkPath.lean ====
section
/-! DEFINITION. The Link Path Unit: the reception and classification of requests (R4, R10 to R15), the consumer side of the
rings (R36, R37), the arbiter (R19, R20), responses (R21, R35) and power-on reset (R1, R2). -/

namespace Sys2Proof.Machine

/-! ### Classes (Table 1-4) -/

/-- The class of a request. -/
inductive Class where
  | control (offset : Nat)
  | ring (f offset : Nat)
  | window (d : Nat)
  | other
  deriving DecidableEq, Repr

/-- The size of a ring or window: N × 2,048 bytes. In RESTARTING entered from CONFIG the ring depth may be unset, and the manual
then gives the regions no size; the model gives them 0 bytes, so that every request outside the control area is of class Other
(DESIGN CHOICE, log entry 24). -/
def regionSize (s : State) : Nat := s.ringDepth * 2048

/-- Address `a` lies in the region that starts at the base of `x`. -/
def Region.contains (size a : Nat) (x : Region) : Bool := x.base.toNat ≤ a && a < x.base.toNat + size

/-- The lowest-numbered object of `n` whose definition contains `a`. In RUN the regions do not overlap (R22); in RESTARTING
entered from CONFIG they may, and the manual does not say whose the request then is (DESIGN CHOICE, log entry 18). -/
def findRegion (n size a : Nat) (definition : Nat → Option Region) : Option Nat :=
  (List.range n).find? (fun i => (definition i).any (Region.contains size a))

/-- R4, R10: the class of address `a`, the first of Table 1-4. In CONFIG the map is not applied. -/
def classify (s : State) (a : Nat) : Class :=
  if s.controlBase ≤ a && a < s.controlBase + 1048576 then .control (a - s.controlBase)
  else if s.lpu.mode = .config then .other
  else
    match findRegion 64 (regionSize s) a s.ringDef with
    | some f => .ring f (a - ((s.ringDef f).map (fun x => x.base.toNat)).getD 0)
    | none =>
      match findRegion 48 (regionSize s) a s.windowDef with
      | some d => .window d
      | none => .other

/-! ### Access faults (R15) -/

/-- R15: an ACCESS event of request `r`. -/
def lpuAccessEvent (kind subject : Nat) (r : Request) (s : State) : State :=
  raise .access kind subject [r.initiator.toNat, r.addr.toNat % 4294967296, r.addr.toNat / 4294967296, 0] s

/-- R12: a foreign write into the ring of `f`. -/
def lpuForeignWrite (f : Nat) (r : Request) (s : State) : State :=
  lpuAccessEvent 1 f r ((lpuAnswer r .error s).setForeignWrites f (satAdd max32 (s.foreignWrites f) 1))

/-- R12, R14: an unauthorised read, `kind` 2 of the ring and 3 of the window of `subject`. -/
def lpuUnauthorisedRead (kind subject : Nat) (r : Request) (s : State) : State :=
  let s1 := lpuAnswer r .error s
  lpuAccessEvent kind subject r (s1.withLpu { s1.lpu with unauthReads := satAdd max32 s1.lpu.unauthReads 1 })

/-- R14: a write into the window of `d`. -/
def lpuWindowWrite (d : Nat) (r : Request) (s : State) : State :=
  let s1 := lpuAnswer r .error s
  lpuAccessEvent 4 d r (s1.withLpu { s1.lpu with windowWrites := satAdd max32 s1.lpu.windowWrites 1 })

/-! ### The consumer side of the rings -/

/-- R36: the RW accepts the consumer value `v` for a ring of `size` places. -/
def RingIndexes.accepts (size v : Nat) (x : RingIndexes) : Bool :=
  v < size && modSub size v x.consumer ≤ modSub size x.published x.consumer

/-- R36, R37: a consumer index write of value `v`. -/
def rwConsumerWrite (id : RingId) (v : Nat) (s : State) : State :=
  let x := s.ring id
  if x.accepts id.size v then
    if v = x.consumer then s
    else
      let s1 := rwNotice (s.setRing id { x with consumer := v })
      if id = .billing then rwRingward s1 else s1
  else s.withRw { s.rw with badIndexWrites := satAdd max32 s.rw.badIndexWrites 1 }

/-- R11: the ring whose consumer word stands at `offset`. -/
def consumerWord (offset : Nat) : Option RingId :=
  if offset = 0x404 then some .result else if offset = 0x40C then some .event else if offset = 0x414 then some .billing
  else none

/-! ### The treatment of each class -/

/-- A request goes downstream unchanged. -/
def lpuPass (r : Request) (s : State) : State := lpuForward { req := r, origin := .passed } s

/-- R11: the two reports of a control area write at `offset`. -/
def lpuSnoop (offset : Nat) (r : Request) (s : State) : State :=
  if r.kind = .read then s
  else if offset < 0x400 then cuSlotWrite (offset / 64) (r.len == 64) r.data s
  else if r.len = 4 then
    match consumerWord offset with
    | some id => rwConsumerWrite id (fromLE r.data) s
    | none => s
  else s

/-- R13: what the assigned writer's write at `offset` of the ring of `f` reports to the FM. -/
def lpuObserve (f offset : Nat) (r : Request) (s : State) : State :=
  let w := offset / 2048
  let o := offset % 2048
  if o = 0 then (if 16 ≤ r.len then fmHeaderWrite f w (r.data.take 16) s else fmPartialWrite f w s)
  else if o + r.len = 2048 then fmCompletion f w s
  else s

/-- R12: a request at `offset` of the ring of `f`. -/
def lpuRing (f offset : Nat) (r : Request) (s : State) : State :=
  match r.kind with
  | .write =>
    if (s.ringDef f).any (fun x => x.agent == r.initiator.toNat) then lpuObserve f offset r (lpuPass r s)
    else lpuForeignWrite f r s
  | .read => if s.lpu.monitors.contains r.initiator.toNat then lpuPass r s else lpuUnauthorisedRead 2 f r s

/-- R14, R17: a request into the window of `d`. -/
def lpuWindow (d : Nat) (r : Request) (s : State) : State :=
  match r.kind with
  | .write => lpuWindowWrite d r s
  | .read =>
    if (s.windowDef d).any (fun x => x.agent == r.initiator.toNat) then
      if (s.hold d).isSome then holdJoin d [r] s else (lpuReadWindow d r s).1
    else lpuUnauthorisedRead 3 d r s

/-- R10: a received request is treated by its class. -/
def lpuTreat (r : Request) (s : State) : State :=
  match classify s r.addr.toNat with
  | .control offset => lpuSnoop offset r (lpuPass r s)
  | .ring f offset => lpuRing f offset r s
  | .window d => lpuWindow d r s
  | .other => lpuPass r s

/-- R2, R10, R158: the LPU accepts requests from the switch unless the reset input is asserted, the forwarding queue is full
(reads decided meanwhile go first), or a hold entry holds 16 reads. -/
def lpuAccepts (s : State) : Bool :=
  !s.lpu.resetAsserted && s.lpu.forwarding.length < 32 && s.lpu.decidedReads.isEmpty &&
    s.lpu.holds.all (fun h => h.reads.length < 16)

/-- A request from the switch. One that is not accepted is held back by the switch, and nothing changes (log entry 4). -/
def lpuReceive (r : Request) (s : State) : State := if lpuAccepts s then lpuTreat r s else s

def execCommandSlotWrite (r : Request) (s : State) : Out := .next (lpuReceive r s)
def execConsumerIndexWrite (r : Request) (s : State) : Out := .next (lpuReceive r s)
def execControlAreaRequest (r : Request) (s : State) : Out := .next (lpuReceive r s)
def execRingWrite (r : Request) (s : State) : Out := .next (lpuReceive r s)
def execRingRead (r : Request) (s : State) : Out := .next (lpuReceive r s)
def execWindowRead (r : Request) (s : State) : Out := .next (lpuReceive r s)
def execWindowWrite (r : Request) (s : State) : Out := .next (lpuReceive r s)
def execOtherRequest (r : Request) (s : State) : Out := .next (lpuReceive r s)

/-! ### The memory side -/

/-- R10: a read decided while the forwarding queue was full enters it at the next free place. -/
def lpuRefill (s : State) : State :=
  match s.lpu.decidedReads with
  | [] => s
  | x :: rest =>
    if s.lpu.forwarding.length < 32 then
      s.withLpu { s.lpu with forwarding := s.lpu.forwarding ++ [x], decidedReads := rest }
    else s

/-- R20: the oldest own request `o` goes downstream, and the waiting count becomes 0. A producer word write publishes its
index (R34), and the notice line is re-evaluated (R42). -/
def lpuGrantOwn (o : OwnRequest) (rest : List OwnRequest) (s : State) : State :=
  let s1 := s.withLpu { s.lpu with ownQueue := rest, waitingCount := 0, issued := s.lpu.issued ++ [.own o] }
  match o.kind with
  | .producer id index => rwNotice (s1.setRing id { s1.ring id with published := index })
  | _ => s1

/-- R20: the oldest pass-through request goes downstream; the waiting count increases while own requests wait. -/
def lpuGrantPass (x : Forward) (rest : List Forward) (s : State) : State :=
  lpuRefill (s.withLpu { s.lpu with
    forwarding := rest, issued := s.lpu.issued ++ [.upstream x],
    waitingCount := if s.lpu.ownQueue.isEmpty then s.lpu.waitingCount else s.lpu.waitingCount + 1 })

/-- R20: memory accepts a request. -/
def lpuGrant (s : State) : State :=
  if s.lpu.resetAsserted then s
  else
    match s.lpu.ownQueue, s.lpu.forwarding with
    | [], [] => s
    | [], x :: xs => lpuGrantPass x xs s
    | o :: os, [] => lpuGrantOwn o os s
    | o :: os, x :: xs => if s.lpu.waitingCount = 16 then lpuGrantOwn o os s else lpuGrantPass x xs s

def execDownstreamGrant (s : State) : Out := .next (lpuGrant s)

/-- R19: the RW submits its oldest waiting request where the own request queue has a place. -/
def rwSubmitWaiting (s : State) : State :=
  match s.rw.waiting with
  | [] => s
  | o :: rest =>
    if s.lpu.ownQueue.length < 16 then
      (s.withRw { s.rw with waiting := rest }).withLpu { s.lpu with ownQueue := s.lpu.ownQueue ++ [o] }
    else s

def execOwnRequestSubmit (s : State) : Out := .next (rwSubmitWaiting s)

/-! ### Responses (R21) -/

/-- A forwarded upstream request of initiator `i` under `tag`, a window read or not. -/
def Issued.isUpstream (window : Bool) (i : Initiator) (tag : Nat) : Issued → Bool
  | .upstream x =>
    x.req.initiator == i && x.req.tag == tag && window == (match x.origin with | .passed => false | .window _ _ => true)
  | .own _ => false

/-- An own write under `tag`. -/
def Issued.isOwnWrite (tag : Nat) : Issued → Bool
  | .own o => o.kind != .descriptor && o.req.tag == tag
  | .upstream _ => false

/-- A response leaves memory: the first request that `p` picks is answered. -/
def lpuAnswered (p : Issued → Bool) (s : State) : State :=
  s.withLpu { s.lpu with issued := s.lpu.issued.eraseP p }

/-- R21: the response to a forwarded request goes upstream under its tag. -/
def lpuReturn (i : Initiator) (tag : Nat) (resp : Response) (s : State) : State :=
  s.withLpu { s.lpu with answers := s.lpu.answers ++ [⟨i, tag, resp⟩] }

/-- R21: the response to a passed request. A response that answers no request of memory's is none (log entry 10). -/
def lpuPassedResponse (i : Initiator) (tag : Nat) (resp : Response) (s : State) : State :=
  if s.lpu.issued.any (Issued.isUpstream false i tag) then
    lpuReturn i tag resp (lpuAnswered (Issued.isUpstream false i tag) s)
  else s

def execPassedResponse (i : Initiator) (tag : Nat) (resp : Response) (s : State) : Out :=
  .next (lpuPassedResponse i tag resp s)

/-- R21, R165: the response to a remapped window read; an ERROR is also reported to the DM. -/
def lpuWindowResponse (i : Initiator) (tag : Nat) (resp : Response) (s : State) : State :=
  match s.lpu.issued.find? (Issued.isUpstream true i tag) with
  | some (.upstream x) =>
    let s1 := lpuReturn i tag resp (lpuAnswered (Issued.isUpstream true i tag) s)
    match resp, x.origin with
    | .error, .window d slot => dmReadError d slot s1
    | _, _ => s1
  | _ => s

def execWindowReadResponse (i : Initiator) (tag : Nat) (resp : Response) (s : State) : Out :=
  .next (lpuWindowResponse i tag resp s)

/-- R21, R35: the response to an own write. -/
def rwWriteResponse (tag : Nat) (resp : Response) (s : State) : State :=
  if s.lpu.issued.any (Issued.isOwnWrite tag) then
    let s1 := lpuAnswered (Issued.isOwnWrite tag) s
    match resp with
    | .error => s1.withRw { s1.rw with ownWriteErrors := satAdd max32 s1.rw.ownWriteErrors 1 }
    | .done _ => s1
  else s

def execOwnWriteResponse (tag : Nat) (resp : Response) (s : State) : Out := .next (rwWriteResponse tag resp s)

/-! ### Reset (R1, R2) -/

/-- The requests of the part that R2 answers ERROR: held reads, then the forwarding queue. -/
def resetErrors (s : State) : List Answer :=
  ((s.lpu.holds.map HoldEntry.reads).flatten ++ s.lpu.forwarding.map Forward.req ++ s.lpu.decidedReads.map Forward.req).map
    (fun r => ⟨r.initiator, r.tag, .error⟩)

/-- A request of the switch that memory has accepted. -/
def Issued.isSwitch : Issued → Bool
  | .upstream _ => true
  | .own _ => false

/-- R1, R2: the release of power-on reset. Every block is put into its reset state; requests in memory's hands keep their
place there, and a response to one of the part's own is discarded from now on. -/
def powerOnReset (base : BitVec 20) (init : Initiator) (s : State) : State :=
  { lpu := .afterReset base init (s.lpu.issued.filter Issued.isSwitch) (s.lpu.answers ++ resetErrors s) s.lpu.nextTag,
    cu := .afterReset, rw := .afterReset, tb := .afterReset, fm := .afterReset, bt := .afterReset, ga := .afterReset,
    ru := .afterReset, dm := .afterReset, mu := .afterReset, pending := s.pending }

def execPowerOnReset (base : BitVec 20) (init : Initiator) (s : State) : Out := .next (powerOnReset base init s)

/-- RESET_ASSERTION: from now on nothing is accepted and no mark is counted; the executing command, the bookings with their
fetches and their places in the GA, and the records not yet placed are lost (R2, R33, R38, R93, R115, R116, R190; what is
taken away before the release is a DESIGN CHOICE, log entry 15). -/
def resetAssertion (s : State) : State :=
  ((((s.withLpu { s.lpu with resetAsserted := true }).withCu { s.cu with executing := none }).withRw
    { s.rw with pendingBilling := [], waiting := [] }).withBt { s.bt with entries := [] }).withGa .afterReset

def execResetAssertion (s : State) : Out := .next (resetAssertion s)

end Sys2Proof.Machine
end

