-- ==== Sys2Proof/Machine/Modes.lean ====
section
/-! DEFINITION. The commands of the region map (R5 to R9), Enter Run and Enter Config (R22 to R24), the Record Writer's
commands (R41, R43, R44), and Restart (R45, R46). -/

namespace Sys2Proof.Machine

/-! ### The region map -/

/-- A command that is accepted in CONFIG alone (R5). -/
def inConfig (act : (Nat → Nat) → State → State × Reply) (p : Nat → Nat) (s : State) : State × Reply :=
  if s.lpu.mode != .config then (s, .refuse .wrongMode) else act p s

/-- A reply DONE with no value words. -/
def Reply.done : Reply := { code := .done, detail := 0, words := [] }

/-- R6. -/
def lpuDepthCommand (p : Nat → Nat) (s : State) : State × Reply :=
  inConfig (fun p s =>
    if [64, 128, 256, 512, 1024].contains (p 0) then (s.withLpu { s.lpu with depth := some (p 0) }, .done)
    else (s, .refuse .range)) p s

def execSetRingDepth (s : State) : Out := .next (runCommand 0x0101 lpuDepthCommand s)

/-- The checks that Define Feed Ring and Define Window share, for `n` objects (R7, R8). -/
def defineRefused (n : Nat) (p : Nat → Nat) : Bool :=
  n ≤ p 0 || 255 < p 2 || 1 < p 4 || (p 4 == 1 && 127 < p 3)

/-- The definition that the parameters give; none with enable 0. -/
def definitionOf (p : Nat → Nat) : Option Region :=
  if p 4 = 1 then some { base := BitVec.ofNat 40 (address (p 1) (p 2)), agent := p 3 } else none

/-- R7. -/
def lpuFeedCommand (p : Nat → Nat) (s : State) : State × Reply :=
  inConfig (fun p s =>
    if defineRefused 64 p then (s, .refuse .range)
    else
      let s1 := s.withLpu { s.lpu with rings := Tbl.set none s.lpu.rings (p 0) (definitionOf p) }
      (s1.setForeignWrites (p 0) 0, .done)) p s

def execDefineFeedRing (s : State) : Out := .next (runCommand 0x0102 lpuFeedCommand s)

/-- R8. -/
def lpuWindowCommand (p : Nat → Nat) (s : State) : State × Reply :=
  inConfig (fun p s =>
    if defineRefused 48 p then (s, .refuse .range)
    else (s.withLpu { s.lpu with windows := Tbl.set none s.lpu.windows (p 0) (definitionOf p) }, .done)) p s

def execDefineWindow (s : State) : Out := .next (runCommand 0x0103 lpuWindowCommand s)

/-- R9: an initiator number, or 255 for an unused place. -/
def monitorOk (x : Nat) : Bool := x ≤ 127 || x == 255

/-- R9. -/
def lpuMonitorCommand (p : Nat → Nat) (s : State) : State × Reply :=
  inConfig (fun p s =>
    if [p 0, p 1, p 2, p 3].all monitorOk then
      (s.withLpu { s.lpu with monitors := [p 0, p 1, p 2, p 3] }, .done)
    else (s, .refuse .range)) p s

def execSetMonitorInitiators (s : State) : Out := .next (runCommand 0x0104 lpuMonitorCommand s)

/-! ### Enter Run -/

/-- A region that Enter Run examines: its object kind and number (R200), base, size and agent. -/
structure MapRegion where
  kind   : Nat
  number : Nat
  base   : Nat
  size   : Nat
  agent  : Nat
  deriving DecidableEq, Repr

/-- The defined objects among the first `n`, ascending. -/
def definedRegions (kind n size : Nat) (definition : Nat → Option Region) : List MapRegion :=
  (List.range n).filterMap (fun i => (definition i).map (fun x => ⟨kind, i, x.base.toNat, size, x.agent⟩))

def feedRegions (s : State) : List MapRegion := definedRegions 1 64 (regionSize s) s.ringDef
def windowRegions (s : State) : List MapRegion := definedRegions 2 48 (regionSize s) s.windowDef

/-- Two regions share an address. -/
def MapRegion.overlaps (a b : MapRegion) : Bool := a.base < b.base + b.size && b.base < a.base + a.size

/-- R22, check 4: the first region that overlaps a later one, with the first such later one. -/
def firstOverlap : List MapRegion → Option (MapRegion × MapRegion)
  | [] => none
  | x :: xs =>
    match xs.find? (fun y => x.overlaps y) with
    | some y => some (x, y)
    | none => firstOverlap xs

/-- A GEOMETRY result (R200). -/
def geometry (check : Nat) (words : List Nat) : Reply := { code := .geometry, detail := check, words := words }

/-- R22: the first check that fails, as its result. -/
def geometryFault (s : State) : Option Reply :=
  let feeds := feedRegions s
  let windows := windowRegions s
  let area : MapRegion := ⟨0, 0, s.controlBase, 1048576, 0⟩
  if s.lpu.depth.isNone then some (geometry 1 [])
  else if feeds.isEmpty || windows.isEmpty then some (geometry 2 [feeds.length, windows.length])
  else
    match (feeds ++ windows).find? (fun x => x.base % regionSize s != 0) with
    | some x => some (geometry 3 [x.kind, x.number])
    | none =>
      match firstOverlap (area :: (feeds ++ windows)) with
      | some (x, y) => some (geometry 4 [x.kind, x.number, y.kind, y.number])
      | none =>
        ((feeds ++ windows).find? (fun x => x.agent == s.lpu.strapInit.toNat)).map
          (fun x => geometry 5 [x.kind, x.number])

/-- A record for each defined object. -/
def recordsFor {α : Type} (n : Nat) (definition : Nat → Option Region) (x : α) : Tbl (Option α) :=
  ((List.range n).filter (fun i => (definition i).isSome)).map (fun i => (i, some x))

/-- R23: the mode becomes RUN and the blocks are set up. -/
def enterRun (s : State) : State :=
  let s1 := s.withLpu { s.lpu with mode := .run, latches := [], foreignWrites := [] }
  let s2 := s1.withFm { s1.fm with records := recordsFor 64 s1.ringDef FeedRecord.atEnterRun }
  let s3 := s2.withRu { s2.ru with routes := recordsFor 48 s2.windowDef Route.atEnterRun }
  forAll 48 dmEnterRun s3

/-- R22, R23. -/
def lpuRunCommand (p : Nat → Nat) (s : State) : State × Reply :=
  inConfig (fun _ s =>
    match geometryFault s with
    | some r => (s, r)
    | none => (enterRun s, .done)) p s

def execEnterRun (s : State) : Out := .next (runCommand 0x0105 lpuRunCommand s)

/-! ### Enter Config -/

/-- The number of booking entries that are not EMPTY. -/
def entriesInUse (s : State) : Nat := ((List.range 128).filter (fun e => (s.entry e).state != .empty)).length

/-- R24: held reads are answered from the slate, the mode becomes CONFIG, and the feed and route records go. -/
def enterConfig (s : State) : State :=
  let s1 := lpuAllHoldsToSlate s
  let s2 := s1.withLpu { s1.lpu with mode := .config, latches := [] }
  (s2.withFm { s2.fm with records := [] }).withRu { s2.ru with routes := [] }

/-- R24. -/
def lpuConfigCommand (_ : Nat → Nat) (s : State) : State × Reply :=
  match s.lpu.mode with
  | .restarting => (s, .refuse .wrongMode)
  | .config => (s, .done)
  | .run => if entriesInUse s != 0 then (s, .refuse .wrongState) else (enterConfig s, .done)

def execEnterConfig (s : State) : Out := .next (runCommand 0x0106 lpuConfigCommand s)

/-! ### The Record Writer's commands -/

/-- R41. -/
def rwMaskCommand (p : Nat → Nat) (s : State) : State × Reply :=
  if 512 ≤ p 0 then (s, .refuse .range)
  else
    (s.withRw { s.rw with mask := BitVec.ofNat 32 (p 0) },
      { code := .done, detail := 0, words := [s.rw.mask.toNat, p 0] })

def execSetEventMask (s : State) : Out := .next (runCommand 0x0201 rwMaskCommand s)

/-- R43. -/
def rwNoticeCommand (p : Nat → Nat) (s : State) : State × Reply :=
  if 1 < p 0 || 1 < p 1 || 1 < p 2 then (s, .refuse .range)
  else
    let s1 := rwNotice (s.withRw { s.rw with
      noticeResult := p 0 == 1, noticeEvent := p 1 == 1, noticeBilling := p 2 == 1 })
    (s1, { code := .done, detail := 0, words := [flag s1.rw.noticeLine] })

def execSetNotice (s : State) : Out := .next (runCommand 0x0202 rwNoticeCommand s)

/-- R44, Table 2-8. -/
def rwStatusCommand (p : Nat → Nat) (s : State) : State × Reply :=
  let detail := pack 8 s.tb.refState.num s.lpu.mode.num
  match p 0 with
  | 0 =>
    (s, { code := .done, detail := detail,
          words := [entriesInUse s, s.cu.ignored, s.rw.badIndexWrites, s.rw.ownWriteErrors, s.lpu.unauthReads,
                    s.lpu.windowWrites] })
  | 1 =>
    (s, { code := .done, detail := detail,
          words := [s.rw.lostTotal, s.rw.checkpointsLost, s.rw.lostCount, s.cu.queue.length,
                    s.rw.pendingBilling.length, s.rw.mask.toNat] })
  | _ => (s, .refuse .range)

def execReportStatus (s : State) : Out := .next (runCommand 0x0203 rwStatusCommand s)

/-! ### Restart -/

/-- R45, step 2: the pending take of every destination is cancelled, without an event. -/
def restartTakes (s : State) : State := forAll 48 (fun d => modRoute d (fun r => { r with take := none })) s

/-- R45, step 3: the entries in FETCHING, ascending. -/
def fetchingEntries (s : State) : List Nat := (List.range 128).filter (fun e => (s.entry e).state == .fetching)

/-- R45, step 4: the entries that Restart closes, ascending. -/
def openEntries (s : State) : List Nat := (List.range 128).filter (fun e => (s.entry e).state.isOpen)

/-- R45. -/
def cuRestartCommand (_ : Nat → Nat) (s : State) : State × (Reply ⊕ Job) :=
  let s1 := restartTakes (lpuAllHoldsToSlate (s.withLpu { s.lpu with mode := .restarting }))
  let s2 := (fetchingEntries s1).foldl (fun t e => t.setEntry e .blank) s1
  let s3 := (openEntries s2).foldl (fun t e => btClose e .restart t) s2
  (s3, .inr (.restarting (openEntries s2).length (fetchingEntries s1).length))

def execRestart (s : State) : Out := .next (runLongCommand 0x0204 cuRestartCommand s)

/-- R46, steps 1 to 5. -/
def restartClear (s : State) : State :=
  let s1 := ((s.withFm { s.fm with records := [] }).withRu { s.ru with routes := [] }).withGa .afterReset
  let s2 := forAll 48 dmEndRestart s1
  s2.withLpu { s2.lpu with mode := .config, latches := [] }

/-- RESTART_FINISH: a Restart executes and no entry stands in CLOSING (R46). -/
def restartFinish (s : State) : State :=
  match s.cu.executing with
  | some ⟨n, data, .restarting closed abandoned⟩ =>
    if (List.range 128).any (fun e => (s.entry e).state == .closing) then s
    else cuFinish n data { code := .done, detail := 0, words := [closed, abandoned] } (restartClear s)
  | _ => s

def execRestartFinish (s : State) : Out := .next (restartFinish s)

end Sys2Proof.Machine
end

