-- ==== Sys2Proof/Machine/Dispatch.lean ====
section
/-! DEFINITION. One arm for each row of the command table: its meaning. -/

namespace Sys2Proof.Machine

def exec (i : Instr) (s : State) : Host.Outcome State Fault Refusal :=
  match i with
  | .powerOnReset strapBase strapInit => Sys2Proof.Machine.execPowerOnReset strapBase strapInit s
  | .commandSlotWrite r => Sys2Proof.Machine.execCommandSlotWrite r s
  | .busyHandover => Sys2Proof.Machine.execBusyHandover s
  | .consumerIndexWrite r => Sys2Proof.Machine.execConsumerIndexWrite r s
  | .controlAreaRequest r => Sys2Proof.Machine.execControlAreaRequest r s
  | .ringWrite r => Sys2Proof.Machine.execRingWrite r s
  | .ringRead r => Sys2Proof.Machine.execRingRead r s
  | .windowRead r => Sys2Proof.Machine.execWindowRead r s
  | .windowWrite r => Sys2Proof.Machine.execWindowWrite r s
  | .otherRequest r => Sys2Proof.Machine.execOtherRequest r s
  | .downstreamGrant => Sys2Proof.Machine.execDownstreamGrant s
  | .ownRequestSubmit => Sys2Proof.Machine.execOwnRequestSubmit s
  | .passedResponse initiator tag resp => Sys2Proof.Machine.execPassedResponse initiator tag resp s
  | .windowReadResponse initiator tag resp => Sys2Proof.Machine.execWindowReadResponse initiator tag resp s
  | .ownWriteResponse tag resp => Sys2Proof.Machine.execOwnWriteResponse tag resp s
  | .descriptorReadResponse tag resp => Sys2Proof.Machine.execDescriptorReadResponse tag resp s
  | .referenceMark u => Sys2Proof.Machine.execReferenceMark u s
  | .markDeadline => Sys2Proof.Machine.execMarkDeadline s
  | .localMillisecond => Sys2Proof.Machine.execLocalMillisecond s
  | .windowCeiling e => Sys2Proof.Machine.execWindowCeiling e s
  | .allowanceExpiry e => Sys2Proof.Machine.execAllowanceExpiry e s
  | .suspensionCeiling e => Sys2Proof.Machine.execSuspensionCeiling e s
  | .retryInterval f => Sys2Proof.Machine.execRetryInterval f s
  | .lossTimeout f => Sys2Proof.Machine.execLossTimeout f s
  | .barRelease f => Sys2Proof.Machine.execBarRelease f s
  | .takeTimeout d => Sys2Proof.Machine.execTakeTimeout d s
  | .freezeLimit d => Sys2Proof.Machine.execFreezeLimit d s
  | .revertHold d => Sys2Proof.Machine.execRevertHold d s
  | .adaptationPeriodEnd d => Sys2Proof.Machine.execAdaptationPeriodEnd d s
  | .impairmentHoldEnd d => Sys2Proof.Machine.execImpairmentHoldEnd d s
  | .holdLimitExpiry d => Sys2Proof.Machine.execHoldLimitExpiry d s
  | .badCommand => Sys2Proof.Machine.execBadCommand s
  | .setRingDepth => Sys2Proof.Machine.execSetRingDepth s
  | .defineFeedRing => Sys2Proof.Machine.execDefineFeedRing s
  | .defineWindow => Sys2Proof.Machine.execDefineWindow s
  | .setMonitorInitiators => Sys2Proof.Machine.execSetMonitorInitiators s
  | .enterRun => Sys2Proof.Machine.execEnterRun s
  | .enterConfig => Sys2Proof.Machine.execEnterConfig s
  | .setEventMask => Sys2Proof.Machine.execSetEventMask s
  | .setNotice => Sys2Proof.Machine.execSetNotice s
  | .reportStatus => Sys2Proof.Machine.execReportStatus s
  | .restart => Sys2Proof.Machine.execRestart s
  | .restartFinish => Sys2Proof.Machine.execRestartFinish s
  | .setTime => Sys2Proof.Machine.execSetTime s
  | .setReferenceMode => Sys2Proof.Machine.execSetReferenceMode s
  | .setReferenceWindow => Sys2Proof.Machine.execSetReferenceWindow s
  | .reportTime => Sys2Proof.Machine.execReportTime s
  | .setFeedParameters => Sys2Proof.Machine.execSetFeedParameters s
  | .clearFeed => Sys2Proof.Machine.execClearFeed s
  | .reportFeed => Sys2Proof.Machine.execReportFeed s
  | .loadBooking => Sys2Proof.Machine.execLoadBooking s
  | .cancel => Sys2Proof.Machine.execCancel s
  | .advance => Sys2Proof.Machine.execAdvance s
  | .release => Sys2Proof.Machine.execRelease s
  | .extend => Sys2Proof.Machine.execExtend s
  | .reportBooking => Sys2Proof.Machine.execReportBooking s
  | .reportDestination => Sys2Proof.Machine.execReportDestination s
  | .take => Sys2Proof.Machine.execTake s
  | .cue => Sys2Proof.Machine.execCue s
  | .confirm => Sys2Proof.Machine.execConfirm s
  | .uncue => Sys2Proof.Machine.execUncue s
  | .setDestinationParameters => Sys2Proof.Machine.execSetDestinationParameters s
  | .setLag => Sys2Proof.Machine.execSetLag s
  | .loadTariff => Sys2Proof.Machine.execLoadTariff s
  | .resetAssertion => Sys2Proof.Machine.execResetAssertion s

end Sys2Proof.Machine
end

