-- ==== Sys2Proof/Safety.lean ====
section
/-! DEFINITION. The terms in which statements about the part are made: the own requests not yet downstream, what the
acceptance of a record, an event and a result does, when a command starts and what it gives, and the invariants that every
step keeps. -/

namespace Sys2Proof.Machine

/-! ### Own requests and records -/

/-- The own requests that have not gone downstream, in submission order: the own request queue, then the work that waits in
the RW (R19, R34). -/
def ownWork (s : State) : List OwnRequest := s.lpu.ownQueue ++ s.rw.waiting

/-- `s` with that own request queue, that waiting work and that running tag. -/
def State.withOwnWork (queue waiting : List OwnRequest) (tag : Nat) (s : State) : State :=
  (s.withLpu { s.lpu with ownQueue := queue, nextTag := tag }).withRw { s.rw with waiting := waiting }

/-- The place after the producer index of a ring. -/
def nextPlace (id : RingId) (s : State) : Nat := ((s.ring id).producer + 1) % id.size

/-- R34: the two own writes of a record accepted in `s`: the record at its place, then the producer word. -/
def recordWrites (id : RingId) (bytes : List Byte) (s : State) : List OwnRequest :=
  [ { req := { kind := .write,
               addr := BitVec.ofNat 40 (s.controlBase + id.recordOffset + (s.ring id).producer * id.recordSize),
               len := id.recordSize, initiator := s.lpu.strapInit, tag := s.lpu.nextTag, data := bytes },
      kind := .record id },
    { req := { kind := .write, addr := BitVec.ofNat 40 (s.controlBase + id.producerOffset), len := 4,
               initiator := s.lpu.strapInit, tag := s.lpu.nextTag + 1, data := le 4 (nextPlace id s) },
      kind := .producer id (nextPlace id s) } ]

/-- R34: `t` is `s` after the RW has accepted a record of `bytes` into ring `id`: the producer index has advanced, the two own
writes stand behind the own work, and nothing else differs. -/
def Accepted (id : RingId) (bytes : List Byte) (s t : State) : Prop :=
  ownWork t = ownWork s ++ recordWrites id bytes s ∧
  t = (s.setRing id { s.ring id with producer := nextPlace id s }).withOwnWork t.lpu.ownQueue t.rw.waiting
    (s.lpu.nextTag + 2)

/-- R39, R40: `t` is `s` after the RW has received an event: nothing of a disabled class, two counts where the ring is full,
else a record with the stamp and the lost count, which becomes 0. -/
def Raised (cls : EventClass) (kind subject : Nat) (words : List Nat) (s t : State) : Prop :=
  if s.rw.mask.getLsbD cls.num then
    if s.ringFull .event then
      t = s.withRw { s.rw with
        lostCount := min 65535 (s.rw.lostCount + 1), lostTotal := min 4294967295 (s.rw.lostTotal + 1) }
    else
      Accepted .event (eventBytes cls kind subject words s.rw.lostCount s.tb.seconds s.tb.millis)
        (s.withRw { s.rw with lostCount := 0 }) t
  else t = s

/-! ### Commands of the Command Unit -/

/-- R29 to R31: the command at the head of the queue may start, has the code, stands in slot `n` with the captured bytes
`data`, and leaves `rest` behind it. -/
def Starts (code : Nat) (s : State) (n : Nat) (data : List Byte) (rest : List Nat) : Prop :=
  cuNext s = some (n, data, rest) ∧ commandCode data = code

/-- `s` after the head has left the command queue. -/
def State.started (rest : List Nat) (s : State) : State := s.withCu { s.cu with queue := rest }

/-- R31: `t` is `u` after the result `r` of slot `n` has been handed to the RW: its record is accepted, the slot is free and
nothing executes. -/
def Answered (n : Nat) (data : List Byte) (r : Reply) (u t : State) : Prop :=
  ∃ v, Accepted .result (resultBytes (commandCode data) (commandTag data) n r) u v ∧
    t = (v.setSlotData n none).withCu { (v.setSlotData n none).cu with executing := none }

/-- The row `c` answers a next state: the result `r` of slot `n` handed over on the state `u` that the owner has made. -/
def Gives (c : Instr) (s : State) (n : Nat) (data : List Byte) (u : State) (r : Reply) : Prop :=
  ∃ t, exec c s = .next t ∧ Answered n data r u t

/-! ### The link -/

/-- A request at the tail of the forwarding queue. -/
def State.withForward (x : Forward) (s : State) : State :=
  s.withLpu { s.lpu with forwarding := s.lpu.forwarding ++ [x] }

/-- `s` after request `r` has entered the forwarding queue unchanged. -/
def State.passed (r : Request) (s : State) : State := s.withForward { req := r, origin := .passed }

/-- `s` after the window read `r` of `d`, window slot `slot`, has entered the forwarding queue at address `a`. -/
def State.servedAt (d slot : Nat) (a : Addr) (r : Request) (s : State) : State :=
  s.withForward { req := { r with addr := a }, origin := .window d slot }

/-- `s` after a response to the initiator of `r` under its tag. -/
def State.answered (r : Request) (resp : Response) (s : State) : State :=
  s.withLpu { s.lpu with answers := s.lpu.answers ++ [⟨r.initiator, r.tag, resp⟩] }

/-- Address `a` lies in the region of `size` bytes at the base of `x`. -/
def Region.Covers (size a : Nat) (x : Region) : Prop := x.base.toNat ≤ a ∧ a < x.base.toNat + size

/-- The detail words of an ACCESS event (R201). -/
def accessWords (r : Request) : List Nat :=
  [r.initiator.toNat, r.addr.toNat % 4294967296, r.addr.toNat / 4294967296, 0]

/-- `r` is a read of window slot `slot` at offset `o` by the assigned reader of `d`, accepted by the LPU, and `d` has no hold
list entry. -/
def ReaderAt (s : State) (d slot o : Nat) (r : Request) : Prop :=
  lpuAccepts s = true ∧ classify s r.addr.toNat = .window d ∧ r.kind = .read ∧ s.hold d = none ∧
  ∃ x, s.windowDef d = some x ∧ x.agent = r.initiator.toNat ∧ slot = (r.addr.toNat - x.base.toNat) / 2048 ∧
    o = (r.addr.toNat - x.base.toNat) % 2048

/-- `a` is the remapped address of offset `o` of a served slot (R16). -/
def RemappedTo (s : State) (x : Served) (o : Nat) (a : Addr) : Prop :=
  match x with
  | .slate => a = BitVec.ofNat 40 (s.controlBase + 0x12000 + o)
  | .ring f q => ∃ y, s.ringDef f = some y ∧ a = BitVec.ofNat 40 (y.base.toNat + q * 2048 + o)

/-- R16: `y` is the window read `r` of `d` as it goes downstream, remapped to the served slot `x`. -/
def State.Sends (s : State) (x : Served) (d : Nat) (r : Request) (y : Forward) : Prop :=
  ∃ w a, s.windowDef d = some w ∧ RemappedTo s x ((r.addr.toNat - w.base.toNat) % 2048) a ∧
    y = { req := { r with addr := a }, origin := .window d ((r.addr.toNat - w.base.toNat) / 2048) }

/-- `r` is a request at offset `o` of slot `w` in the ring of feed `f`, accepted by the LPU; `x` is the ring's definition. -/
def RingAt (s : State) (f w o : Nat) (x : Region) (r : Request) : Prop :=
  lpuAccepts s = true ∧ s.ringDef f = some x ∧ classify s r.addr.toNat = .ring f (r.addr.toNat - x.base.toNat) ∧
  w = (r.addr.toNat - x.base.toNat) / 2048 ∧ o = (r.addr.toNat - x.base.toNat) % 2048

/-- `r` is a write of the assigned writer at offset `o` of slot `w` in the ring of feed `f`, accepted by the LPU. -/
def WriterAt (s : State) (f w o : Nat) (r : Request) : Prop :=
  r.kind = .write ∧ ∃ x, RingAt s f w o x r ∧ x.agent = r.initiator.toNat

/-- `r` is a request at `offset` of the control area, accepted by the LPU. -/
def ControlAt (s : State) (offset : Nat) (r : Request) : Prop :=
  lpuAccepts s = true ∧ classify s r.addr.toNat = .control offset

/-- Nothing falls due on the oscillator in the millisecond in progress: no read is held, and no deadline of an expected mark
lies in it (R54, R159). -/
def NothingDue (s : State) : Prop :=
  s.lpu.holds = [] ∧ ∀ x, s.tb.expected = some x → s.tb.msStart + 1000 ≤ x + s.tb.window

/-- At the coming local millisecond no meter limit, no interval of a feed and no second falls due (R49, R82, R84, R85, R105), so
that of the tests of the event those of the routes and deliveries alone may act. -/
def OnlyTimersDue (s : State) : Prop :=
  s.tb.millis < 999 ∧ s.tb.seconds ≤ s.tb.reported ∧
  (∀ e < 128, let x := s.entry e
    (x.state = .live → x.meters.window + 1 < 86400000) ∧
    (x.state = .overrun → x.meters.over + 1 < x.desc.allowance * 60000) ∧
    (x.state = .suspended → x.meters.su + 1 < 86400000)) ∧
  ∀ f < 64, ∀ r, s.feedRec f = some r →
    r.retryDue (s.feedParams f) = false ∧ r.lossDue (s.feedParams f) = false ∧ r.barDue (s.feedParams f) = false

/-! ### Invariants -/

/-- The capacities of the part: 32 requests in the forwarding queue (R10), 16 in the own request queue (R19), 8 records in the
pending billing queue (R190), 8 entries in the hold list, at most one for a destination (R158); and the ring depth is unset or
one of the five of R6. -/
def State.inBounds (s : State) : Bool :=
  s.lpu.forwarding.length ≤ 32 && s.lpu.ownQueue.length ≤ 16 && s.rw.pendingBilling.length ≤ 8 &&
    s.lpu.holds.length ≤ 8 && decide (s.lpu.holds.map HoldEntry.dest).Nodup &&
    s.lpu.depth.all (fun n => [64, 128, 256, 512, 1024].contains n)

/-- R190: while the pending billing queue is not empty the billing ring is full, and while an entry waits with its record
unplaced the queue holds its 8 records. -/
def State.billingInOrder (s : State) : Bool :=
  s.rw.pendingBilling.length ≤ 8 && (s.rw.pendingBilling.isEmpty || s.ringFull .billing) &&
    ((waitingEntries s).isEmpty || s.rw.pendingBilling.length == 8)

/-- R115, R116: every holder is an entry in PREROLL, LIVE or OVERRUN whose destination it is; every grant queue holds, once
each, only entries in WAITING or SUSPENDED whose destination it is, a suspended one with the state it left (R101); and a
record stands only in an entry in CLOSING (R191). -/
def State.grantsInOrder (s : State) : Prop :=
  (∀ d e, s.holder d = some e →
    (s.entry e).state ∈ [.preroll, .live, .overrun] ∧ (s.entry e).desc.dest = d) ∧
  (∀ d, (s.grantQueue d).Nodup ∧ ∀ e ∈ s.grantQueue d,
    (s.entry e).state ∈ [.waiting, .suspended] ∧ (s.entry e).desc.dest = d ∧
    ((s.entry e).state = .suspended → (s.entry e).resume ∈ [some .preroll, some .live, some .overrun])) ∧
  ∀ e, (s.entry e).record ≠ none → (s.entry e).state = .closing

end Sys2Proof.Machine
end

