-- ==== Sys2Proof/Certificates/Slice0/Obligations.lean ====
section
/-! DEFINITION. The statements about the part: what each row of the command table does, where it completes, what it leaves
unchanged, and the invariants that every step keeps. A statement gives the next state whole where the rule fixes it whole;
a field it does not name in an equation of states is unchanged. -/

section

open Sys2Proof Sys2Proof.Machine

/-! ### The whole part -/

/-- A step takes the command at the front of the queue. That an empty queue lets the block idle is the model's choice
(log entry 1). -/
def Obligations.StepRunsTheFrontCommand : Prop :=
  (∀ (c : Instr) (rest : List Instr) (s : State), step (s.withPending (c :: rest)) = exec c (s.withPending rest)) ∧
  ∀ s : State, s.pending = [] → step s = .next s

/-- Every row of the table answers a next state in every state: the manual gives an effect to every row. The queue of
waiting commands is the model's own (log entry 1), and a row leaves it as it finds it. A row whose step does not come
about (log entry 3), a request that is held back (log entry 4) and a row whose interval is not reached (log entry 7)
answer the same state; that they complete too is the model's choice. -/
def Obligations.EveryCommandCompletes : Prop :=
  ∀ (c : Instr) (s : State), ∃ t, exec c s = .next t ∧ t.pending = s.pending

/-- The values after reset: Tables 1-1, 2-3 and 2-5, the tables of Sections 3.1 and 3.3, R62, R64, R93, R115, R128, R151,
Table 8-1 and R176. The strap levels are the model's choice (log entry 2) and are not stated. -/
def Obligations.ResetLeavesTheTables : Prop :=
  ∀ s : State, s = State.reset →
    (s.lpu.mode = .config ∧ s.lpu.depth = none ∧ (∀ f, s.ringDef f = none ∧ s.foreignWrites f = 0) ∧
      (∀ d, s.windowDef d = none ∧ s.latch d = none) ∧ s.lpu.monitors = [255, 255, 255, 255] ∧ s.lpu.holds = [] ∧
      s.lpu.forwarding = [] ∧ s.lpu.ownQueue = [] ∧ s.lpu.waitingCount = 0 ∧ s.lpu.unauthReads = 0 ∧
      s.lpu.windowWrites = 0) ∧
    ((∀ n, s.slotData n = none) ∧ s.cu.queue = [] ∧ s.cu.executing = none ∧ s.cu.busy = [] ∧ s.cu.ignored = 0) ∧
    ((∀ id, s.ring id = ⟨0, 0, 0⟩) ∧ s.rw.pendingBilling = [] ∧
      (∀ i, s.rw.mask.getLsbD i = decide (i < 9 ∧ i ≠ 2)) ∧ s.rw.lostCount = 0 ∧ s.rw.lostTotal = 0 ∧
      s.rw.noticeResult = false ∧ s.rw.noticeEvent = false ∧ s.rw.noticeBilling = false ∧ s.rw.noticeLine = false ∧
      s.rw.badIndexWrites = 0 ∧ s.rw.ownWriteErrors = 0 ∧ s.rw.checkpointsLost = 0) ∧
    (s.tb.seconds = 0 ∧ s.tb.millis = 0 ∧ s.tb.subMicros = 0 ∧ s.tb.reported = 0 ∧ s.tb.refMode = .off ∧
      s.tb.refState = .absent ∧ s.tb.window = 1000 ∧ s.tb.markCount = 0 ∧ s.tb.wanderCount = 0 ∧ s.tb.lastOffset = 0 ∧
      s.tb.firstMarkDue = true ∧ s.tb.consecutive = 0 ∧ s.tb.failed = 0 ∧ s.tb.expected = none ∧ s.tb.staged = none) ∧
    (∀ f, s.feedRec f = none ∧ s.feedParams f = ⟨32, 5, 2000, 200, 30000, 64, 16, 512⟩) ∧
    ((∀ e, (s.entry e).state = .empty) ∧ s.bt.requestCount = 0 ∧ s.bt.closeCount = 0) ∧
    (∀ d, s.holder d = none ∧ s.grantQueue d = [] ∧ s.route d = none ∧ s.destParams d = ⟨1000, 2000, 30, 1000⟩ ∧
      s.delivery d = ⟨4, 16, false, 200, 0, 0, 0, 0, 0, 0, 0, 0, 0, .none⟩) ∧
    ∀ i, s.tariff i = none

/-- R1, R2, R33, R38, R61, R62, R64, R93, R115, R128, R151, R153, R176: power-on reset samples the straps and puts every
block into its reset state. Held reads and queued requests are answered ERROR, in the model's order (log entry 15);
upstream requests in memory's hands stay there. That the running number of the own tags goes on is the model's choice
(log entry 10), and so is the queue of waiting commands, which reset does not touch (log entry 1). -/
def Obligations.PowerOnResetRestoresEveryBlock : Prop :=
  ∀ (base : BitVec 20) (init : Initiator) (s : State),
    exec (.powerOnReset base init) s = .next
      { State.reset with
        lpu := { State.reset.lpu with
          strapBase := base, strapInit := init, nextTag := s.lpu.nextTag,
          issued := s.lpu.issued.filter Issued.isSwitch,
          answers := s.lpu.answers ++
            (s.lpu.holds.flatMap HoldEntry.reads ++ s.lpu.forwarding.map Forward.req ++
              s.lpu.decidedReads.map Forward.req).map (fun r => ⟨r.initiator, r.tag, .error⟩) },
        pending := s.pending }

/-- R2, R61: from the assertion of the reset input on nothing is accepted from the switch and no mark is counted. R33, R93,
R115, R190: the executing command, the bookings with their places in the GA and the unplaced records are lost; that they
go at the assertion, before the release puts every block into its reset state, is the model's choice (log entry 15). A
request that is held back changes nothing, which is the model's choice as well (log entry 4). -/
def Obligations.ResetAssertionStopsThePart : Prop :=
  ∀ s : State, ∃ t, exec .resetAssertion s = .next t ∧ t.lpu.resetAsserted = true ∧ t.cu.executing = none ∧
    t.rw.pendingBilling = [] ∧ t.rw.waiting = [] ∧ (∀ e, (t.entry e).state = .empty) ∧
    (∀ d, t.holder d = none ∧ t.grantQueue d = []) ∧
    (∀ r, exec (.commandSlotWrite r) t = .next t ∧ exec (.consumerIndexWrite r) t = .next t ∧
      exec (.controlAreaRequest r) t = .next t ∧ exec (.ringWrite r) t = .next t ∧ exec (.ringRead r) t = .next t ∧
      exec (.windowRead r) t = .next t ∧ exec (.windowWrite r) t = .next t ∧ exec (.otherRequest r) t = .next t) ∧
    ∀ u, exec (.referenceMark u) t = .next t

/-- The three invariants hold after reset. -/
def Obligations.InvariantsHoldAtReset : Prop :=
  State.reset.inBounds = true ∧ State.reset.billingInOrder = true ∧ State.reset.grantsInOrder

/-- R6, R10, R19, R158, R190: every step keeps the capacities of the forwarding queue, the own request queue, the pending
billing queue and the hold list, with at most one hold entry for a destination, and keeps the ring depth unset or
legal. -/
def Obligations.StepKeepsTheBounds : Prop :=
  ∀ s t : State, s.inBounds = true → step s = .next t → t.inBounds = true

/-- R190: every step keeps the three billing stages in order. -/
def Obligations.StepKeepsTheBillingOrder : Prop :=
  ∀ s t : State, s.billingInOrder = true → step s = .next t → t.billingInOrder = true

/-- R115, R116: every step keeps every holder an entry in PREROLL, LIVE or OVERRUN of its own destination, and every grant
queue a list, without repeats, of entries in WAITING or SUSPENDED of its own destination. With these go the resume state of
a queued suspended entry (R101) and that a record stands only in an entry in CLOSING (R191), without which a step would not
keep them. -/
def Obligations.StepKeepsTheGrants : Prop :=
  ∀ s t : State, s.grantsInOrder → step s = .next t → t.grantsInOrder

/-! ### The link path -/

/-- R4, R10, Table 1-4: the class of an address is the first whose region contains it; in CONFIG the map is not applied.
In RESTARTING entered from CONFIG the regions of two rings or of two windows may overlap, and that an address in both is
then given to the lowest-numbered feed or destination is the model's choice (log entry 18). There the ring depth may also
be unset; that the regions then contain no address, so that the class is Other, is the model's choice as well (log entry
24). -/
def Obligations.ClassifyTakesTheFirstRegion : Prop :=
  ∀ (s : State) (a : Nat),
    (s.controlBase ≤ a → a < s.controlBase + 1048576 → classify s a = .control (a - s.controlBase)) ∧
    (¬(s.controlBase ≤ a ∧ a < s.controlBase + 1048576) →
      (s.lpu.mode = .config → classify s a = .other) ∧
      (s.lpu.mode ≠ .config →
        (∀ f x, f < 64 → s.ringDef f = some x → x.Covers (s.ringDepth * 2048) a →
          (∀ g y, g < f → s.ringDef g = some y → ¬y.Covers (s.ringDepth * 2048) a) →
          classify s a = .ring f (a - x.base.toNat)) ∧
        ((∀ g y, g < 64 → s.ringDef g = some y → ¬y.Covers (s.ringDepth * 2048) a) →
          (∀ d x, d < 48 → s.windowDef d = some x → x.Covers (s.ringDepth * 2048) a →
            (∀ g y, g < d → s.windowDef g = some y → ¬y.Covers (s.ringDepth * 2048) a) →
            classify s a = .window d) ∧
          ((∀ g y, g < 48 → s.windowDef g = some y → ¬y.Covers (s.ringDepth * 2048) a) →
            classify s a = .other))))

/-- R4, R10 to R13: the requests that are forwarded unchanged with no other effect: class Other, a control area request
that is not reported, a monitor's ring read, and a writer's write that is neither at a slot's start nor at its end. -/
def Obligations.UnreportedRequestsPassUnchanged : Prop :=
  ∀ (s : State) (r : Request),
    (lpuAccepts s = true → classify s r.addr.toNat = .other → exec (.otherRequest r) s = .next (s.passed r)) ∧
    (∀ offset, ControlAt s offset r →
      (r.kind = .read ∨ 0x400 ≤ offset ∧ (r.len ≠ 4 ∨ offset ≠ 0x404 ∧ offset ≠ 0x40C ∧ offset ≠ 0x414)) →
      exec (.controlAreaRequest r) s = .next (s.passed r)) ∧
    (∀ f w o x, RingAt s f w o x r → r.kind = .read → r.initiator.toNat ∈ s.lpu.monitors →
      exec (.ringRead r) s = .next (s.passed r)) ∧
    (∀ f w o, WriterAt s f w o r → o ≠ 0 → o + r.len ≠ 2048 → exec (.ringWrite r) s = .next (s.passed r))

/-- R12, R14, R15: a foreign write, an unauthorised read and a window write are answered ERROR, counted, and raise an
ACCESS event; the request is not forwarded and nothing else changes. -/
def Obligations.AccessFaultsAreCountedAndAnswered : Prop :=
  ∀ (s : State) (r : Request),
    (∀ f w o x, RingAt s f w o x r → r.kind = .write → x.agent ≠ r.initiator.toNat →
      ∃ t, exec (.ringWrite r) s = .next t ∧
        Raised .access 1 f (accessWords r)
          ((s.answered r .error).setForeignWrites f (min 4294967295 (s.foreignWrites f + 1))) t) ∧
    (∀ f w o x, RingAt s f w o x r → r.kind = .read → r.initiator.toNat ∉ s.lpu.monitors →
      ∃ t, exec (.ringRead r) s = .next t ∧
        Raised .access 2 f (accessWords r)
          ((s.answered r .error).withLpu { (s.answered r .error).lpu with
            unauthReads := min 4294967295 (s.lpu.unauthReads + 1) }) t) ∧
    (∀ d x, lpuAccepts s = true → classify s r.addr.toNat = .window d → s.windowDef d = some x → r.kind = .read →
      x.agent ≠ r.initiator.toNat →
      ∃ t, exec (.windowRead r) s = .next t ∧
        Raised .access 3 d (accessWords r)
          ((s.answered r .error).withLpu { (s.answered r .error).lpu with
            unauthReads := min 4294967295 (s.lpu.unauthReads + 1) }) t) ∧
    (∀ d, lpuAccepts s = true → classify s r.addr.toNat = .window d → r.kind = .write →
      ∃ t, exec (.windowWrite r) s = .next t ∧
        Raised .access 4 d (accessWords r)
          ((s.answered r .error).withLpu { (s.answered r .error).lpu with
            windowWrites := min 4294967295 (s.lpu.windowWrites + 1) }) t)

/-- R25, R27: a full block write with a non-zero code to a free slot is captured and the slot joins the command queue; to
an occupied slot it joins the busy list, unless the slot has an answer waiting there. The write reaches memory in both
cases. -/
def Obligations.CommandWriteIsCapturedOrBusy : Prop :=
  ∀ (s : State) (r : Request) (offset : Nat), ControlAt s offset r → offset < 0x400 → r.kind = .write → r.len = 64 →
    r.data.length = 64 → commandCode r.data ≠ 0 →
    (s.slotData (offset / 64) = none →
      exec (.commandSlotWrite r) s = .next
        (((s.passed r).setSlotData (offset / 64) (some r.data)).withCu
          { ((s.passed r).setSlotData (offset / 64) (some r.data)).cu with queue := s.cu.queue ++ [offset / 64] })) ∧
    (s.slotData (offset / 64) ≠ none → (∀ b ∈ s.cu.busy, b.slot ≠ offset / 64) →
      exec (.commandSlotWrite r) s = .next
        ((s.passed r).withCu { s.cu with
          busy := s.cu.busy ++ [⟨offset / 64, commandCode r.data, commandTag r.data⟩] })) ∧
    (s.slotData (offset / 64) ≠ none → (∃ b ∈ s.cu.busy, b.slot = offset / 64) →
      exec (.commandSlotWrite r) s = .next
        ((s.passed r).withCu { s.cu with ignored := min 4294967295 (s.cu.ignored + 1) }))

/-- R26: a command slot write that is not a full block write, or whose code is 0, is counted as ignored and changes no
slot, queue or captured command; it still reaches memory. -/
def Obligations.OtherCommandWritesAreIgnored : Prop :=
  ∀ (s : State) (r : Request) (offset : Nat), ControlAt s offset r → offset < 0x400 → r.kind = .write →
    (r.len ≠ 64 ∨ commandCode r.data = 0) →
    exec (.commandSlotWrite r) s = .next
      ((s.passed r).withCu { s.cu with ignored := min 4294967295 (s.cu.ignored + 1) })

/-- R36: a consumer value is accepted when it lies from the consumer index to the published producer, both ends included;
the present value changes nothing, and any other value is ignored and counted. The write reaches memory in every case. -/
def Obligations.ConsumerWriteIsJudged : Prop :=
  ∀ (s : State) (r : Request) (id : RingId) (v : Nat),
    (∃ offset, ControlAt s offset r ∧
      (id = .result ∧ offset = 0x404 ∨ id = .event ∧ offset = 0x40C ∨ id = .billing ∧ offset = 0x414)) →
    r.kind = .write → r.len = 4 → v = fromLE r.data →
    let size := id.size
    let c := (s.ring id).consumer
    let onTheWay := v < size ∧ modSub size v c ≤ modSub size (s.ring id).published c
    (onTheWay → v ≠ c → ∃ t, exec (.consumerIndexWrite r) s = .next t ∧ (t.ring id).consumer = v ∧
      t.rw.badIndexWrites = s.rw.badIndexWrites ∧ t.lpu.forwarding = (s.passed r).lpu.forwarding) ∧
    (onTheWay → v = c → exec (.consumerIndexWrite r) s = .next (s.passed r)) ∧
    (¬onTheWay → exec (.consumerIndexWrite r) s = .next
      ((s.passed r).withRw { s.rw with badIndexWrites := min 4294967295 (s.rw.badIndexWrites + 1) }))

/-- R37, R42, R193: an accepted consumer write that advances its index re-evaluates the notice line, and nothing else
changes for the result and event rings. For the billing ring the records go ring-ward: those of the pending billing
queue, oldest first, then those of the entries that wait in CLOSING, in close sequence order (pass 2). The ring takes as
many as it has room for, the queue the next 8, and each entry whose record has found a place leaves CLOSING; the others
wait on unchanged. With no entry waiting no event is raised. -/
def Obligations.ConsumerWriteFreesPlaces : Prop :=
  ∀ (s : State) (r : Request) (v : Nat), r.kind = .write → r.len = 4 → v = fromLE r.data →
    (∀ id, (ControlAt s 0x404 r ∧ id = .result ∨ ControlAt s 0x40C r ∧ id = .event) → v < id.size →
      modSub id.size v (s.ring id).consumer ≤ modSub id.size (s.ring id).published (s.ring id).consumer →
      v ≠ (s.ring id).consumer →
      let u := (s.passed r).setRing id { s.ring id with consumer := v }
      exec (.consumerIndexWrite r) s = .next (u.withRw { u.rw with
        noticeLine := (u.rw.noticeResult && u.rw.result.published != u.rw.result.consumer) ||
          (u.rw.noticeEvent && u.rw.event.published != u.rw.event.consumer) ||
          (u.rw.noticeBilling && u.rw.billing.published != u.rw.billing.consumer) })) ∧
    (ControlAt s 0x414 r → v < 512 →
      modSub 512 v s.rw.billing.consumer ≤ modSub 512 s.rw.billing.published s.rw.billing.consumer →
      v ≠ s.rw.billing.consumer →
      let line := (s.rw.noticeResult && s.rw.result.published != s.rw.result.consumer) ||
        (s.rw.noticeEvent && s.rw.event.published != s.rw.event.consumer) ||
        (s.rw.noticeBilling && s.rw.billing.published != v)
      let written := fun (t : State) =>
        (((ownWork t).drop (ownWork s).length).filter (fun o => o.kind == .record .billing)).map (fun o => o.req.data)
      ((∀ e < 128, (s.entry e).record = none) → ∃ t, exec (.consumerIndexWrite r) s = .next t ∧
        let k := min s.rw.pendingBilling.length (511 - modSub 512 s.rw.billing.producer v)
        t.rw.pendingBilling = s.rw.pendingBilling.drop k ∧
        t.rw.billing = ⟨if k = 0 then s.rw.billing.producer else (s.rw.billing.producer + k) % 512,
          s.rw.billing.published, v⟩ ∧
        written t = (s.rw.pendingBilling.take k).map BillRecord.bytes ∧
        t.rw.noticeLine = line ∧ t.rw.event = s.rw.event ∧ t.bt = s.bt) ∧
      ∀ waiting : List Nat, (∀ e, e ∈ waiting ↔ e < 128 ∧ (s.entry e).record ≠ none) →
        waiting.Pairwise (fun i j => (s.entry i).closeSeq.getD 0 < (s.entry j).closeSeq.getD 0) →
        s.rw.pendingBilling.length ≤ 8 → ∃ t, exec (.consumerIndexWrite r) s = .next t ∧
        let records := s.rw.pendingBilling ++ waiting.filterMap (fun e => (s.entry e).record)
        let room := 511 - modSub 512 s.rw.billing.producer v
        let leave := waiting.take (room + 8 - s.rw.pendingBilling.length)
        t.rw.pendingBilling = (records.drop room).take 8 ∧ written t = (records.take room).map BillRecord.bytes ∧
        t.rw.noticeLine = line ∧ (∀ e ∈ leave, (t.entry e).state = .empty ∨ (t.entry e).state = .fetching) ∧
        ∀ e, e ∉ leave → t.entry e = s.entry e)

/-- R20: the arbiter chooses by the waiting count. A producer word write that goes downstream also publishes its index
and re-evaluates the notice line (R34, R42), which the fields named here do not show. -/
def Obligations.ArbiterGrantsByWaitingCount : Prop :=
  ∀ s : State, s.lpu.resetAsserted = false →
    (∀ o rest, s.lpu.ownQueue = o :: rest → (s.lpu.waitingCount = 16 ∨ s.lpu.forwarding = []) →
      ∃ t, exec .downstreamGrant s = .next t ∧ t.lpu.issued = s.lpu.issued ++ [.own o] ∧ t.lpu.ownQueue = rest ∧
        t.lpu.forwarding = s.lpu.forwarding ∧ t.lpu.waitingCount = 0) ∧
    (∀ x rest, s.lpu.forwarding = x :: rest → (s.lpu.waitingCount ≠ 16 ∨ s.lpu.ownQueue = []) →
      ∃ t, exec .downstreamGrant s = .next t ∧ t.lpu.issued = s.lpu.issued ++ [.upstream x] ∧
        t.lpu.ownQueue = s.lpu.ownQueue ∧ rest <+: t.lpu.forwarding ∧
        t.lpu.waitingCount = s.lpu.waitingCount + (if s.lpu.ownQueue = [] then 0 else 1)) ∧
    (s.lpu.ownQueue = [] → s.lpu.forwarding = [] → exec .downstreamGrant s = .next s)

/-- R19, R34, R42: the RW submits its oldest waiting request when the own request queue has a place, in its own order,
and waits while the queue holds 16 requests. When a producer word write is forwarded, its ring's published producer takes
its value and the notice line is re-evaluated. -/
def Obligations.OwnRequestsKeepTheirOrder : Prop :=
  (∀ s : State,
    (∀ o rest, s.rw.waiting = o :: rest → s.lpu.ownQueue.length < 16 →
      exec .ownRequestSubmit s = .next
        ((s.withRw { s.rw with waiting := rest }).withLpu { s.lpu with ownQueue := s.lpu.ownQueue ++ [o] })) ∧
    ((s.rw.waiting = [] ∨ 16 ≤ s.lpu.ownQueue.length) → exec .ownRequestSubmit s = .next s)) ∧
  ∀ (s : State) (o : OwnRequest) (rest : List OwnRequest) (id : RingId) (index : Nat), s.lpu.resetAsserted = false →
    s.lpu.ownQueue = o :: rest → s.lpu.forwarding = [] → o.kind = .producer id index →
    let u := (s.withLpu { s.lpu with ownQueue := rest, waitingCount := 0, issued := s.lpu.issued ++ [.own o] }).setRing id
      { s.ring id with published := index }
    exec .downstreamGrant s = .next (u.withRw { u.rw with
      noticeLine := (u.rw.noticeResult && u.rw.result.published != u.rw.result.consumer) ||
        (u.rw.noticeEvent && u.rw.event.published != u.rw.event.consumer) ||
        (u.rw.noticeBilling && u.rw.billing.published != u.rw.billing.consumer) })

/-- R21: the response to a passed request returns upstream under its tag; a completion of a remapped window read
likewise, with the data read. Nothing else changes. -/
def Obligations.ResponsesReturnUpstream : Prop :=
  ∀ (s : State) (x : Forward) (before after : List Issued) (resp : Response),
    s.lpu.issued = before ++ .upstream x :: after →
    (∀ y ∈ before, ∀ z, y = .upstream z → z.req.initiator ≠ x.req.initiator ∨ z.req.tag ≠ x.req.tag) →
    let t := s.withLpu { s.lpu with
      issued := before ++ after, answers := s.lpu.answers ++ [⟨x.req.initiator, x.req.tag, resp⟩] }
    (x.origin = .passed → exec (.passedResponse x.req.initiator x.req.tag resp) s = .next t) ∧
    (∀ d slot, x.origin = .window d slot → (∃ data, resp = .done data) →
      exec (.windowReadResponse x.req.initiator x.req.tag resp) s = .next t)

/-- R165, R171: a remapped window read that memory answers ERROR is returned to its reader, counted at its destination,
starts the impairment hold and raises READ_ERROR; the route and the latch are unchanged. -/
def Obligations.WindowReadErrorIsCounted : Prop :=
  ∀ (s : State) (x : Forward) (after : List Issued) (d slot : Nat) (rt : Route),
    s.lpu.issued = .upstream x :: after → x.origin = .window d slot → s.route d = some rt → s.lpu.mode ≠ .config →
    s.lpu.resetAsserted = false →
    let n := min 4294967295 ((s.delivery d).readErrors + 1)
    ∃ t u, exec (.windowReadResponse x.req.initiator x.req.tag .error) s = .next t ∧
      Raised .slip 5 d [slot, rt.source.num, n] u t ∧
      u.lpu.issued = after ∧ u.lpu.answers = s.lpu.answers ++ [⟨x.req.initiator, x.req.tag, .error⟩] ∧
      (u.delivery d).readErrors = n ∧
      (u.delivery d).impairment = max (s.delivery d).impairment (s.destParams d).impairmentHold ∧
      (u.delivery d).repeatSlips = (s.delivery d).repeatSlips ∧ (u.delivery d).dropSlips = (s.delivery d).dropSlips ∧
      u.ru = s.ru ∧ u.lpu.latches = s.lpu.latches ∧ u.bt = s.bt ∧ u.rw = s.rw

/-- R35: an own write that memory answers with ERROR is counted and is taken as written: every index and queue stands as
after a completion, which changes nothing. -/
def Obligations.OwnWriteErrorIsCounted : Prop :=
  ∀ (s : State) (o : OwnRequest) (before after : List Issued) (resp : Response),
    s.lpu.issued = before ++ .own o :: after → o.kind ≠ .descriptor →
    (∀ y ∈ before, ∀ z, y = .own z → z.req.tag ≠ o.req.tag) →
    let t := s.withLpu { s.lpu with issued := before ++ after }
    exec (.ownWriteResponse o.req.tag resp) s = .next
      (if resp = .error then t.withRw { s.rw with ownWriteErrors := min 4294967295 (s.rw.ownWriteErrors + 1) } else t)

/-! ### Window reads, slot starts and the hold list -/

/-- R18: a window read that is no slot start is remapped to the latched source, or, for a slot that is not latched, to
the slot the route's phase points to; the RU is not asked and nothing else changes. -/
def Obligations.LatchedReadKeepsItsSource : Prop :=
  ∀ (s : State) (d slot o : Nat) (r : Request) (a : Addr), ReaderAt s d slot o r →
    (∀ x, s.latch d = some ⟨slot, .decided x⟩ → RemappedTo s x o a →
      exec (.windowRead r) s = .next (s.servedAt d slot a r)) ∧
    (64 ≤ o → (∀ l, s.latch d = some l → l.slot ≠ slot) →
      (∀ rt f, s.route d = some rt → rt.source = .feed f → RemappedTo s (.ring f ((slot + rt.phase) % s.ringDepth)) o a →
        exec (.windowRead r) s = .next (s.servedAt d slot a r)) ∧
      ((∀ rt, s.route d = some rt → rt.source = .slate) → RemappedTo s .slate o a →
        exec (.windowRead r) s = .next (s.servedAt d slot a r)))

/-- R155, steps 1 and 2: a slot start of a destination without a holder shows the slate: the current source becomes the
slate, every pending mapping change leaves, the freeze timer stops, the latch takes the slate, and the condition is NONE.
With a holder it does the same in RESTARTING, and in RUN while a change to slate is pending; a pending take stays as it
is. With a change to slate pending and no take, the restore test follows (R147): with the wanted and the selected feed
unusable nothing more, and otherwise a RESTORE take is requested to the wanted feed, or, where that is none or unusable,
to the selected feed (here one for which the arming search finds slot `p`, R132). The clauses hold for a route already on
the slate too: that the restore test is made at every slot start served under these steps, and not only where the source
becomes the slate, is the model's choice (log entry 14). -/
def Obligations.SlotStartGoesToSlate : Prop :=
  ∀ (s : State) (d slot o : Nat) (r : Request) (rt : Route) (a : Addr), ReaderAt s d slot o r → o < 64 →
    (∀ x, s.latch d ≠ some ⟨slot, .decided x⟩) → s.route d = some rt → RemappedTo s .slate o a →
    let slate : Route := { rt with source := .slate, change := none, freeze := none, revert := 0 }
    let shown := fun (u : State) (condition : Condition) =>
      (((u.setDelivery d { s.delivery d with condition := condition }).setLatch d
        (some ⟨slot, .decided .slate⟩)).servedAt d slot a r)
    (s.holder d = none → exec (.windowRead r) s = .next (shown (s.setRoute d (some slate)) .none)) ∧
    ∀ e, s.holder d = some e →
      (s.lpu.mode = .restarting → exec (.windowRead r) s = .next (shown (s.setRoute d (some slate)) .outage)) ∧
      (∀ tk, rt.change = some .toSlate → rt.take = some tk →
        exec (.windowRead r) s = .next (shown (s.setRoute d (some slate)) .outage)) ∧
      (s.lpu.mode = .run → rt.change = some .toSlate → rt.take = none →
        let back := (s.entry e).selected
        ((∀ w, rt.wanted = some w → s.usable w = false) → s.usable back = false →
          exec (.windowRead r) s = .next (shown (s.setRoute d (some slate)) .outage)) ∧
        ∀ g p, (rt.wanted = some g ∨ (∀ w, rt.wanted = some w → s.usable w = false) ∧ g = back) → s.usable g = true →
          ruSearch s d g = some p →
          let restored : Route := { slate with take := (some ⟨g, .restore, .ready, some p, false, 0⟩) }
          ∃ v, Raised .take 1 d [g, 7, 4, 255] (s.setRoute d (some { restored with revert := rt.revert })) v ∧
            exec (.windowRead r) s = .next (shown (v.setRoute d (some restored)) .outage))

/-- R155, step 6, R156 to R158, R162: with no ready take and no pending change, a slot start whose ring slot q is
available at a distance of at most N - 4 is served from it. One whose slot is not available waits in the hold list while
its feed is usable and an entry is free; with the hold list full it is a repeat slip, and with an unusable feed a freeze
repeat, which both set the phase back by one and show the slot before q, or the slate where that is not available. Step
4: with the slate as the source it is served from the slate. The latch takes the source. R17: a later read of the held
destination joins its entry, whatever its slot and offset. -/
def Obligations.SlotStartIsServedOrHeld : Prop :=
  (∀ (s : State) (d slot o : Nat) (r : Request) (rt : Route) (f : Nat) (x : FeedRecord) (e : Nat),
    ReaderAt s d slot o r → o < 64 → (∀ y, s.latch d ≠ some ⟨slot, .decided y⟩) → s.lpu.mode = .run →
    s.route d = some rt → s.holder d = some e → rt.source = .feed f → rt.change = none →
    (∀ tk, rt.take = some tk → tk.state ≠ .ready) → s.feedRec f = some x →
    let n := s.ringDepth
    let q := (slot + rt.phase) % n
    let dist := modSub n x.lastSlot q
    let free := 1 ≤ x.complete ∧ dist ≤ min (x.complete - 1) (n - 2)
    let usable := x.health = .healthy ∨ x.health = .degraded
    let before := modSub n q 1
    let shown : Served := if s.available f before then .ring f before else .slate
    let back : Route := { rt with phase := modSub n rt.phase 1 }
    let y := s.delivery d
    (∀ a, free → dist + 4 ≤ n → RemappedTo s (.ring f q) o a →
      exec (.windowRead r) s = .next ((s.setLatch d (some ⟨slot, .decided (.ring f q)⟩)).servedAt d slot a r)) ∧
    (¬free → usable → s.lpu.holds.length < 8 →
      exec (.windowRead r) s = .next ((s.setLatch d (some ⟨slot, .pending⟩)).withLpu
        { (s.setLatch d (some ⟨slot, .pending⟩)).lpu with
          holds := s.lpu.holds ++ [⟨d, f, q, slot, 0, y.holdLimit, [r]⟩] })) ∧
    (∀ a, ¬free → ¬usable → RemappedTo s shown o a →
      exec (.windowRead r) s = .next ((((s.setRoute d (some back)).setDelivery d
        { y with freezeRepeats := min 4294967295 (y.freezeRepeats + 1) }).setLatch d
          (some ⟨slot, .decided shown⟩)).servedAt d slot a r)) ∧
    (¬free → usable → 8 ≤ s.lpu.holds.length → ∃ t u, exec (.windowRead r) s = .next t ∧ u.lpu = s.lpu ∧
      Raised .slip 1 d [slot, if s.available f before then before else 65536, min 4294967295 (y.repeatSlips + 1), 1] u
        (t.withLpu { t.lpu with latches := s.lpu.latches, forwarding := s.lpu.forwarding }) ∧
      t.latch d = some ⟨slot, .decided shown⟩ ∧ t.route d = some back ∧
      (t.delivery d).repeatSlips = min 4294967295 (y.repeatSlips + 1) ∧
      (t.delivery d).periodRepeats = min 4294967295 (y.periodRepeats + 1) ∧
      (t.delivery d).impairment = max y.impairment (s.destParams d).impairmentHold ∧
      (t.entry e).slips = min 65535 ((s.entry e).slips + 1) ∧ t.fm = s.fm ∧ t.ga = s.ga ∧
      ∀ a, RemappedTo s shown o a → t.lpu.forwarding = s.lpu.forwarding ++ [⟨{ r with addr := a }, .window d slot⟩])) ∧
  (∀ (s : State) (d slot o : Nat) (r : Request) (rt : Route) (e : Nat) (a : Addr), ReaderAt s d slot o r → o < 64 →
    (∀ y, s.latch d ≠ some ⟨slot, .decided y⟩) → s.lpu.mode = .run → s.route d = some rt → s.holder d = some e →
    rt.source = .slate → rt.change ≠ some .toSlate → (∀ tk, rt.take = some tk → tk.state ≠ .ready) →
    RemappedTo s .slate o a →
    exec (.windowRead r) s = .next ((s.setLatch d (some ⟨slot, .decided .slate⟩)).servedAt d slot a r)) ∧
  ∀ (s : State) (d : Nat) (x : Region) (h : HoldEntry) (before after : List HoldEntry) (r : Request),
    lpuAccepts s = true → classify s r.addr.toNat = .window d → r.kind = .read → s.windowDef d = some x →
    x.agent = r.initiator.toNat → s.lpu.holds = before ++ h :: after → h.dest = d →
    (∀ y ∈ before ++ after, y.dest ≠ d) →
    exec (.windowRead r) s = .next (s.withLpu { s.lpu with
      holds := before ++ { h with reads := h.reads ++ [r] } :: after })

/-- R155, steps 3 and 5, R137, R138, R166. A READY take whose target is usable and whose slot p is available is applied at
a slot start: the start is served from p, the route takes the target, the holder's counts and the impairment hold follow,
and APPLIED is raised. One that fails the test waits for its source, or is armed again by a search, with its timer at 0,
and the start is decided without it, here on the slate; that a take which the search does not arm has no p and a clear
rough flag is the model's choice (log entry 22). With no ready take, a pending lag adjustment sets the phase: a lag
repeat one slot back, a lag reset to distance Λ; it is counted, starts the impairment hold and raises ADJUSTED, and the
start is decided by the new phase. -/
def Obligations.ReadyTakeAndLagActAtASlotStart : Prop :=
  (∀ (s : State) (d slot o : Nat) (r : Request) (rt : Route) (e : Nat) (tk : Take) (p : Nat),
    ReaderAt s d slot o r → o < 64 → (∀ y, s.latch d ≠ some ⟨slot, .decided y⟩) → s.lpu.mode = .run →
    s.route d = some rt → s.holder d = some e → rt.change ≠ some .toSlate → rt.take = some tk → tk.state = .ready →
    tk.slot = some p →
    let phase := modSub s.ringDepth p slot
    let x := s.entry e
    let onSlate := fun (again : Take) => ∀ a, rt.source = .slate → RemappedTo s .slate o a →
      exec (.windowRead r) s = .next (((s.setRoute d (some { rt with take := (some again) })).setLatch d
        (some ⟨slot, .decided .slate⟩)).servedAt d slot a r)
    (s.usable tk.target = true → s.available tk.target p = true → ∃ t u, exec (.windowRead r) s = .next t ∧
      u.lpu = s.lpu ∧
      Raised .take 2 d [tk.target, tk.reason.num, phase, p + (if tk.rough then 65536 else 0)] u
        (t.withLpu { t.lpu with latches := s.lpu.latches, forwarding := s.lpu.forwarding }) ∧
      t.latch d = some ⟨slot, .decided (.ring tk.target p)⟩ ∧
      t.route d = some { rt with
        source := .feed tk.target, phase := phase, wanted := none, take := none, change := none, freeze := none,
        failoverSince := rt.failoverSince && x.selected != tk.target, revert := 0 } ∧
      t.entry e = { x with
        takes := min 65535 (x.takes + 1), rough := x.rough || tk.rough,
        failovers := if tk.reason = .failover then min 255 (x.failovers + 1) else x.failovers } ∧
      (t.delivery d).impairment =
        (if tk.rough then max (s.delivery d).impairment (s.destParams d).impairmentHold else 0) ∧
      (t.delivery d).repeatSlips = (s.delivery d).repeatSlips ∧ (t.delivery d).dropSlips = (s.delivery d).dropSlips ∧
      t.fm = s.fm ∧ t.ga = s.ga ∧
      ∀ a, RemappedTo s (.ring tk.target p) o a →
        t.lpu.forwarding = s.lpu.forwarding ++ [⟨{ r with addr := a }, .window d slot⟩]) ∧
    (s.usable tk.target = false →
      onSlate { tk with state := .waitSource, slot := none, rough := false, timer := 0 }) ∧
    (s.usable tk.target = true → s.available tk.target p = false →
      (ruSearch s d tk.target = none →
        onSlate { tk with state := .arming, slot := none, rough := false, timer := 0 }) ∧
      ∀ q, ruSearch s d tk.target = some q →
        onSlate { tk with
          state := (if tk.reason = .cue then .cued else .ready), slot := some q, rough := false, timer := 0 })) ∧
  ∀ (s : State) (d slot o : Nat) (r : Request) (rt : Route) (f : Nat) (x : FeedRecord) (e : Nat) (change : Change)
      (kind phase : Nat),
    ReaderAt s d slot o r → o < 64 → (∀ y, s.latch d ≠ some ⟨slot, .decided y⟩) → s.lpu.mode = .run →
    s.route d = some rt → s.holder d = some e → rt.source = .feed f → rt.change = some change →
    (∀ tk, rt.take = some tk → tk.state ≠ .ready) → s.feedRec f = some x →
    let n := s.ringDepth
    let lag := (s.delivery d).lag
    let count := min 4294967295 ((s.delivery d).lagAdjustments + 1)
    (change, kind, phase) ∈ [(Change.lagRepeat, 1, modSub n rt.phase 1),
      (.lagReset, 2, modSub n (modSub n x.lastSlot lag) slot)] →
    let q := (slot + phase) % n
    let dist := modSub n x.lastSlot q
    1 ≤ x.complete → dist ≤ min (x.complete - 1) (n - 2) → dist + 4 ≤ n →
    ∃ t u, exec (.windowRead r) s = .next t ∧ u.lpu = s.lpu ∧
      Raised .slip 3 d [kind, phase, lag, count] u
        (t.withLpu { t.lpu with latches := s.lpu.latches, forwarding := s.lpu.forwarding }) ∧
      t.latch d = some ⟨slot, .decided (.ring f q)⟩ ∧ t.route d = some { rt with phase := phase, change := none } ∧
      (t.delivery d).lagAdjustments = count ∧ (t.delivery d).lag = lag ∧
      (t.delivery d).impairment = max (s.delivery d).impairment (s.destParams d).impairmentHold ∧
      (t.delivery d).repeatSlips = (s.delivery d).repeatSlips ∧ (t.delivery d).dropSlips = (s.delivery d).dropSlips ∧
      t.bt = s.bt ∧ t.fm = s.fm ∧ t.ga = s.ga ∧
      ∀ a, RemappedTo s (.ring f q) o a →
        t.lpu.forwarding = s.lpu.forwarding ++ [⟨{ r with addr := a }, .window d slot⟩]

/-- R156, R163, R164: a slot start at distance N - 3 or N - 2 is a drop slip. The destination reads again at distance Λ;
the slip, the units skipped and the holder's slips are counted, and the impairment hold is started. -/
def Obligations.DropSlipRestoresTheLag : Prop :=
  ∀ (s : State) (d slot o : Nat) (r : Request) (rt : Route) (f : Nat) (x : FeedRecord) (e : Nat),
    ReaderAt s d slot o r → o < 64 → (∀ y, s.latch d ≠ some ⟨slot, .decided y⟩) → s.lpu.mode = .run →
    s.route d = some rt → s.holder d = some e → rt.source = .feed f → rt.change = none → rt.take = none →
    s.feedRec f = some x →
    let n := s.ringDepth
    let dist := modSub n x.lastSlot ((slot + rt.phase) % n)
    let lag := (s.delivery d).lag
    let q := modSub n x.lastSlot lag
    1 ≤ x.complete → dist ≤ min (x.complete - 1) (n - 2) → n < dist + 4 →
    ∃ t u, exec (.windowRead r) s = .next t ∧
      u.lpu = s.lpu ∧ Raised .slip 2 d [slot, q, dist - lag, min 4294967295 ((s.delivery d).dropSlips + 1)] u
        (t.withLpu { t.lpu with latches := s.lpu.latches, forwarding := s.lpu.forwarding }) ∧
      t.latch d = some ⟨slot, .decided (.ring f q)⟩ ∧ t.route d = some { rt with phase := modSub n q slot } ∧
      (t.delivery d).dropSlips = min 4294967295 ((s.delivery d).dropSlips + 1) ∧
      (t.delivery d).unitsSkipped = min 4294967295 ((s.delivery d).unitsSkipped + (dist - lag)) ∧
      (t.delivery d).impairment = max (s.delivery d).impairment (s.destParams d).impairmentHold ∧
      (t.delivery d).repeatSlips = (s.delivery d).repeatSlips ∧
      (t.entry e).slips = min 65535 ((s.entry e).slips + 1) ∧ t.fm = s.fm ∧ t.ga = s.ga ∧
      ∀ a, RemappedTo s (.ring f q) o a →
        t.lpu.forwarding = s.lpu.forwarding ++ [⟨{ r with addr := a }, .window d slot⟩]

/-- R159 to R163, Table 8-4: the ends of a hold. At its limit the start is a repeat slip: it is served from the slot
before the held one, or from the slate where that is not available, the phase goes back by one, and REPEAT is raised. At
a completion that makes the held slot available it is served from that slot, with the phase unchanged. When its feed
becomes unusable it is a freeze repeat, which is no slip and raises nothing. R161: the reads that have joined are then
answered in order, here reads of the latched slot, from its source; a slot start among them that must wait again keeps
the entry, with the reads behind it. That HOLD_LIMIT_EXPIRY takes the oscillator to the expiry, where this lies within the
millisecond in progress, is the model's choice (log entry 8). The third part gives the two other ends as they come about
in RING_WRITE: by the completion that makes the held slot available, and by a completion without a header that makes a
DEGRADED feed FAILED. -/
def Obligations.HoldLimitMakesARepeatSlip : Prop :=
  (∀ (s : State) (d f q slot elapsed limit : Nat) (r : Request) (rs : List Request) (rt : Route) (e : Nat) (w : Region),
    s.lpu.resetAsserted = false → s.lpu.holds = [⟨d, f, q, slot, elapsed, limit, r :: rs⟩] → s.tb.expected = none →
    s.tb.subMicros + (limit - elapsed) < 1000 → s.route d = some rt → s.holder d = some e → s.windowDef d = some w →
    s.lpu.decidedReads = [] → s.lpu.forwarding.length + (r :: rs).length ≤ 32 →
    let n := s.ringDepth
    let before := modSub n q 1
    let shown : Served := if s.available f before then .ring f before else .slate
    let back : Route := { rt with phase := modSub n rt.phase 1 }
    let slips := min 4294967295 ((s.delivery d).repeatSlips + 1)
    let slipped := fun (t u : State) =>
      exec (.holdLimitExpiry d) s = .next t ∧ u.lpu = { s.lpu with holds := u.lpu.holds } ∧
      Raised .slip 1 d [slot, if s.available f before then before else 65536, slips, 0] u
        (t.withLpu { t.lpu with latches := s.lpu.latches, forwarding := s.lpu.forwarding, holds := u.lpu.holds }) ∧
      t.route d = some back ∧ (t.delivery d).repeatSlips = slips ∧
      (t.delivery d).periodRepeats = min 4294967295 ((s.delivery d).periodRepeats + 1) ∧
      (t.delivery d).dropSlips = (s.delivery d).dropSlips ∧
      (t.delivery d).impairment = max (s.delivery d).impairment (s.destParams d).impairmentHold ∧
      (t.entry e).slips = min 65535 ((s.entry e).slips + 1) ∧ t.fm = s.fm ∧ t.ga = s.ga
    ((∀ y ∈ rs, (y.addr.toNat - w.base.toNat) / 2048 = slot) → ∃ t u, slipped t u ∧ t.lpu.holds = [] ∧
      t.latch d = some ⟨slot, .decided shown⟩ ∧
      ∀ sent, List.Forall₂ (s.Sends shown d) (r :: rs) sent → t.lpu.forwarding = s.lpu.forwarding ++ sent) ∧
    ∀ r2 more x, rs = r2 :: more →
      let slot2 := (r2.addr.toNat - w.base.toNat) / 2048
      let q2 := (slot2 + back.phase) % n
      slot2 ≠ slot → (r2.addr.toNat - w.base.toNat) % 2048 < 64 → s.lpu.mode = .run → rt.source = .feed f →
      rt.change = none → (∀ tk, rt.take = some tk → tk.state ≠ .ready) → s.feedRec f = some x →
      (x.health = .healthy ∨ x.health = .degraded) → s.available f q2 = false →
      ∃ t u, slipped t u ∧ t.lpu.holds = [⟨d, f, q2, slot2, 0, (s.delivery d).holdLimit, r2 :: more⟩] ∧
        t.latch d = some ⟨slot2, .pending⟩ ∧
        ∀ y, s.Sends shown d r y → t.lpu.forwarding = s.lpu.forwarding ++ [y]) ∧
  (∀ (s : State) (d f : Nat) (h : HoldEntry) (rt : Route) (w : Region), s.hold d = some h → s.route d = some rt →
    s.windowDef d = some w → s.lpu.decidedReads = [] → s.lpu.forwarding.length + h.reads.length ≤ 32 → h.reads ≠ [] →
    (∀ y ∈ h.reads.tail, (y.addr.toNat - w.base.toNat) / 2048 = h.slot) →
    let rest := s.lpu.holds.filter (fun k => k.dest ≠ d)
    let before := modSub s.ringDepth h.ringSlot 1
    let shown : Served := if s.available f before then .ring f before else .slate
    let ended := fun (t : State) (x : Served) => t.lpu.holds = rest ∧ t.latch d = some ⟨h.slot, .decided x⟩ ∧
      ∀ sent, List.Forall₂ (s.Sends x d) h.reads sent → t.lpu.forwarding = s.lpu.forwarding ++ sent
    (h.feed = f → s.available f h.ringSlot = true → let t := lpuHoldCompletion d f s
      ended t (.ring f h.ringSlot) ∧ t.ru = s.ru ∧ t.dm = s.dm ∧ t.bt = s.bt ∧ t.rw = s.rw) ∧
    (h.feed ≠ f ∨ s.available f h.ringSlot = false → lpuHoldCompletion d f s = s) ∧
    (h.feed = f → let t := lpuHoldFreeze d f s
      ended t shown ∧ t.route d = some { rt with phase := modSub s.ringDepth rt.phase 1 } ∧
      t.delivery d =
        { s.delivery d with freezeRepeats := min 4294967295 ((s.delivery d).freezeRepeats + 1) } ∧
      t.bt = s.bt ∧ t.rw = s.rw) ∧
    (h.feed ≠ f → lpuHoldFreeze d f s = s)) ∧
  ∀ (s : State) (d f w o : Nat) (r : Request) (x : FeedRecord) (h : HoldEntry) (rt : Route) (win : Region), d < 48 →
    WriterAt s f w o r → o ≠ 0 → o + r.len = 2048 → s.feedRec f = some x → s.lpu.holds = [h] → h.dest = d → h.feed = f →
    s.route d = some rt → s.windowDef d = some win → s.lpu.forwarding.length + 1 + h.reads.length ≤ 32 → h.reads ≠ [] →
    (∀ y ∈ h.reads.tail, (y.addr.toNat - win.base.toNat) / 2048 = h.slot) →
    let before := modSub s.ringDepth h.ringSlot 1
    let shown : Served := if s.available f before then .ring f before else .slate
    let ended := fun (t : State) (source : Served) => t.lpu.holds = [] ∧ t.latch d = some ⟨h.slot, .decided source⟩ ∧
      ∀ sent, List.Forall₂ (s.Sends source d) h.reads sent → t.lpu.forwarding = (s.passed r).lpu.forwarding ++ sent
    (∀ head, h.ringSlot = w → x.openUnit = some ⟨w, some head⟩ → head.result = .inOrder →
      head.testSignal = x.testSignal → x.health = .healthy → x.score - 1 < (s.feedParams f).degradeThreshold →
      ∃ t, exec (.ringWrite r) s = .next t ∧ ended t (.ring f w) ∧
        (t.route d).map Route.phase = some rt.phase ∧ t.dm = s.dm ∧ t.bt = s.bt ∧ t.rw = s.rw) ∧
    ((∀ head, x.openUnit ≠ some ⟨w, some head⟩) → x.health = .degraded →
      (s.feedParams f).failThreshold ≤ min 1023 (x.score + 8) →
      ∃ t, exec (.ringWrite r) s = .next t ∧ ended t shown ∧
        (t.route d).map Route.phase = some (modSub s.ringDepth rt.phase 1) ∧
        (t.delivery d).freezeRepeats = min 4294967295 ((s.delivery d).freezeRepeats + 1) ∧
        (t.delivery d).repeatSlips = (s.delivery d).repeatSlips ∧
        (t.delivery d).dropSlips = (s.delivery d).dropSlips)

/-! ### Feeds -/

/-- R79: the availability of a slot. Its last sentences follow from it: the last completed slot is available as soon as
it completes, and the slot after it never is. -/
def Obligations.SlotAvailability : Prop :=
  ∀ (s : State) (f q : Nat),
    (s.available f q = true ↔ ∃ x, s.feedRec f = some x ∧ 1 ≤ x.complete ∧
      modSub s.ringDepth x.lastSlot q ≤ min (x.complete - 1) (s.ringDepth - 2)) ∧
    ∀ x, s.feedRec f = some x → 64 ≤ s.ringDepth → x.lastSlot < s.ringDepth →
      (1 ≤ x.complete → s.available f x.lastSlot = true) ∧ s.available f ((x.lastSlot + 1) % s.ringDepth) = false

/-- R72 to R74, Table 4-4: what the checks of a header give: the result, the score added, and the sequence state. -/
def Obligations.HeaderChecksFollowTheTable : Prop :=
  ∀ (f : Nat) (bytes : List Byte) (r : FeedRecord),
    let y := checkHeader f bytes r
    let seq := headerSequence bytes
    let delta := modSub 65536 seq r.expectedSeq
    let resynced := y.1.seqKnown = true ∧ y.1.lastSeq = seq ∧ y.1.expectedSeq = (seq + 1) % 65536
    let kept := y.1.seqKnown = r.seqKnown ∧ y.1.lastSeq = r.lastSeq ∧ y.1.expectedSeq = r.expectedSeq
    (headerMarker bytes ≠ 0x4B6A → y.2 = (⟨.malformed, false, false⟩, 8) ∧ kept) ∧
    (headerMarker bytes = 0x4B6A → headerFeedTag bytes ≠ f → y.2 = (⟨.misrouted, false, false⟩, 16) ∧ kept) ∧
    (headerMarker bytes = 0x4B6A → headerFeedTag bytes = f →
      y.2.1.pictureStart = (headerFlags bytes).testBit 0 ∧ y.2.1.testSignal = (headerFlags bytes).testBit 2 ∧
      (r.seqKnown = false → y.2.1.result = .first ∧ y.2.2 = 0 ∧ resynced) ∧
      (r.seqKnown = true → (headerFlags bytes).testBit 1 = true → y.2.1.result = .resync ∧ y.2.2 = 0 ∧ resynced) ∧
      (r.seqKnown = true → (headerFlags bytes).testBit 1 = false →
        (delta = 0 → y.2.1.result = .inOrder ∧ y.2.2 = 0 ∧ resynced) ∧
        (1 ≤ delta → delta ≤ 1023 → y.2.1.result = .gap ∧ y.2.2 = min delta 16 ∧ resynced) ∧
        (65472 ≤ delta → seq = r.lastSeq → y.2.1.result = .duplicate ∧ y.2.2 = 1 ∧ kept) ∧
        (65472 ≤ delta → seq ≠ r.lastSeq → y.2.1.result = .late ∧ y.2.2 = 2 ∧ kept) ∧
        (1024 ≤ delta → delta ≤ 65471 → y.2.1.result = .jump ∧ y.2.2 = 16 ∧ resynced)))

/-- R66 to R68, R71, R76, R81 to R83: the first writes of units and the scored errors. The first part says what an error of `k`
makes of a feed by its health state. A first write overwrites its slot: K falls to its distance from c and the list is pruned
with it; a header opens a headed unit, a partial first write a headerless one, and the write goes on to memory. Where a unit
is open it is torn, which scores 8 before the slot is overwritten; a header that scores does so before its unit opens. A
completion without a header scores 8 outside ABSENT and LOST and overwrites its slot; in
ABSENT and LOST it only ends the silence and closes a headerless unit at its slot (that the slot is not overwritten there
is the model's choice, log entry 19). That such a completion leaves the consecutive clean count as it is, in every state,
is the model's choice as well (log entry 25). -/
def Obligations.ScoredErrorsMoveHealth : Prop :=
  (∀ (s : State) (f k : Nat) (x : FeedRecord), s.feedRec f = some x →
    let p := s.feedParams f
    let t := fmScored f k s
    let y : FeedRecord := { x with score := min 1023 (x.score + k) }
    let more := min 15 (x.attempts + 1)
    let failed : FeedRecord := { y with health := .failed, attempts := more, stateTimer := 0 }
    (∀ g, g ≠ f → t.feedRec g = s.feedRec g) ∧ t.fm.params = s.fm.params ∧
    (x.health = .qualifying → t.feedRec f = some (if p.attemptLimit ≤ more then
      { y with health := .barred, attempts := more }
      else { y with health := .retryWait, attempts := more, stateTimer := 0 })) ∧
    (x.health = .healthy → t.feedRec f = some (
      if y.score < p.degradeThreshold then y else if y.score < p.failThreshold then { y with health := .degraded }
      else failed)) ∧
    (x.health = .degraded → t.feedRec f = some (
      if p.failThreshold ≤ y.score then failed else if y.score ≤ p.recoverThreshold then { y with health := .healthy }
      else y)) ∧
    (x.health ∈ [.absent, .retryWait, .failed, .lost, .barred] → t.feedRec f = some y)) ∧
  ∀ (s : State) (f w o : Nat) (r : Request) (x : FeedRecord), WriterAt s f w o r → s.feedRec f = some x →
    let n := s.ringDepth
    let cut := fun (z : FeedRecord) =>
      if 1 ≤ z.complete ∧ modSub n z.lastSlot w < z.complete then
        { z with complete := modSub n z.lastSlot w,
                 pictureStarts := z.pictureStarts.filter (fun p => modSub n z.lastSlot p < modSub n z.lastSlot w) }
      else z
    let count := fun c => min 4294967295 (c + 1)
    let torn : FeedRecord := { x with
      openUnit := none,
      counters := { x.counters with malformed := count x.counters.malformed, torn := count x.counters.torn } }
    (∀ v z, o = 0 → v = (if x.openUnit = none then s.passed r else fmScored f 8 ((s.passed r).setFeedRec f (some torn))) →
      v.feedRec f = some z →
      (r.len < 16 → exec (.ringWrite r) s = .next (v.setFeedRec f (some { cut z with openUnit := some ⟨w, none⟩ }))) ∧
      (16 ≤ r.len →
        let y := checkHeader f (r.data.take 16) (cut z)
        let u := v.setFeedRec f (some y.1)
        (y.2.2 = 0 → exec (.ringWrite r) s = .next (u.setFeedRec f (some { y.1 with openUnit := some ⟨w, some y.2.1⟩ }))) ∧
        (0 < y.2.2 → ∃ z2, (fmScored f y.2.2 u).feedRec f = some z2 ∧ exec (.ringWrite r) s = .next
          ((fmScored f y.2.2 u).setFeedRec f (some { z2 with openUnit := some ⟨w, some y.2.1⟩ }))))) ∧
    (o ≠ 0 → o + r.len = 2048 → (∀ head, x.openUnit ≠ some ⟨w, some head⟩) →
      let stays := if x.openUnit = some ⟨w, none⟩ then none else x.openUnit
      (x.health = .absent ∨ x.health = .lost → exec (.ringWrite r) s = .next
        ((s.passed r).setFeedRec f (some { x with silence := 0, openUnit := stays }))) ∧
      (x.health ≠ .absent → x.health ≠ .lost →
        let v := fmScored f 8 ((s.passed r).setFeedRec f (some { x with silence := 0 }))
        ∃ z, v.feedRec f = some z ∧ exec (.ringWrite r) s = .next (v.setFeedRec f (some { cut z with
          openUnit := stays, counters := { z.counters with malformed := count z.counters.malformed } }))))

/-- R69, R70, R77, R80, R81, R83: the completion of a headed open unit at slot w makes w the last completed slot and changes K
by contiguity; in ABSENT and LOST the feed enters QUALIFYING first, with K 0, an empty list and no clean run. The unit is
closed and counted, and the silence count becomes 0. A picture start of an IN_ORDER or GAP unit goes to the front of the
list, of which 8 stay, and entries beyond N/2 or outside K are removed. A clean unit lowers the score and lengthens the
clean run; the health state follows. -/
def Obligations.CompletionMovesTheLastSlot : Prop :=
  ∀ (s : State) (f w o : Nat) (r : Request) (x : FeedRecord) (head : UnitHead), WriterAt s f w o r → o ≠ 0 →
    o + r.len = 2048 → s.feedRec f = some x → x.openUnit = some ⟨w, some head⟩ →
    let n := s.ringDepth
    let p := s.feedParams f
    let awake := x.health = .absent ∨ x.health = .lost
    let k := if awake then 0 else x.complete
    let complete := if k = 0 then 1 else if w = (x.lastSlot + 1) % n then min n (k + 1) else 1
    let listed := if awake then [] else x.pictureStarts
    let pushed :=
      if head.pictureStart = true ∧ (head.result = .inOrder ∨ head.result = .gap) then
        (w :: listed.filter (fun q => q ≠ w)).take 8
      else listed
    let score := x.score - 1
    let run := min 255 ((if awake then 0 else x.cleanRun) + 1)
    ∃ t y, exec (.ringWrite r) s = .next t ∧ t.feedRec f = some y ∧ y.openUnit = none ∧ y.lastSlot = w ∧
      y.complete = complete ∧
      y.pictureStarts = pushed.filter (fun q => modSub n w q ≤ n / 2 ∧ modSub n w q < complete) ∧
      y.counters = { x.counters with completions := min 4294967295 (x.counters.completions + 1) } ∧ y.silence = 0 ∧
      y.testSignal = head.testSignal ∧ t.lpu.foreignWrites = s.lpu.foreignWrites ∧
      (∀ g, g ≠ f → t.feedRec g = s.feedRec g) ∧
      (head.result ≠ .inOrder → y.cleanRun = 0 ∧ y.score = x.score ∧ y.attempts = x.attempts ∧
        y.health = if awake then .qualifying else x.health) ∧
      (head.result = .inOrder → y.cleanRun = run ∧
        (awake ∨ x.health = .qualifying →
          (p.qualLength ≤ run → y.health = .healthy ∧ y.score = 0 ∧ y.attempts = 0) ∧
          (run < p.qualLength → y.health = .qualifying ∧ y.score = score ∧ y.attempts = x.attempts)) ∧
        (x.health = .healthy → score < p.degradeThreshold →
          y.health = .healthy ∧ y.score = score ∧ y.attempts = x.attempts) ∧
        (x.health = .degraded → score < p.failThreshold → y.score = score ∧ y.attempts = x.attempts ∧
          y.health = if score ≤ p.recoverThreshold then .healthy else .degraded) ∧
        (x.health ∈ [.retryWait, .failed, .barred] →
          y.health = x.health ∧ y.score = score ∧ y.attempts = x.attempts))

/-- R82, R84, R85, R87: the intervals of a feed, tested at a local millisecond on the counts it has advanced, with the
parameters as they stand then. The row of an interval that the coming event reaches is that event (log entry 7), and the
feed becomes what the rules give. A feed that enters QUALIFYING from FAILED after a silence already longer than the loss
timeout has its silence test a millisecond later, and one whose silence just reaches the timeout enters ABSENT at once
(log entry 16); one that enters BARRED may leave it at once (log entry 20). A row whose interval is not reached changes
nothing, and a millisecond that reaches none only counts. -/
def Obligations.FeedIntervalsMoveHealth : Prop :=
  ∀ (s : State) (f : Nat) (x : FeedRecord), s.lpu.resetAsserted = false → f < 64 → s.feedRec f = some x →
    let p := s.feedParams f
    let y : FeedRecord := { x with
      silence := min 4294967295 (x.silence + 1),
      stateTimer := if x.health = .retryWait ∨ x.health = .failed then min 4294967295 (x.stateTimer + 1)
        else x.stateTimer }
    let retry := (x.health = .retryWait ∨ x.health = .failed) ∧ p.retryInterval ≤ y.stateTimer
    let loss := p.lossTimeout ≤ y.silence
    let bar := p.barRelease ≠ 0 ∧ p.barRelease ≤ y.silence
    let become := fun (rows : List Instr) (z : FeedRecord) => ∃ t, exec .localMillisecond s = .next t ∧
      t.feedRec f = some z ∧ t.fm.params = s.fm.params ∧ ∀ c ∈ rows, exec c s = .next t
    (x.health = .retryWait → retry → ¬loss → become [.retryInterval f] { y with health := .qualifying, cleanRun := 0 }) ∧
    (x.health = .retryWait → retry → loss →
      become [.retryInterval f, .lossTimeout f] { y with health := .absent, cleanRun := 0, seqKnown := false }) ∧
    (x.health = .failed → retry →
      (x.attempts < p.attemptLimit → y.silence ≠ p.lossTimeout →
        become [.retryInterval f] { y with health := .qualifying, cleanRun := 0 }) ∧
      (x.attempts < p.attemptLimit → y.silence = p.lossTimeout →
        become [.retryInterval f, .lossTimeout f] { y with health := .absent, cleanRun := 0, seqKnown := false }) ∧
      (p.attemptLimit ≤ x.attempts → ¬bar → become [.retryInterval f] { y with health := .barred }) ∧
      (p.attemptLimit ≤ x.attempts → bar →
        become [.retryInterval f, .barRelease f] { y with health := .absent, seqKnown := false, attempts := 0 })) ∧
    (x.health = .healthy ∨ x.health = .degraded → loss →
      become [.lossTimeout f] { y with health := .lost, seqKnown := false }) ∧
    (x.health = .qualifying ∨ x.health = .retryWait ∧ ¬retry → loss →
      become [.lossTimeout f] { y with health := .absent, seqKnown := false }) ∧
    (x.health = .barred → bar → become [.barRelease f] { y with health := .absent, seqKnown := false, attempts := 0 }) ∧
    (¬retry → (loss → x.health ∈ [.absent, .failed, .lost, .barred]) → (bar → x.health ≠ .barred) → become [] y) ∧
    (¬retry → exec (.retryInterval f) s = .next s) ∧
    (¬loss ∨ x.health ∈ [.absent, .lost, .barred] ∨
        x.health = .failed ∧ (¬retry ∨ p.attemptLimit ≤ x.attempts ∨ y.silence ≠ p.lossTimeout) →
      exec (.lossTimeout f) s = .next s) ∧
    (¬bar ∨ x.health ∉ [.barred, .failed] → exec (.barRelease f) s = .next s)

/-! ### The Command Unit -/

/-- R30, R31, R200: the command at the head of the queue starts when nothing executes, the busy list is empty and the result
ring has a free place; that none starts while the reset input is asserted is the model's choice (log entry 15), and that
the row of a command that does not start changes nothing is its reading (log entry 3). The oldest BUSY answer is handed
over when a place is free beyond the reservation of the executing command, and waits otherwise; a command whose code is
not in Table 11-3 is answered BAD_COMMAND without reaching any block. -/
def Obligations.CommandsStartInOrder : Prop :=
  (∀ (s : State) (n : Nat) (data : List Byte) (rest : List Nat), cuNext s = some (n, data, rest) ↔
    s.lpu.resetAsserted = false ∧ s.cu.executing = none ∧ s.cu.busy = [] ∧
    modSub 64 s.rw.result.producer s.rw.result.consumer < 63 ∧ s.cu.queue = n :: rest ∧
    data = (s.slotData n).getD []) ∧
  (∀ s : State, cuNext s = none → ∀ c ∈ [Instr.badCommand, .setRingDepth, .defineFeedRing, .defineWindow,
    .setMonitorInitiators, .enterRun, .enterConfig, .setEventMask, .setNotice, .reportStatus, .restart, .setTime,
    .setReferenceMode, .setReferenceWindow, .reportTime, .setFeedParameters, .clearFeed, .reportFeed, .loadBooking, .cancel,
    .advance, .release, .extend, .reportBooking, .reportDestination, .take, .cue, .confirm, .uncue,
    .setDestinationParameters, .setLag, .loadTariff], exec c s = .next s) ∧
  (∀ (s : State) (b : BusyAnswer) (rest : List BusyAnswer), s.cu.busy = b :: rest → s.lpu.resetAsserted = false →
    let places := 63 - modSub 64 s.rw.result.producer s.rw.result.consumer
    let reserved := if s.cu.executing = none then 0 else 1
    (reserved < places → ∃ t, exec .busyHandover s = .next t ∧
      Accepted .result (resultBytes b.code b.tag b.slot ⟨.busy, 0, []⟩) (s.withCu { s.cu with busy := rest }) t) ∧
    (places ≤ reserved → exec .busyHandover s = .next s)) ∧
  (∀ s : State, s.cu.busy = [] → exec .busyHandover s = .next s) ∧
  ∀ (s : State) (n : Nat) (data : List Byte) (rest : List Nat), cuNext s = some (n, data, rest) →
    commandCode data ∉ commandCodes → Gives .badCommand s n data (s.started rest) ⟨.badCommand, 0, []⟩

/-! ### The region map and the modes -/

/-- R5 to R9: the four definition commands. In CONFIG Set Ring Depth and Set Monitor Initiators set what they are given, and
Define Feed Ring and Define Window replace the definition present, which goes with enable 0. Outside CONFIG the four (R5)
and Enter Run (R22) are refused with WRONG_MODE and change nothing. -/
def Obligations.DefinitionsActInConfig : Prop :=
  (∀ (s : State) (n : Nat) (data : List Byte) (rest : List Nat), s.lpu.mode = .config →
      let p := commandParam data
      (Starts 0x0101 s n data rest →
        (p 0 ∈ [64, 128, 256, 512, 1024] →
          Gives .setRingDepth s n data ((s.started rest).withLpu { s.lpu with depth := some (p 0) }) ⟨.done, 0, []⟩) ∧
        (p 0 ∉ [64, 128, 256, 512, 1024] → Gives .setRingDepth s n data (s.started rest) ⟨.range, 0, []⟩)) ∧
      (Starts 0x0104 s n data rest →
        ((∀ i < 4, p i ≤ 127 ∨ p i = 255) →
          Gives .setMonitorInitiators s n data ((s.started rest).withLpu { s.lpu with monitors := [p 0, p 1, p 2, p 3] })
            ⟨.done, 0, []⟩) ∧
        ((∃ i < 4, 127 < p i ∧ p i ≠ 255) →
          Gives .setMonitorInitiators s n data (s.started rest) ⟨.range, 0, []⟩))) ∧
  ∀ (s : State) (n : Nat) (data : List Byte) (rest : List Nat),
    let p := commandParam data
    let bad := fun objects => objects ≤ p 0 ∨ 255 < p 2 ∨ 1 < p 4 ∨ p 4 = 1 ∧ 127 < p 3
    let given : Option Region := if p 4 = 1 then some ⟨BitVec.ofNat 40 (p 1 + p 2 * 4294967296), p 3⟩ else none
    (s.lpu.mode = .config →
      (Starts 0x0102 s n data rest →
        (¬bad 64 → ∃ u, Gives .defineFeedRing s n data u ⟨.done, 0, []⟩ ∧ u.ringDef (p 0) = given ∧
          u.foreignWrites (p 0) = 0 ∧
          (∀ f, f ≠ p 0 → u.ringDef f = s.ringDef f ∧ u.foreignWrites f = s.foreignWrites f) ∧
          u = (s.started rest).withLpu
            { s.lpu with rings := u.lpu.rings, foreignWrites := u.lpu.foreignWrites }) ∧
        (bad 64 → Gives .defineFeedRing s n data (s.started rest) ⟨.range, 0, []⟩)) ∧
      (Starts 0x0103 s n data rest →
        (¬bad 48 → ∃ u, Gives .defineWindow s n data u ⟨.done, 0, []⟩ ∧ u.windowDef (p 0) = given ∧
          (∀ d, d ≠ p 0 → u.windowDef d = s.windowDef d) ∧
          u = (s.started rest).withLpu { s.lpu with windows := u.lpu.windows }) ∧
        (bad 48 → Gives .defineWindow s n data (s.started rest) ⟨.range, 0, []⟩))) ∧
    (s.lpu.mode ≠ .config → ∀ c code, (code, c) ∈ [(0x0101, Instr.setRingDepth), (0x0102, .defineFeedRing),
      (0x0103, .defineWindow), (0x0104, .setMonitorInitiators), (0x0105, .enterRun)] → Starts code s n data rest →
      Gives c s n data (s.started rest) ⟨.wrongMode, 0, []⟩)

/-- R22: the checks of Enter Run, in order: the first that fails gives its number, and none fails exactly when the map is
right. R22, R23, R62, R128, R153, R154: with every check passed Enter Run sets the mode, empties the latches and foreign
write counts, and sets up the blocks; with a failing check it changes nothing. -/
def Obligations.EnterRunSetsUpTheBlocks : Prop :=
  (∀ s : State,
      let regions := feedRegions s ++ windowRegions s
      let aligned := ∀ x ∈ regions, x.base % (s.ringDepth * 2048) = 0
      let apart := ((⟨0, 0, s.controlBase, 1048576, 0⟩ : MapRegion) :: regions).Pairwise
        (fun x y => ¬(x.base < y.base + y.size ∧ y.base < x.base + x.size))
      let foreign := ∀ x ∈ regions, x.agent ≠ s.lpu.strapInit.toNat
      let number := (geometryFault s).map Reply.detail
      (s.lpu.depth = none → number = some 1) ∧
      (s.lpu.depth ≠ none →
        ((feedRegions s = [] ∨ windowRegions s = []) → number = some 2) ∧
        (feedRegions s ≠ [] → windowRegions s ≠ [] →
          (¬aligned → number = some 3) ∧ (aligned → ¬apart → number = some 4) ∧
          (aligned → apart → ¬foreign → number = some 5) ∧ (aligned → apart → foreign → geometryFault s = none))) ∧
      (∀ i b z g, (⟨1, i, b, z, g⟩ : MapRegion) ∈ regions ↔
        i < 64 ∧ z = s.ringDepth * 2048 ∧ ∃ x, s.ringDef i = some x ∧ b = x.base.toNat ∧ g = x.agent) ∧
      ∀ i b z g, (⟨2, i, b, z, g⟩ : MapRegion) ∈ regions ↔
        i < 48 ∧ z = s.ringDepth * 2048 ∧ ∃ x, s.windowDef i = some x ∧ b = x.base.toNat ∧ g = x.agent) ∧
  ∀ (s : State) (n : Nat) (data : List Byte) (rest : List Nat), Starts 0x0105 s n data rest → s.lpu.mode = .config →
    (geometryFault s = none → ∃ u, Gives .enterRun s n data u ⟨.done, 0, []⟩ ∧
      u.lpu = { s.lpu with mode := .run, latches := [], foreignWrites := [] } ∧
      (∀ f, u.feedRec f = if f < 64 ∧ s.ringDef f ≠ none then
        some { health := .absent, openUnit := none, seqKnown := false, expectedSeq := 0, lastSeq := 0, lastSlot := 0,
               complete := 0, pictureStarts := [], testSignal := false, score := 0, cleanRun := 0, attempts := 0,
               silence := 0, stateTimer := 0, counters := ⟨0, 0, 0, 0, 0, 0, 0, 0, 0, 0, 0⟩ } else none) ∧
      (∀ d, u.route d = if d < 48 ∧ s.windowDef d ≠ none then
        some { source := .slate, phase := 0, wanted := none, take := none, failoverSince := false, freeze := none,
               revert := 0, change := none } else none) ∧
      (∀ d < 48, let x := s.delivery d
        let lagMax := min x.lagMax (s.ringDepth / 2)
        u.delivery d = ⟨min x.lag lagMax, lagMax, x.adapt, x.holdLimit, 0, 0, 0, 0, 0, 0, 0, 0, 0, .none⟩) ∧
      u.cu = (s.started rest).cu ∧ u.rw = s.rw ∧ u.tb = s.tb ∧ u.bt = s.bt ∧ u.ga = s.ga ∧ u.mu = s.mu ∧
      u.fm.params = s.fm.params ∧ u.ru.params = s.ru.params ∧ u.pending = s.pending) ∧
    (∀ reply, geometryFault s = some reply → reply.code = .geometry ∧
      Gives .enterRun s n data (s.started rest) reply)

/-- R24: Enter Config. In RUN with every entry EMPTY the held reads are answered from the slate, the mode becomes CONFIG,
the latches are emptied, and the feed and route records go; the map, the counters and the settings are kept. The reads
enter the forwarding queue, or wait for a place in it (R10), in the order of the hold list, which is the model's choice
between destinations (log entry 17). -/
def Obligations.EnterConfigClearsTheRun : Prop :=
  ∀ (s : State) (n : Nat) (data : List Byte) (rest : List Nat), Starts 0x0106 s n data rest →
    (s.lpu.mode = .restarting → Gives .enterConfig s n data (s.started rest) ⟨.wrongMode, 0, []⟩) ∧
    (s.lpu.mode = .config → Gives .enterConfig s n data (s.started rest) ⟨.done, 0, []⟩) ∧
    (s.lpu.mode = .run → (∃ e < 128, (s.entry e).state ≠ .empty) →
      Gives .enterConfig s n data (s.started rest) ⟨.wrongState, 0, []⟩) ∧
    (s.lpu.mode = .run → (∀ e < 128, (s.entry e).state = .empty) → s.inBounds = true →
      (∀ h ∈ s.lpu.holds, s.windowDef h.dest ≠ none) →
      ∃ u sent, Gives .enterConfig s n data u ⟨.done, 0, []⟩ ∧ u.lpu.mode = .config ∧ u.lpu.latches = [] ∧
        u.lpu.holds = [] ∧
        List.Forall₂ (fun x y => s.Sends .slate x.1 x.2 y)
          (s.lpu.holds.flatMap (fun h => h.reads.map (fun r => (h.dest, r)))) sent ∧
        u.lpu.forwarding ++ u.lpu.decidedReads = s.lpu.forwarding ++ s.lpu.decidedReads ++ sent ∧
        u.fm.records = [] ∧ u.ru.routes = [] ∧ u.lpu.rings = s.lpu.rings ∧ u.lpu.windows = s.lpu.windows ∧
        u.lpu.depth = s.lpu.depth ∧ u.lpu.monitors = s.lpu.monitors ∧ u.lpu.foreignWrites = s.lpu.foreignWrites ∧
        u.lpu.unauthReads = s.lpu.unauthReads ∧ u.lpu.windowWrites = s.lpu.windowWrites ∧ u.fm.params = s.fm.params ∧
        u.ru.params = s.ru.params ∧ u.dm = s.dm ∧ u.tb = s.tb ∧ u.bt = s.bt ∧ u.ga = s.ga ∧ u.mu = s.mu ∧
        u.rw = s.rw ∧ u.cu = (s.started rest).cu)

/-- R41, R42, R43: Set Event Mask and Set Notice. -/
def Obligations.MaskAndNoticeAreSet : Prop :=
  ∀ (s : State) (n : Nat) (data : List Byte) (rest : List Nat),
    let p := commandParam data
    (Starts 0x0201 s n data rest →
      (p 0 < 512 → Gives .setEventMask s n data ((s.started rest).withRw { s.rw with mask := BitVec.ofNat 32 (p 0) })
        ⟨.done, 0, [s.rw.mask.toNat, p 0]⟩) ∧
      (512 ≤ p 0 → Gives .setEventMask s n data (s.started rest) ⟨.range, 0, []⟩)) ∧
    (Starts 0x0202 s n data rest →
      ((∀ i < 3, p i ≤ 1) →
        let line := (p 0 = 1 ∧ s.rw.result.published ≠ s.rw.result.consumer) ∨
          (p 1 = 1 ∧ s.rw.event.published ≠ s.rw.event.consumer) ∨
          (p 2 = 1 ∧ s.rw.billing.published ≠ s.rw.billing.consumer)
        Gives .setNotice s n data ((s.started rest).withRw { s.rw with
            noticeResult := p 0 == 1, noticeEvent := p 1 == 1, noticeBilling := p 2 == 1, noticeLine := decide line })
          ⟨.done, 0, [if line then 1 else 0]⟩) ∧
      ((∃ i < 3, 1 < p i) → Gives .setNotice s n data (s.started rest) ⟨.range, 0, []⟩))

/-- R44, R60: Report Status and Report Time give the words of Tables 2-8 and 3-4 and clear nothing. R89, R111, R127:
Report Feed, Report Booking and Report Destination give the words of Tables 4-10, 5-7 and 6-4 (one part of each is
written out, with the parameters of a feed) and clear nothing. -/
def Obligations.ReportsGiveTheirWords : Prop :=
  (∀ (s : State) (n : Nat) (data : List Byte) (rest : List Nat),
      let p := commandParam data
      let status := s.lpu.mode.num + 256 * s.tb.refState.num
      let time := s.tb.refMode.num + 256 * s.tb.refState.num
      (Starts 0x0203 s n data rest →
        (p 0 = 0 → Gives .reportStatus s n data (s.started rest) ⟨.done, status,
          [((List.range 128).filter (fun e => (s.entry e).state ≠ .empty)).length, s.cu.ignored, s.rw.badIndexWrites,
           s.rw.ownWriteErrors, s.lpu.unauthReads, s.lpu.windowWrites]⟩) ∧
        (p 0 = 1 → Gives .reportStatus s n data (s.started rest) ⟨.done, status,
          [s.rw.lostTotal, s.rw.checkpointsLost, s.rw.lostCount, rest.length, s.rw.pendingBilling.length,
           s.rw.mask.toNat]⟩) ∧
        (1 < p 0 → Gives .reportStatus s n data (s.started rest) ⟨.range, 0, []⟩)) ∧
      (Starts 0x0304 s n data rest →
        (p 0 = 0 → Gives .reportTime s n data (s.started rest) ⟨.done, time,
          [s.tb.seconds, s.tb.millis, s.tb.markCount, s.tb.wanderCount, (s.tb.lastOffset % 4294967296).toNat,
           s.tb.window]⟩) ∧
        (p 0 = 1 → Gives .reportTime s n data (s.started rest) ⟨.done, time,
          [if s.tb.staged = none then 0 else 1, s.tb.staged.getD 0, s.tb.consecutive, s.tb.failed, s.tb.reported,
           if s.tb.firstMarkDue then 1 else 0]⟩) ∧
        (1 < p 0 → Gives .reportTime s n data (s.started rest) ⟨.range, 0, []⟩))) ∧
  (∀ (s : State) (n : Nat) (data : List Byte) (rest : List Nat),
      let p := commandParam data
      (Starts 0x0403 s n data rest →
        (63 < p 0 ∨ 5 < p 1 → Gives .reportFeed s n data (s.started rest) ⟨.range, 0, []⟩) ∧
        (p 0 ≤ 63 → p 1 ≤ 3 → s.feedRec (p 0) = none →
          Gives .reportFeed s n data (s.started rest) ⟨.wrongState, 0, []⟩) ∧
        (∀ x, p 0 ≤ 63 → p 1 = 0 → s.feedRec (p 0) = some x →
          Gives .reportFeed s n data (s.started rest) ⟨.done, x.health.num + 256 * (if x.testSignal then 1 else 0),
            [x.score, if x.complete = 0 then 0 else x.lastSlot, x.complete, x.attempts, x.cleanRun,
             if x.seqKnown then x.expectedSeq else 65536]⟩) ∧
        (p 0 ≤ 63 → p 1 = 5 → Gives .reportFeed s n data (s.started rest) ⟨.done, 0,
          [(s.feedParams (p 0)).recoverThreshold, (s.feedParams (p 0)).failThreshold]⟩)) ∧
      (Starts 0x0506 s n data rest →
        (3 < p 1 → Gives .reportBooking s n data (s.started rest) ⟨.range, 0, []⟩) ∧
        (p 1 ≤ 3 → bookingOf s (p 0) = none → Gives .reportBooking s n data (s.started rest) ⟨.notFound, 0, []⟩) ∧
        (∀ e, p 1 = 1 → bookingOf s (p 0) = some e → let x := s.entry e
          Gives .reportBooking s n data (s.started rest) ⟨.done, x.reason.num,
            [x.meters.c, x.meters.d, x.meters.u, x.meters.oc, x.meters.od, x.meters.ou]⟩)) ∧
      (Starts 0x0601 s n data rest →
        (47 < p 0 ∨ 2 < p 1 → Gives .reportDestination s n data (s.started rest) ⟨.range, 0, []⟩) ∧
        (p 0 ≤ 47 → p 1 = 1 → s.route (p 0) = none →
          Gives .reportDestination s n data (s.started rest) ⟨.wrongState, 0, []⟩) ∧
        (p 0 ≤ 47 → p 1 = 2 → let x := s.delivery (p 0)
          Gives .reportDestination s n data (s.started rest) ⟨.done, 0,
            [x.repeatSlips, x.dropSlips, x.unitsSkipped, x.freezeRepeats, x.lagAdjustments, x.readErrors]⟩)))

/-- R45: Restart sets RESTARTING, answers every held read from the slate, cancels every pending take, abandons every fetch
and closes every open booking with reason RESTART, each with the next close sequence number and one final record, which
goes into the ring, into the pending billing queue or stays in its entry (R191). It goes on executing with the numbers of
bookings closed and fetches abandoned. R46, Table 8-1: while an entry stands in CLOSING a Restart goes on; then the
blocks are cleared in CONFIG and the result gives the two numbers. What Restart keeps is unchanged. The order of the held
reads of different destinations is the model's choice (log entry 17), and that the close count stays at its ceiling is
its reading (log entry 11). -/
def Obligations.RestartClosesEveryBooking : Prop :=
  (∀ (s : State) (n : Nat) (data : List Byte) (rest : List Nat), Starts 0x0204 s n data rest →
    let closed := ((List.range 128).filter (fun e => (s.entry e).state.isOpen)).length
    ∃ t, exec .restart s = .next t ∧ t.lpu.mode = .restarting ∧ t.lpu.holds = [] ∧
      (s.inBounds = true → (∀ h ∈ s.lpu.holds, s.windowDef h.dest ≠ none) → ∃ sent,
        List.Forall₂ (fun x y => s.Sends .slate x.1 x.2 y)
          (s.lpu.holds.flatMap (fun h => h.reads.map (fun r => (h.dest, r)))) sent ∧
        t.lpu.forwarding ++ t.lpu.decidedReads = s.lpu.forwarding ++ s.lpu.decidedReads ++ sent) ∧
      (∀ d < 48, ∀ rt, t.route d = some rt → rt.take = none) ∧
      (∀ e < 128, (t.entry e).state = .empty ∨ (t.entry e).state = .closing) ∧
      (∀ e < 128, (s.entry e).state = .fetching → (t.entry e).state = .empty) ∧
      (∀ e < 128, (s.entry e).state = .closing → t.entry e = s.entry e) ∧
      (∀ e < 128, (s.entry e).state.isOpen = true → let x := s.entry e
        ((t.entry e).state = .closing → (t.entry e).reason = .restart ∧ (t.entry e).record ≠ none) ∧
        ∃ r : BillRecord, r.reason = .restart ∧ r.kind = (if x.hasLive then .close else .cancel) ∧
          r.ref = x.desc.ref ∧ r.account = x.desc.account ∧ r.meters = x.meters ∧ r.takes = x.takes ∧
          r.slips = x.slips ∧ r.closeNT = s.tb.seconds ∧
          ((∃ o ∈ ownWork t, o.kind = .record .billing ∧ o.req.data = r.bytes) ∨ r ∈ t.rw.pendingBilling ∨
            (t.entry e).record = some r)) ∧
      t.bt.closeCount =
        (if closed = 0 then s.bt.closeCount else min 18446744073709551615 (s.bt.closeCount + closed)) ∧
      t.cu.executing = some ⟨n, data, .restarting closed
        ((List.range 128).filter (fun e => (s.entry e).state == .fetching)).length⟩ ∧
      t.cu.queue = rest ∧ t.lpu.rings = s.lpu.rings ∧ t.lpu.windows = s.lpu.windows ∧ t.fm = s.fm ∧ t.tb = s.tb ∧
      t.mu = s.mu) ∧
  ∀ (s : State) (n : Nat) (data : List Byte) (closed abandoned : Nat),
    s.cu.executing = some ⟨n, data, .restarting closed abandoned⟩ →
    ((∃ e < 128, (s.entry e).state = .closing) → exec .restartFinish s = .next s) ∧
    ((∀ e < 128, (s.entry e).state ≠ .closing) →
      ∃ u, Gives .restartFinish s n data u ⟨.done, 0, [closed, abandoned]⟩ ∧
        u.lpu = { s.lpu with mode := .config, latches := [] } ∧ u.fm = { s.fm with records := [] } ∧
        u.ru = { s.ru with routes := [] } ∧ (∀ d, u.holder d = none ∧ u.grantQueue d = []) ∧
        (∀ d < 48, let x := s.delivery d
          u.delivery d = ⟨x.lag, x.lagMax, x.adapt, x.holdLimit, 0, 0, 0, 0, 0, 0, 0, 0, 0, .none⟩) ∧
        u.cu = s.cu ∧ u.rw = s.rw ∧ u.tb = s.tb ∧ u.bt = s.bt ∧ u.mu = s.mu)

/-! ### Network time -/

/-- R47 to R49: LOCAL_MILLISECOND: 1,000 µs have passed, NT advances by one millisecond and stays at its last value, and
the seconds that NT has entered are reported. R105, R150, R170, R174: where nothing falls due on the oscillator before
it, the event is the accrual of every entry (AccrualAddsOneMillisecond), the millisecond of every delivery and route
(TimersActAtTheirLimits) and of every feed (FeedIntervalsMoveHealth), the meter limits in the states the totals were
taken from (MeterLimitsCloseBookings), and the second reports (BoundariesFireAtSecondReports). The order of these is log
entry 6. That time passes in this row is log entry 8, and that every millisecond, the first after an alignment included,
ends 1,000 µs after `msStart` is log entry 9. -/
def Obligations.MillisecondAdvancesNetworkTime : Prop :=
  ∀ s : State, s.lpu.resetAsserted = false → ∃ t, exec .localMillisecond s = .next t ∧
    (s.tb.millis < 999 → t.tb.seconds = s.tb.seconds ∧ t.tb.millis = s.tb.millis + 1) ∧
    (999 ≤ s.tb.millis → s.tb.seconds < 4294967295 → t.tb.seconds = s.tb.seconds + 1 ∧ t.tb.millis = 0) ∧
    (999 ≤ s.tb.millis → 4294967295 ≤ s.tb.seconds → t.tb.seconds = s.tb.seconds ∧ t.tb.millis = s.tb.millis) ∧
    t.tb.reported = max s.tb.reported t.tb.seconds ∧ t.tb.msStart = s.tb.msStart + 1000 ∧ t.tb.subMicros = 0 ∧
    t.tb.markCount = s.tb.markCount ∧ t.tb.refMode = s.tb.refMode ∧ t.tb.staged = s.tb.staged ∧
    t.tb.window = s.tb.window ∧
    (NothingDue s →
      let advanced : Tb := { s.tb with
        seconds := t.tb.seconds, millis := t.tb.millis, msStart := s.tb.msStart + 1000, subMicros := 0 }
      let accrued := forAll 128 muAccrue (s.withTb advanced)
      let timed := forAll 64 fmMillisecond (forAll 48 ruMillisecond (forAll 48 dmMillisecond accrued))
      t = tbReport (btLimits (entryStates s) timed))

/-- R173, Table 9-2: one accrual adds 1 to the meter that the state and the condition choose, and to no other; an entry
in any other state accrues nothing, and no other entry changes. -/
def Obligations.AccrualAddsOneMillisecond : Prop :=
  ∀ (s : State) (e : Nat),
    let x := s.entry e
    let m := x.meters
    let c := (s.delivery x.desc.dest).condition
    let y := ((muAccrue e s).entry e).meters
    (muAccrue e s).entry e = { x with meters := y } ∧ (∀ f, f ≠ e → (muAccrue e s).entry f = s.entry f) ∧
    (x.state = .preroll → y = { m with p := min 4294967295 (m.p + 1) }) ∧
    (x.state = .suspended → y = { m with su := min 4294967295 (m.su + 1) }) ∧
    (x.state = .live → c = .clean → y = { m with c := min 4294967295 (m.c + 1) }) ∧
    (x.state = .live → c = .degraded → y = { m with d := min 4294967295 (m.d + 1) }) ∧
    (x.state = .live → c = .outage → y = { m with u := min 4294967295 (m.u + 1) }) ∧
    (x.state = .overrun → c = .clean → y = { m with oc := min 4294967295 (m.oc + 1) }) ∧
    (x.state = .overrun → c = .degraded → y = { m with od := min 4294967295 (m.od + 1) }) ∧
    (x.state = .overrun → c = .outage → y = { m with ou := min 4294967295 (m.ou + 1) }) ∧
    (x.state ∈ [.empty, .fetching, .scheduled, .waiting, .closing] → y = m)

/-- R50 to R55, Table 3-2: a mark while nothing else falls due and no new second is entered. In OFF it is counted only.
In LOCKED an out-of-window mark adds to the wander count and raises WANDER; an in-window one is accepted. In ACQUIRING a
mark is accepted whatever its offset while the first-mark-due flag is set, and in window otherwise; the fourth in-window
mark in a row makes LOCKED. A mark in ABSENT, and an in-window one in HOLDOVER, moves the state to ACQUIRING with the
flag set and is treated there; an out-of-window one in HOLDOVER only adds to the wander count. An accepted mark changes
no NT in MONITOR, applies a staged time in any mode, and otherwise makes NT its nearest second, with ALIGNED where it is
out of window; ALIGN_ONCE then becomes MONITOR. R54: the deadline of an expected mark passes, with no read held. In
ACQUIRING the count starts afresh; in LOCKED the failure is counted and the next mark is expected a second later, and the
third in a row moves the state to HOLDOVER with its event. That the mark comes at the later of its position and the
present one, and that MARK_DEADLINE takes the oscillator to the deadline, is log entry 8; that no time is added where less
than 500 µs of the millisecond have run at an alignment is log entry 9; the NT that STAGED_APPLIED gives as the one
before is log entry 14. -/
def Obligations.MarksAreTreatedByState : Prop :=
  (∀ (s : State) (u : Nat), s.lpu.resetAsserted = false → NothingDue s → u < 1000 →
      let pos := max s.tb.subMicros u
      let p := s.tb.millis * 1000 + pos
      let e : Int := if p < 500000 then (p : Int) else (p : Int) - 1000000
      let off := (e % 4294967296).toNat
      let inside := e.natAbs ≤ s.tb.window
      let near := if 0 ≤ e then s.tb.seconds else s.tb.seconds + 1
      let next := some (s.tb.msStart + pos + 1000000)
      let counted : Tb := { s.tb with subMicros := pos, markCount := min 4294967295 (s.tb.markCount + 1) }
      let measured : Tb := { counted with lastOffset := e }
      let wandered : Tb := { measured with wanderCount := min 4294967295 (s.tb.wanderCount + 1) }
      let begun := fun (t : Tb) => { t with msStart := s.tb.msStart + pos, subMicros := 0, millis := 0 }
      let met := fun (t : Tb) => { t with consecutive := 1, firstMarkDue := false, expected := next }
      let missed := fun (t : Tb) => { t with consecutive := 0, firstMarkDue := true, expected := none }
      let after := if s.tb.refMode = .alignOnce then RefMode.monitor else s.tb.refMode
      let aligns := (s.tb.refMode = .track ∨ s.tb.refMode = .alignOnce) ∧ s.tb.staged = none ∧ near ≤ s.tb.reported ∧
        s.tb.seconds < 4294967295
      (s.tb.refMode = .off → exec (.referenceMark u) s = .next (s.withTb counted)) ∧
      (s.tb.refMode ≠ .off → s.tb.seconds ≤ s.tb.reported →
        (s.tb.refState = .locked → ¬inside → ∃ t, exec (.referenceMark u) s = .next t ∧
          Raised .time 3 0 [off, s.tb.seconds, s.tb.window, wandered.wanderCount] (s.withTb wandered) t) ∧
        (s.tb.refState = .holdover → ¬inside → exec (.referenceMark u) s = .next (s.withTb wandered)) ∧
        (s.tb.refState = .acquiring → s.tb.firstMarkDue = false → ¬inside →
          exec (.referenceMark u) s = .next (s.withTb (missed measured)))) ∧
      (s.tb.refMode = .monitor → s.tb.staged = none → s.tb.seconds ≤ s.tb.reported →
        (s.tb.refState = .locked → inside →
          exec (.referenceMark u) s = .next (s.withTb { measured with failed := 0, expected := next })) ∧
        (s.tb.refState = .acquiring → s.tb.firstMarkDue = true → exec (.referenceMark u) s = .next (s.withTb
          (if inside then met measured else { measured with consecutive := 0, expected := none }))) ∧
        (s.tb.refState = .acquiring → s.tb.firstMarkDue = false → inside → s.tb.consecutive + 1 < 4 →
          exec (.referenceMark u) s = .next
            (s.withTb { measured with consecutive := s.tb.consecutive + 1, expected := next })) ∧
        (s.tb.refState = .acquiring → s.tb.firstMarkDue = false → inside → 4 ≤ s.tb.consecutive + 1 →
          ∃ t, exec (.referenceMark u) s = .next t ∧ Raised .time 1 0 [1, 2, 1, off]
            (s.withTb { measured with consecutive := 4, expected := next, failed := 0, refState := .locked }) t) ∧
        (s.tb.refState = .absent ∨ s.tb.refState = .holdover ∧ inside → ∃ v,
          Raised .time 1 0 [s.tb.refState.num, 1, 1, off] (s.withTb { measured with refState := .acquiring }) v ∧
          exec (.referenceMark u) s = .next (v.withTb
            (if inside then met v.tb else { v.tb with consecutive := 0, firstMarkDue := true, expected := none })))) ∧
      (aligns → pos < 500 →
        let aligned : Tb := { begun measured with seconds := near }
        (s.tb.refState = .locked → inside → exec (.referenceMark u) s = .next
          (s.withTb { aligned with failed := 0, expected := next, refMode := after })) ∧
        (s.tb.refState = .acquiring → s.tb.firstMarkDue = true → inside → exec (.referenceMark u) s = .next
          (s.withTb { met aligned with refMode := after })) ∧
        (s.tb.refState = .acquiring → s.tb.firstMarkDue = true → ¬inside → ∃ v,
          Raised .time 2 0 [off, near, s.tb.refMode.num, 0] (s.withTb aligned) v ∧
          exec (.referenceMark u) s = .next (v.withTb { met v.tb with refMode := after }))) ∧
      (aligns → s.tb.refState = .locked → inside → 500 ≤ pos → ∃ t, exec (.referenceMark u) s = .next t ∧
        t.tb.seconds = near ∧ t.tb.millis = 0 ∧ t.tb.subMicros = 0 ∧ t.tb.msStart = s.tb.msStart + pos ∧
        t.tb.failed = 0 ∧ t.tb.expected = next ∧ t.tb.refMode = after ∧ t.tb.staged = none) ∧
      (∀ sec, s.tb.refMode ≠ .off → s.tb.refState = .locked → inside → s.tb.staged = some sec → sec ≤ s.tb.reported →
        pos < 500 → ∃ t v, exec (.referenceMark u) s = .next t ∧
          Raised .time 4 0 [sec, s.tb.seconds, s.tb.millis, off]
            (s.withTb { begun measured with seconds := sec, staged := none }) v ∧
          t.tb = { v.tb with failed := 0, expected := next, refMode := after } ∧
          (∀ i < 128, t.entry i =
            if (s.entry i).state = .empty then s.entry i else { s.entry i with timeStepped := true }) ∧
          t = (v.withTb t.tb).withBt { s.bt with entries := t.bt.entries })) ∧
  (∀ (s : State) (x : Nat), s.lpu.resetAsserted = false → s.lpu.holds = [] → s.tb.expected = some x →
      let pos := max s.tb.subMicros (x + s.tb.window - s.tb.msStart)
      let here : Tb := { s.tb with subMicros := pos }
      pos < 1000 →
      (s.tb.refState = .acquiring →
        exec .markDeadline s = .next (s.withTb { here with consecutive := 0, expected := none })) ∧
      (s.tb.refState = .locked → s.tb.failed < 2 →
        exec .markDeadline s = .next (s.withTb { here with failed := s.tb.failed + 1, expected := some (x + 1000000) })) ∧
      (s.tb.refState = .locked → 2 ≤ s.tb.failed → ∃ t, exec .markDeadline s = .next t ∧
        Raised .time 1 0 [2, 3, s.tb.refMode.num, (s.tb.lastOffset % 4294967296).toNat]
          (s.withTb { here with consecutive := 0, failed := 0, expected := none, refState := .holdover }) t))

/-- R49, R58, R59: Set Time. Applied at once it sets NT, cancels a staged time, flags every entry in use and reports the
seconds passed over; with flag 1 and the mode not OFF it is staged; a flag above 1 is refused. The flags are set before
the reports, so an entry keeps its flag unless a boundary then closes it; this is stated of the states in which the grants
are in order (R115, R116), since a release grants the head of a queue. -/
def Obligations.SetTimeAppliesOrStages : Prop :=
  ∀ (s : State) (n : Nat) (data : List Byte) (rest : List Nat), Starts 0x0301 s n data rest →
    let p := commandParam data
    let words := [s.tb.seconds, s.tb.millis, p 0, if s.tb.staged = none then 0 else 1]
    (p 1 = 0 ∨ p 1 = 1 ∧ s.tb.refMode = .off →
      ∃ u, Gives .setTime s n data u ⟨.done, 1, words⟩ ∧
        u.tb = { s.tb with seconds := p 0, millis := 0, staged := none, reported := max s.tb.reported (p 0) } ∧
        (s.grantsInOrder → ∀ e < 128, (s.entry e).state ≠ .empty →
          (u.entry e).timeStepped = true ∨ (u.entry e).state = .empty ∨ (u.entry e).state = .fetching) ∧
        (p 0 ≤ s.tb.reported →
          (∀ e < 128, u.entry e =
            if (s.entry e).state = .empty then s.entry e else { s.entry e with timeStepped := true }) ∧
          u = ((s.started rest).withTb u.tb).withBt { s.bt with entries := u.bt.entries }) ∧
        (s.tb.reported < p 0 → ∃ v, v.tb = { s.tb with seconds := p 0, millis := 0, staged := none } ∧
          (∀ e < 128, v.entry e =
            if (s.entry e).state = .empty then s.entry e else { s.entry e with timeStepped := true }) ∧
          v = ((s.started rest).withTb v.tb).withBt { s.bt with entries := v.bt.entries } ∧ u = tbReport v)) ∧
    (p 1 = 1 → s.tb.refMode ≠ .off →
      Gives .setTime s n data ((s.started rest).withTb { s.tb with staged := some (p 0) }) ⟨.done, 2, words⟩) ∧
    (1 < p 1 → Gives .setTime s n data (s.started rest) ⟨.range, 0, []⟩)

/-- R56, R57: Set Reference Mode and Set Reference Window. -/
def Obligations.ReferenceModeAndWindowAreSet : Prop :=
  ∀ (s : State) (n : Nat) (data : List Byte) (rest : List Nat),
    let p := commandParam data
    let old := s.tb.refMode.num
    let afresh : Tb := { s.tb with consecutive := 0, failed := 0, firstMarkDue := true, expected := none }
    (Starts 0x0302 s n data rest →
      (p 0 = 0 → ∃ u, Gives .setReferenceMode s n data u ⟨.done, 0, [old, 0, 0]⟩ ∧
        u.tb = { afresh with refMode := .off, refState := .absent, staged := none }) ∧
      (p 0 = 1 → Gives .setReferenceMode s n data ((s.started rest).withTb { s.tb with refMode := .monitor })
        ⟨.done, 0, [old, 1, s.tb.refState.num]⟩) ∧
      (p 0 = 2 → Gives .setReferenceMode s n data ((s.started rest).withTb { s.tb with refMode := .track })
        ⟨.done, 0, [old, 2, s.tb.refState.num]⟩) ∧
      (p 0 = 3 → ∃ u, Gives .setReferenceMode s n data u
          ⟨.done, 0, [old, 3, if s.tb.refState = .absent then 0 else 1]⟩ ∧
        u.tb = { afresh with
          refMode := .alignOnce, refState := if s.tb.refState = .absent then .absent else .acquiring }) ∧
      (3 < p 0 → Gives .setReferenceMode s n data (s.started rest) ⟨.range, 0, []⟩)) ∧
    (Starts 0x0303 s n data rest →
      let w := max 10 (min 10000 (p 0))
      Gives .setReferenceWindow s n data ((s.started rest).withTb { s.tb with window := w })
        ⟨if w = p 0 then .done else .clamped, 0, [w]⟩)

/-! ### Settings and reports of feeds, destinations and tariffs -/

/-- R87, R151, R168, R178: a setting command writes the values it is given, each brought to the nearer end of its range,
to the object named or, for 255, to all; the result gives the applied values and says whether one was brought into range.
R87, R151, R168, R177: what the setting commands refuse; a refused command changes nothing. Load Tariff names the lowest
entry that uses the tariff and the number of such entries. -/
def Obligations.SettingsAreBroughtIntoRange : Prop :=
  (∀ (s : State) (n : Nat) (data : List Byte) (rest : List Nat),
      let p := commandParam data
      let within := fun lo hi x => max lo (min hi x)
      (Starts 0x0401 s n data rest → p 0 < 64 ∨ p 0 = 255 →
        let x : FeedParams := ⟨within 1 255 (p 1), within 1 15 (p 2), within 100 60000 (p 3), within 10 5000 (p 4),
          min 600000 (p 5), min 1023 (p 6), min 1023 (p 7), min 1023 (p 8)⟩
        (x.recoverThreshold < x.degradeThreshold → x.degradeThreshold < x.failThreshold →
          ∃ u, Gives .setFeedParameters s n data u
              ⟨if x = ⟨p 1, p 2, p 3, p 4, p 5, p 6, p 7, p 8⟩ then .done else .clamped, x.failThreshold,
                [x.qualLength, x.attemptLimit, x.retryInterval, x.lossTimeout, x.barRelease, x.degradeThreshold]⟩ ∧
            (∀ f < 64, u.feedParams f = if p 0 = 255 ∨ f = p 0 then x else s.feedParams f) ∧
            u = (s.started rest).withFm { s.fm with params := u.fm.params }) ∧
        (x.degradeThreshold ≤ x.recoverThreshold ∨ x.failThreshold ≤ x.degradeThreshold →
          Gives .setFeedParameters s n data (s.started rest) ⟨.range, 0, []⟩)) ∧
      (Starts 0x0705 s n data rest → p 0 < 48 ∨ p 0 = 255 →
        let x : DestParams := ⟨within 100 10000 (p 1), min 10000 (p 2), within 5 600 (p 3), min 10000 (p 4)⟩
        ∃ u, Gives .setDestinationParameters s n data u
            ⟨if x = ⟨p 1, p 2, p 3, p 4⟩ then .done else .clamped, 0,
              [x.takeTimeout, x.freezeLimit, x.revertHold, x.impairmentHold]⟩ ∧
          (∀ d < 48, u.destParams d = if p 0 = 255 ∨ d = p 0 then x else s.destParams d) ∧
          u = (s.started rest).withRu { s.ru with params := u.ru.params }) ∧
      (Starts 0x0801 s n data rest → (p 0 < 48 ∨ p 0 = 255) → p 3 ≤ 1 →
        let half := (s.lpu.depth.getD 1024) / 2
        let lagMax := max 1 (min half (p 2))
        let lag := max 1 (min lagMax (p 1))
        let limit := within 1 1000 (p 4)
        s.inBounds = true →
        ∃ u, Gives .setLag s n data u
            ⟨if lag = p 1 ∧ lagMax = p 2 ∧ limit = p 4 then .done else .clamped, 0, [lag, lagMax, p 3, limit]⟩ ∧
          (∀ d < 48, u.delivery d = if p 0 = 255 ∨ d = p 0 then
            { s.delivery d with lag := lag, lagMax := lagMax, adapt := p 3 == 1, holdLimit := limit } else s.delivery d) ∧
          (∀ d < 48, ∀ rt, s.route d = some rt → u.route d = some { rt with change :=
            if (p 0 = 255 ∨ d = p 0) ∧ s.lpu.mode = .run ∧ (s.delivery d).lag ≠ lag ∧ rt.change ≠ some .toSlate
            then (some .lagReset) else rt.change }) ∧
          u = ((s.started rest).withDm u.dm).withRu { s.ru with routes := u.ru.routes }) ∧
      (Starts 0x0901 s n data rest → p 0 < 16 → p 2 ∈ [0, 1, 2, 4] → p 4 ∈ [1, 6, 15, 30, 60] →
        (∀ e < 128, (s.entry e).state ∉ [.empty, .fetching] → (s.entry e).desc.tariff ≠ p 0) →
        let x : Tariff := ⟨min 65535 (p 1), p 2, within 8 32 (p 3), p 4, min 7200 (p 5), min 65535 (p 6), p 7⟩
        ∃ u, Gives .loadTariff s n data u
            ⟨if x = ⟨p 1, p 2, p 3, p 4, p 5, p 6, p 7⟩ then .done else .clamped, p 0,
              [x.rate, x.weight, x.overrun, x.quantum, x.minimum, x.fee]⟩ ∧
          u.tariff (p 0) = some x ∧ (∀ i, i ≠ p 0 → u.tariff i = s.tariff i) ∧
          u = (s.started rest).withMu u.mu)) ∧
  (∀ (s : State) (n : Nat) (data : List Byte) (rest : List Nat),
      let p := commandParam data
      (Starts 0x0401 s n data rest → 63 < p 0 → p 0 ≠ 255 →
        Gives .setFeedParameters s n data (s.started rest) ⟨.range, 0, []⟩) ∧
      (Starts 0x0705 s n data rest → 47 < p 0 → p 0 ≠ 255 →
        Gives .setDestinationParameters s n data (s.started rest) ⟨.range, 0, []⟩) ∧
      (Starts 0x0801 s n data rest → 47 < p 0 ∧ p 0 ≠ 255 ∨ 1 < p 3 →
        Gives .setLag s n data (s.started rest) ⟨.range, 0, []⟩) ∧
      (Starts 0x0901 s n data rest →
        (15 < p 0 ∨ p 2 ∉ [0, 1, 2, 4] ∨ p 4 ∉ [1, 6, 15, 30, 60] →
          Gives .loadTariff s n data (s.started rest) ⟨.range, 0, []⟩) ∧
        (∀ e, p 0 < 16 → p 2 ∈ [0, 1, 2, 4] → p 4 ∈ [1, 6, 15, 30, 60] → e < 128 →
          let uses := fun i => (s.entry i).state ≠ .empty ∧ (s.entry i).state ≠ .fetching ∧ (s.entry i).desc.tariff = p 0
          uses e → (∀ i < e, ¬uses i) →
          Gives .loadTariff s n data (s.started rest)
            ⟨.wrongState, 0, [e, ((List.range 128).filter (fun i => decide (uses i))).length]⟩)))

/-- R88: Clear Feed clears the error counters and the foreign write count, keeps the score, and releases a barred
feed. -/
def Obligations.ClearFeedClearsTheErrors : Prop :=
  ∀ (s : State) (n : Nat) (data : List Byte) (rest : List Nat), Starts 0x0402 s n data rest →
    let p := commandParam data
    (s.lpu.mode ≠ .run → Gives .clearFeed s n data (s.started rest) ⟨.wrongMode, 0, []⟩) ∧
    (s.lpu.mode = .run → 63 < p 0 → Gives .clearFeed s n data (s.started rest) ⟨.range, 0, []⟩) ∧
    (s.lpu.mode = .run → p 0 ≤ 63 → s.feedRec (p 0) = none →
      Gives .clearFeed s n data (s.started rest) ⟨.wrongState, 0, []⟩) ∧
    ∀ x, s.lpu.mode = .run → p 0 ≤ 63 → s.feedRec (p 0) = some x →
      let cleared : UnitCounters := ⟨x.counters.completions, x.counters.inOrder, 0, 0, 0, 0, 0, 0, 0, 0, 0⟩
      (x.health ≠ .barred →
        Gives .clearFeed s n data
          (((s.started rest).setFeedRec (p 0) (some { x with counters := cleared })).setForeignWrites (p 0) 0)
          ⟨.done, x.health.num, [x.health.num]⟩) ∧
      (x.health = .barred → ∃ u, Gives .clearFeed s n data u ⟨.done, 0, [7]⟩ ∧ u.foreignWrites (p 0) = 0 ∧
        u.feedRec (p 0) =
          some { x with counters := cleared, health := .absent, attempts := 0, seqKnown := false } ∧
        ∀ f, f ≠ p 0 → u.feedRec f = s.feedRec f ∧ u.foreignWrites f = s.foreignWrites f)

/-! ### Bookings and grants -/

/-- R95: Load Booking in RUN takes the lowest-numbered EMPTY entry into FETCHING, submits one own read of the 64 bytes,
and goes on executing; its refusals, in order, change nothing. -/
def Obligations.LoadBookingFetchesADescriptor : Prop :=
  ∀ (s : State) (n : Nat) (data : List Byte) (rest : List Nat), Starts 0x0501 s n data rest →
    let p := commandParam data
    (s.lpu.mode ≠ .run → Gives .loadBooking s n data (s.started rest) ⟨.wrongMode, 0, []⟩) ∧
    (s.lpu.mode = .run → 255 < p 1 ∨ p 0 % 64 ≠ 0 → Gives .loadBooking s n data (s.started rest) ⟨.range, 0, []⟩) ∧
    (s.lpu.mode = .run → p 1 ≤ 255 → p 0 % 64 = 0 → (∀ e < 128, (s.entry e).state ≠ .empty) →
      Gives .loadBooking s n data (s.started rest) ⟨.tableFull, 0, []⟩) ∧
    ∀ e, s.lpu.mode = .run → p 1 ≤ 255 → p 0 % 64 = 0 → e < 128 → (s.entry e).state = .empty →
      (∀ i < e, (s.entry i).state ≠ .empty) →
      let addr := p 0 + p 1 * 4294967296
      ∃ t, exec .loadBooking s = .next t ∧
        t.entry e = { Entry.blank with
          state := .fetching, origin := .command, address := addr, fetchTag := some s.lpu.nextTag } ∧
        (∀ i, i ≠ e → t.entry i = s.entry i) ∧
        ownWork t = ownWork s ++
          [⟨⟨.read, BitVec.ofNat 40 addr, 64, s.lpu.strapInit, s.lpu.nextTag, []⟩, .descriptor⟩] ∧
        t.cu = { s.cu with queue := rest, executing := some ⟨n, data, .loading e⟩ } ∧
        t = ((s.withCu t.cu).withBt { s.bt with entries := t.bt.entries }).withOwnWork t.lpu.ownQueue t.rw.waiting
          (s.lpu.nextTag + 1)

/-- R97, Table 5-5: validation passes exactly when the fourteen checks do, and otherwise names the first check that
fails; the fields are those of Table 11-8. -/
def Obligations.ValidationMakesTheChecks : Prop :=
  ∀ (s : State) (data : List Byte),
    let ref := field data 4 4
    let dest := field data 10 1
    let feeds := field data 11 1 :: [field data 12 1, field data 13 1, field data 14 1].filter (· ≠ 255)
    let startSec := field data 20 4
    let endSec := field data 24 4
    let next := field data 32 8
    let passes : List Prop :=
      [ field data 0 2 = 0x6A4B, ref ≠ 0,
        ∀ e < 128, (s.entry e).state ∉ [.empty, .fetching] → (s.entry e).desc.ref ≠ ref,
        field data 8 2 ≤ 1023, dest ≤ 47 ∧ s.windowDef dest ≠ none,
        (∀ f ∈ feeds, f ≤ 63 ∧ s.ringDef f ≠ none) ∧ feeds.Nodup,
        startSec < endSec ∧ endSec - startSec ≤ 86400, s.tb.seconds < endSec, field data 18 2 ≤ 600,
        field data 28 2 ≤ 240, field data 17 1 ≤ 15 ∧ s.tariff (field data 17 1) ≠ none, field data 16 1 ≤ 3,
        field data 15 1 ≤ 15, next = 0 ∨ next % 64 = 0 ∧ next < 1099511627776 ]
    (validation s data = none ↔ ∀ x ∈ passes, x) ∧
    ∀ k, validation s data = some k ↔
      1 ≤ k ∧ (∃ x, passes[k - 1]? = some x ∧ ¬x) ∧ ∀ j < k - 1, ∀ x, passes[j]? = some x → x

/-- R96 to R98, R100, R114: the response to a descriptor read ends its fetch. ERROR or a failing check makes the entry
EMPTY, answered by the result of Load Booking or by a CHAIN event. Data that pass make it SCHEDULED, with the BOOKING
event; a loaded booking is answered DONE, a chained one by nothing more. The boundaries already due then fire: here none,
or the preroll boundary, at which the booking is granted a destination without a holder and enters PREROLL. A response
whose fetch has been abandoned is discarded. That the request count stays at its ceiling is the model's reading (log
entry 11). -/
def Obligations.DescriptorReadEndsTheFetch : Prop :=
  ∀ (s : State) (o : OwnRequest) (before after : List Issued), s.lpu.issued = before ++ .own o :: after →
    o.kind = .descriptor → (∀ y ∈ before, ∀ z, y = .own z → z.req.tag ≠ o.req.tag) →
    let u := s.withLpu { s.lpu with issued := before ++ after }
    let fetches := fun i => (s.entry i).state = .fetching ∧ (s.entry i).fetchTag = some o.req.tag
    (∀ resp, (∀ e < 128, ¬fetches e) → exec (.descriptorReadResponse o.req.tag resp) s = .next u) ∧
    ∀ e, e < 128 → fetches e → (∀ i < e, ¬fetches i) →
      let x := s.entry e
      let lo := x.address % 4294967296
      let hi := x.address / 4294967296
      let passed := fun (data : List Byte) => { Entry.blank with
        state := .scheduled, origin := x.origin, address := x.address, desc := descriptorOf data,
        effStart := field data 20 4, selected := field data 11 1, armsLeft := field data 16 1,
        timeStepped := x.timeStepped }
      (∀ ex, x.origin = .command → s.cu.executing = some ex →
        (∃ t, exec (.descriptorReadResponse o.req.tag .error) s = .next t ∧
          Answered ex.slot ex.data ⟨.fetchError, 0, [e, lo, hi]⟩ (u.setEntry e Entry.blank) t) ∧
        (∀ data k, validation s data = some k → k ≠ 3 →
          ∃ t, exec (.descriptorReadResponse o.req.tag (.done data)) s = .next t ∧
            Answered ex.slot ex.data ⟨.descriptorInvalid, k, [e, field data 4 4]⟩ (u.setEntry e Entry.blank) t) ∧
        (∀ data i, validation s data = some 3 → bookingOf s (field data 4 4) = some i →
          ∃ t, exec (.descriptorReadResponse o.req.tag (.done data)) s = .next t ∧
            Answered ex.slot ex.data ⟨.duplicateRef, 3, [e, field data 4 4, i]⟩ (u.setEntry e Entry.blank) t) ∧
        (∀ data, validation s data = none → s.tb.seconds < field data 20 4 - field data 18 2 →
          ∃ t v, exec (.descriptorReadResponse o.req.tag (.done data)) s = .next t ∧
            Raised .booking 1 e [field data 4 4, 1, 2, 0] (u.setEntry e (passed data)) v ∧
            Answered ex.slot ex.data ⟨.done, 0, [e, field data 4 4, 2]⟩ v t)) ∧
      (∀ pred, x.origin = .chain pred →
        (∃ t, exec (.descriptorReadResponse o.req.tag .error) s = .next t ∧
          Raised .chain 1 e [lo, hi, 0, pred] (u.setEntry e Entry.blank) t) ∧
        (∀ data k, validation s data = some k →
          ∃ t, exec (.descriptorReadResponse o.req.tag (.done data)) s = .next t ∧
            Raised .chain 2 e [lo, hi, k, pred] (u.setEntry e Entry.blank) t) ∧
        (∀ data, validation s data = none → s.tb.seconds < field data 20 4 - field data 18 2 →
          ∃ t, exec (.descriptorReadResponse o.req.tag (.done data)) s = .next t ∧
            Raised .booking 1 e [field data 4 4, 1, 2, 0] (u.setEntry e (passed data)) t)) ∧
      ∀ data, validation s data = none → field data 20 4 - field data 18 2 ≤ s.tb.seconds →
        s.tb.seconds < field data 20 4 → s.holder (field data 10 1) = none →
        ∃ t, exec (.descriptorReadResponse o.req.tag (.done data)) s = .next t ∧
          t.bt.requestCount = min 18446744073709551615 (s.bt.requestCount + 1) ∧ t.holder (field data 10 1) = some e ∧
          t.entry e = { passed data with fired := 1, requestNo := t.bt.requestCount, state := .preroll } ∧
          (∀ i, i ≠ e → t.entry i = s.entry i) ∧
          ∀ ex, x.origin = .command → s.cu.executing = some ex →
            ∃ v, Answered ex.slot ex.data ⟨.done, 0, [e, field data 4 4, 4]⟩ v t

/-- R112, R184, R186, R190, R191: a booking that closes takes the next close sequence number and produces one final
record, CLOSE if it has been live and CANCEL otherwise, with its meters and counts as they stand. The record goes into
the billing ring, or to the tail of the pending billing queue, or stays in its entry, and the entry leaves CLOSING in the
first two cases. The holder of a destination does not stand in its queue (R116). That the close count stays at its
64-bit ceiling is the model's reading (log entry 11). -/
def Obligations.ClosingProducesOneFinalRecord : Prop :=
  ∀ (s : State) (e : Nat) (reason : CloseReason),
    let x := s.entry e
    x.state ∈ [.scheduled, .waiting, .preroll, .live, .suspended, .overrun] →
    (x.state ∈ [.preroll, .live, .overrun] → e ∉ s.grantQueue x.desc.dest) →
    let t := btClose e reason s
    ∃ r : BillRecord, r.kind = (if x.hasLive then .close else .cancel) ∧ r.reason = reason ∧ r.ref = x.desc.ref ∧
      r.account = x.desc.account ∧ r.dest = x.desc.dest ∧ r.tariff = x.desc.tariff ∧ r.meters = x.meters ∧
      r.takes = x.takes ∧ r.slips = x.slips ∧ r.failovers = x.failovers ∧ r.rough = x.rough ∧
      r.timeStepped = x.timeStepped ∧ r.liveNT = x.liveNT ∧ r.closeNT = s.tb.seconds ∧
      (x.hasLive = false → r.charge = 0 ∧ r.seconds = 0 ∧ r.minApplied = false ∧ r.capApplied = false) ∧
      (∀ tariff, x.hasLive = true → s.tariff x.desc.tariff = some tariff →
        r.charge = (chargeOf true tariff x.meters).charge ∧ r.seconds = (chargeOf true tariff x.meters).seconds) ∧
      t.bt.closeCount = min 18446744073709551615 (s.bt.closeCount + 1) ∧ t.tb = s.tb ∧ t.fm = s.fm ∧ t.mu = s.mu ∧
      (s.ringFull .billing = false → s.rw.pendingBilling = [] →
        (t.entry e).state ∈ [.empty, .fetching] ∧ t.rw.pendingBilling = [] ∧
        t.rw.billing = { s.rw.billing with producer := (s.rw.billing.producer + 1) % 512 } ∧
        ∃ o ∈ ownWork t, o.kind = .record .billing ∧ o.req.data = r.bytes ∧ o.req.len = 64) ∧
      (s.ringFull .billing = true ∨ s.rw.pendingBilling ≠ [] → t.rw.billing = s.rw.billing ∧
        (s.rw.pendingBilling.length < 8 →
          (t.entry e).state ∈ [.empty, .fetching] ∧ t.rw.pendingBilling = s.rw.pendingBilling ++ [r]) ∧
        (8 ≤ s.rw.pendingBilling.length →
          (t.entry e).state = .closing ∧ (t.entry e).record = some r ∧ (t.entry e).reason = reason ∧
          (t.entry e).closeSeq = some t.bt.closeCount ∧ t.rw.pendingBilling = s.rw.pendingBilling))

/-- R105: the three limits are tested at a local millisecond on the totals that it has taken, in the state they were taken
from. The row of a limit that the coming event reaches is that event (log entry 7): the booking closes with the limit's
reason, and its final record carries the last millisecond. A row whose limit is not reached changes nothing. Here
nothing falls due on the oscillator before the event, and the grants are in order (R115, R116). -/
def Obligations.MeterLimitsCloseBookings : Prop :=
  ∀ (s : State) (e : Nat), s.lpu.resetAsserted = false → NothingDue s → e < 128 → s.grantsInOrder →
    let x := s.entry e
    let m := x.meters
    let c := (s.delivery x.desc.dest).condition
    let count := fun k => min 4294967295 (k + 1)
    let closes := fun (row : Instr) (reason : CloseReason) (totals : Meters) => ∃ (t : State) (r : BillRecord),
      exec row s = .next t ∧ exec .localMillisecond s = .next t ∧
      (t.entry e).state ∈ [.closing, .empty, .fetching] ∧
      r.reason = reason ∧ r.ref = x.desc.ref ∧ r.meters = totals ∧ (x.hasLive = true → r.kind = .close) ∧
      ((∃ o ∈ ownWork t, o.kind = .record .billing ∧ o.req.data = r.bytes) ∨ r ∈ t.rw.pendingBilling ∨
        (t.entry e).record = some r)
    (∀ k : Meters, x.state = .live →
      (c = .clean ∧ k = { m with c := count m.c } ∨ c = .degraded ∧ k = { m with d := count m.d } ∨
        c = .outage ∧ k = { m with u := count m.u }) →
      86400000 ≤ k.c + k.d + k.u → closes (.windowCeiling e) .ended k) ∧
    (∀ k : Meters, x.state = .overrun →
      (c = .clean ∧ k = { m with oc := count m.oc } ∨ c = .degraded ∧ k = { m with od := count m.od } ∨
        c = .outage ∧ k = { m with ou := count m.ou }) →
      x.desc.allowance * 60000 ≤ k.oc + k.od + k.ou → closes (.allowanceExpiry e) .allowance k) ∧
    (x.state = .suspended → 86400000 ≤ count m.su →
      closes (.suspensionCeiling e) .endedWaiting { m with su := count m.su }) ∧
    (x.state ≠ .live ∨ m.c + m.d + m.u + 1 < 86400000 → exec (.windowCeiling e) s = .next s) ∧
    (x.state ≠ .overrun ∨ m.oc + m.od + m.ou + 1 < x.desc.allowance * 60000 →
      exec (.allowanceExpiry e) s = .next s) ∧
    (x.state ≠ .suspended ∨ m.su + 1 < 86400000 → exec (.suspensionCeiling e) s = .next s)

/-- R49, R99 to R104, R192: when NT has entered the next second the BT is given one report of it, and every boundary of an
open entry at or before the reported second fires. The second part says what one boundary does, where no other is due:
the preroll boundary of a SCHEDULED booking asks for the destination (here without a holder, before the effective start);
the start boundary makes a PREROLL booking LIVE, or LIVE the state to which a suspended one returns; the half boundary
produces a CHECKPOINT with the provisional charge, which is placed in the ring or in the pending billing queue or, with
both full, lost; the end boundary moves a LIVE booking into OVERRUN or closes it, and closes a waiting or suspended one.
In any other state a boundary is recorded as fired and does nothing. The grants are in order (R115, R116), since the close
of a holder grants the head of its queue. That the request count stays at its ceiling is the model's reading (log entry
11). -/
def Obligations.BoundariesFireAtSecondReports : Prop :=
  (∀ s : State, s.tb.seconds = s.tb.reported + 1 → tbReport s =
    (btReport s.tb.seconds s).withTb { (btReport s.tb.seconds s).tb with reported := s.tb.seconds }) ∧
  ∀ (s : State) (sec e : Nat), e < 128 → s.grantsInOrder →
    let x := s.entry e
    let at_ := fun (y : Entry) (i : Nat) =>
      if i = 0 then y.effStart - y.desc.preroll else if i = 1 then y.effStart
      else if i = 2 then y.effStart + (y.desc.endSec - y.effStart) / 2 else y.desc.endSec
    x.state ∈ [.scheduled, .waiting, .preroll, .live, .suspended, .overrun] → x.fired < 4 → at_ x x.fired ≤ sec →
    (x.fired < 3 → sec < at_ x (x.fired + 1)) →
    (∀ j < 128, j ≠ e → (s.entry j).state ∈ [.scheduled, .waiting, .preroll, .live, .suspended, .overrun] →
      (s.entry j).fired < 4 → sec < at_ (s.entry j) (s.entry j).fired) →
    let t := btReport sec s
    let y : Entry := { x with fired := x.fired + 1 }
    let v := s.setEntry e y
    let live : Entry := { y with
      state := .live, resume := none, hasLive := true, liveNT := if x.hasLive then x.liveNT else s.tb.seconds }
    let full := s.ringFull .billing = true ∨ s.rw.pendingBilling ≠ []
    (x.fired = 0 →
      (x.state = .scheduled → s.holder x.desc.dest = none → s.tb.seconds < x.effStart →
        t.bt.requestCount = min 18446744073709551615 (s.bt.requestCount + 1) ∧ t.holder x.desc.dest = some e ∧
        t.entry e = { y with requestNo := t.bt.requestCount, state := .preroll, resume := none }) ∧
      (x.state ≠ .scheduled → t = v)) ∧
    (x.fired = 1 →
      (x.state = .preroll → t.entry e = live ∧ t.ga = s.ga ∧ t.ru = s.ru) ∧
      (x.state = .suspended → x.resume = some .preroll → t = s.setEntry e { y with resume := (some .live) }) ∧
      (x.state ≠ .preroll → (x.state = .suspended → x.resume ≠ some .preroll) → t = v)) ∧
    (x.fired = 2 →
      (x.state ∈ [.waiting, .preroll, .live, .suspended] → x.desc.checkpoint = true →
        ∃ r : BillRecord, r.kind = .checkpoint ∧ r.reason = .none ∧ r.ref = x.desc.ref ∧ r.meters = x.meters ∧
          r.closeNT = s.tb.seconds ∧ r.minApplied = false ∧
          (∀ tariff, s.tariff x.desc.tariff = some tariff → r.charge = (chargeOf false tariff x.meters).charge ∧
            r.seconds = (chargeOf false tariff x.meters).seconds) ∧
          (¬full → Accepted .billing r.bytes v t) ∧
          (full → s.rw.pendingBilling.length < 8 →
            t = v.withRw { s.rw with pendingBilling := s.rw.pendingBilling ++ [r] }) ∧
          (full → 8 ≤ s.rw.pendingBilling.length →
            let lost := min 4294967295 (s.rw.checkpointsLost + 1)
            Raised .billing 3 e [x.desc.ref, r.charge, s.rw.pendingBilling.length, lost]
              (v.withRw { s.rw with checkpointsLost := lost }) t)) ∧
      (x.state ∉ [.waiting, .preroll, .live, .suspended] ∨ x.desc.checkpoint = false → t = v)) ∧
    (x.fired = 3 →
      (x.state = .live → x.desc.holdOn = true → 0 < x.desc.allowance →
        t.entry e = { y with state := .overrun, resume := none } ∧ t.ga = s.ga ∧ t.ru = s.ru) ∧
      (x.state = .live → x.desc.holdOn = false ∨ x.desc.allowance = 0 → t = btClose e .ended v) ∧
      (x.state = .waiting ∨ x.state = .suspended → t = btClose e .endedWaiting v) ∧
      (x.state ∈ [.scheduled, .preroll, .overrun] → t = v))

/-- R106, R107, R109: Cancel and Release act by the state of the booking. An accepted one closes it, with the next
descriptor address 0 where the end-chain flag is 1; the result gives the entry and its state after. -/
def Obligations.CancelAndReleaseActByState : Prop :=
  ∀ (s : State) (n : Nat) (data : List Byte) (rest : List Nat) (code : Nat) (c : Instr) (reason : CloseReason)
      (ends wrong : List BookingState),
    (code, c, reason, ends, wrong) ∈
      [(0x0502, Instr.cancel, CloseReason.cancelled, [.scheduled, .waiting, .preroll], [.live, .suspended, .overrun]),
       (0x0504, .release, .released, [.preroll, .live, .overrun, .suspended], [.scheduled, .waiting])] →
    Starts code s n data rest →
    let p := commandParam data
    (1 < p 1 → Gives c s n data (s.started rest) ⟨.range, 0, []⟩) ∧
    (p 1 ≤ 1 → bookingOf s (p 0) = none → Gives c s n data (s.started rest) ⟨.notFound, 0, []⟩) ∧
    ∀ e, p 1 ≤ 1 → bookingOf s (p 0) = some e →
      let x := s.entry e
      (x.state ∈ ends →
        let v := if p 1 = 1 then (s.started rest).setEntry e { x with desc := { x.desc with next := 0 } }
          else s.started rest
        let u := btClose e reason v
        Gives c s n data u ⟨.done, 0, [e, (u.entry e).state.num]⟩) ∧
      (x.state ∈ wrong → Gives c s n data (s.started rest) ⟨.wrongState, 0, [e, x.state.num]⟩) ∧
      (x.state = .closing → Gives c s n data (s.started rest) ⟨.tooLate, 0, [e, 8]⟩)

/-- R108: Advance moves the effective start to the present second. A SCHEDULED booking takes the next request number and,
where its destination has no holder, is granted it and enters LIVE; a PREROLL booking enters LIVE; a WAITING one stays.
(The half boundary is at least a second away here.) R106, R110: Extend sets the allowance and the hold-on flag of an open
booking; one that has metered overrun may not be brought to or below it. That Advance answers WRONG_STATE before it tests
the end second is the model's choice (log entry 14), and that the request count stays at its ceiling its reading (log
entry 11). -/
def Obligations.AdvanceAndExtendMoveTheBooking : Prop :=
  (∀ (s : State) (n : Nat) (data : List Byte) (rest : List Nat) (e : Nat), Starts 0x0503 s n data rest →
      bookingOf s (commandParam data 0) = some e →
      let x := s.entry e
      let nt := s.tb.seconds
      let y := { x with effStart := nt, fired := max x.fired 2 }
      (x.state ∈ [.live, .suspended, .overrun, .closing] →
        Gives .advance s n data (s.started rest) ⟨.wrongState, 0, [e, x.state.num]⟩) ∧
      (x.state ∈ [.scheduled, .waiting, .preroll] → x.desc.endSec ≤ nt ∨ 86400 < x.desc.endSec - nt →
        Gives .advance s n data (s.started rest) ⟨.range, 0, []⟩) ∧
      (nt + 2 ≤ x.desc.endSec → x.desc.endSec - nt ≤ 86400 →
        (x.state = .waiting → Gives .advance s n data ((s.started rest).setEntry e y) ⟨.done, 0, [e, 3, nt]⟩) ∧
        (x.state = .preroll → ∃ u, Gives .advance s n data u ⟨.done, 0, [e, 5, nt]⟩ ∧
          u.entry e = { y with
            state := .live, resume := none, hasLive := true, liveNT := if x.hasLive then x.liveNT else nt } ∧
          u.ga = s.ga ∧ u.ru = s.ru ∧ ∀ i, i ≠ e → u.entry i = s.entry i) ∧
        (x.state = .scheduled → s.holder x.desc.dest = none → ∃ u, Gives .advance s n data u ⟨.done, 0, [e, 5, nt]⟩ ∧
          u.holder x.desc.dest = some e ∧ u.bt.requestCount = min 18446744073709551615 (s.bt.requestCount + 1) ∧
          u.entry e = { y with
            requestNo := u.bt.requestCount, state := .live, resume := none, hasLive := true,
            liveNT := if x.hasLive then x.liveNT else nt } ∧
          ∀ i, i ≠ e → u.entry i = s.entry i))) ∧
  (∀ (s : State) (n : Nat) (data : List Byte) (rest : List Nat), Starts 0x0505 s n data rest →
      let p := commandParam data
      (1 < p 2 → Gives .extend s n data (s.started rest) ⟨.range, 0, []⟩) ∧
      (p 2 ≤ 1 → bookingOf s (p 0) = none → Gives .extend s n data (s.started rest) ⟨.notFound, 0, []⟩) ∧
      ∀ e, p 2 ≤ 1 → bookingOf s (p 0) = some e →
        let x := s.entry e
        let minutes := min 240 (p 1)
        let metered := (x.state = .overrun ∨ x.state = .suspended ∧ x.resume = some .overrun) ∧
          minutes * 60000 ≤ x.meters.oc + x.meters.od + x.meters.ou
        (x.state = .closing → Gives .extend s n data (s.started rest) ⟨.tooLate, 0, [e, 8]⟩) ∧
        (metered → Gives .extend s n data (s.started rest) ⟨.range, 0, []⟩) ∧
        (x.state ≠ .closing → ¬metered → Gives .extend s n data
          ((s.started rest).setEntry e { x with desc := { x.desc with allowance := minutes, holdOn := p 2 == 1 } })
          ⟨if p 1 ≤ 240 then .done else .clamped, 0, [e, x.state.num, minutes, p 2]⟩))

/-- R101, R116 to R118: a request of a SCHEDULED booking for its destination. It is granted where there is no holder; it
suspends a preemptible holder of lower priority where it may preempt; otherwise it waits. A queue keeps its order,
highest priority first and lowest request number first among equals, when an entry joins. -/
def Obligations.RequestGrantsPreemptsOrQueues : Prop :=
  ∀ (s : State) (b : Nat),
    let x := s.entry b
    let d := x.desc.dest
    let t := gaRequest b s
    let granted : BookingState := if x.fired < 2 ∧ s.tb.seconds < x.effStart then .preroll else .live
    let ordered := fun (u : State) (l : List Nat) => l.Pairwise (fun i j =>
      (u.entry j).desc.priority < (u.entry i).desc.priority ∨
      (u.entry i).desc.priority = (u.entry j).desc.priority ∧ (u.entry i).requestNo ≤ (u.entry j).requestNo)
    x.state = .scheduled →
    (s.holder d = none → t.holder d = some b ∧ (t.entry b).state = granted ∧ t.grantQueue d = s.grantQueue d ∧
      ∀ i, i ≠ b → t.entry i = s.entry i) ∧
    (∀ a, s.holder d = some a → a ≠ b → (s.entry a).state ∈ [.preroll, .live, .overrun] →
      let y := s.entry a
      (y.desc.priority < x.desc.priority ∧ x.desc.mayPreempt = true ∧ y.desc.preemptible = true →
        t.holder d = some b ∧ (t.entry b).state = granted ∧
        t.entry a = { y with state := .suspended, resume := some y.state } ∧
        (t.grantQueue d).Perm (a :: s.grantQueue d) ∧ (ordered s (s.grantQueue d) → ordered t (t.grantQueue d)) ∧
        ∀ i, i ≠ a → i ≠ b → t.entry i = s.entry i) ∧
      (¬(y.desc.priority < x.desc.priority ∧ x.desc.mayPreempt = true ∧ y.desc.preemptible = true) →
        t.holder d = some a ∧ t.entry b = { x with state := .waiting } ∧ (t.grantQueue d).Perm (b :: s.grantQueue d) ∧
        (ordered s (s.grantQueue d) → ordered t (t.grantQueue d)) ∧ t.ru = s.ru ∧ t.dm = s.dm ∧
        ∀ i, i ≠ b → t.entry i = s.entry i)) ∧
    ∀ g, g ≠ d → t.holder g = s.holder g ∧ t.grantQueue g = s.grantQueue g

/-- R120 to R124, R129: the holder `a` of a destination is released. In RUN the head of the queue becomes the holder and
moves into PREROLL, LIVE or its resume state (R121), with its BOOKING event and HANDED_ON; with an empty queue, and
outside RUN, the destination is left without a holder, with VACATED. The holder change notice follows: it answers held
reads from the slate, cancels the pending take, places a change to slate, clears what the route kept for the old holder,
requests the take of the new one in RUN (here its three outcomes of R131 and R132), and ends the impairment hold. R122: a
waiting or suspended booking that closes is withdrawn from the queue; the holder stays, and the RU and the DM are not
told. -/
def Obligations.ReleaseHandsOnOrVacates : Prop :=
  (∀ (s : State) (d a : Nat),
    (∀ h rest, s.lpu.mode = .run → s.grantQueue d = h :: rest →
      let x := s.entry h
      let early := x.fired < 2 ∧ s.tb.seconds < x.effStart
      let granted : BookingState :=
        if x.state = .suspended ∧ x.resume ≠ none ∧ x.resume ≠ some .preroll then x.resume.getD .live
        else if early then .preroll else .live
      let moved : Entry :=
        if granted = .live ∧ x.hasLive = false then
          { x with state := .live, resume := none, hasLive := true, liveNT := s.tb.seconds }
        else { x with state := granted, resume := none }
      ∃ u v, Raised .booking 1 h [x.desc.ref, x.state.num, granted.num, 0]
          (((s.setGrantQueue d rest).setHolder d (some h)).setEntry h moved) u ∧
        Raised .grant 4 d [h, a, x.desc.ref, rest.length] u v ∧
        gaRelease d a s = gaNotice d (some h) (if x.state = .suspended then .resume else .start) v) ∧
    (s.lpu.mode ≠ .run ∨ s.grantQueue d = [] →
      ∃ v, Raised .grant 5 d [255, a, (s.entry a).desc.ref, (s.grantQueue d).length] (s.setHolder d none) v ∧
        gaRelease d a s = gaNotice d none .start v)) ∧
  (∀ (s : State) (d : Nat) (new : Option Nat) (reason : TakeReason) (rt : Route), s.route d = some rt → reason ≠ .cue →
    let t := gaNotice d new reason s
    let kept : Route := { rt with
      take := none, change := (some .toSlate), wanted := none, failoverSince := false, revert := 0, freeze := none }
    t.lpu.holds = s.lpu.holds.filter (fun h => h.dest ≠ d) ∧
    (t.delivery d).impairment = 0 ∧ (s.holder d = none → (t.delivery d).condition = .none) ∧
    (∀ g, g ≠ d → t.route g = s.route g ∧ t.delivery g = s.delivery g) ∧ t.bt = s.bt ∧ t.ga = s.ga ∧ t.fm = s.fm ∧
    (s.hold d = none → t.lpu.latches = s.lpu.latches ∧ t.lpu.forwarding = s.lpu.forwarding) ∧
    (∀ h w, s.hold d = some h → s.windowDef d = some w → t.latch d = some ⟨h.slot, .decided .slate⟩ ∧
      ∃ sent, List.Forall₂ (s.Sends .slate d) h.reads sent ∧
        t.lpu.forwarding ++ t.lpu.decidedReads = s.lpu.forwarding ++ s.lpu.decidedReads ++ sent) ∧
    (new = none ∨ s.lpu.mode ≠ .run → t.route d = some kept) ∧
    (∀ e, new = some e → s.lpu.mode = .run →
      let g := (s.entry e).selected
      (s.usable g = false → t.route d = some { kept with take := (some ⟨g, reason, .waitSource, none, false, 0⟩) }) ∧
      (s.usable g = true → ruSearch s d g = none →
        t.route d = some { kept with take := (some ⟨g, reason, .arming, none, false, 0⟩) }) ∧
      ∀ p, s.usable g = true → ruSearch s d g = some p →
        t.route d = some { kept with take := (some ⟨g, reason, .ready, some p, false, 0⟩) }) ∧
    (∀ tk, new = none → s.hold d = none → rt.take = some tk →
      ∃ v, Raised .take 4 d [tk.target, tk.reason.num, tk.state.num, 255] s v ∧
        t = (v.setRoute d (some kept)).setDelivery d (t.delivery d)) ∧
    (∀ e, new = some e → s.lpu.mode = .run → s.hold d = none → rt.take = none → s.usable (s.entry e).selected = false →
      ∃ v, Raised .take 1 d [(s.entry e).selected, reason.num, 1, 255] s v ∧
        t = (v.setRoute d (t.route d)).setDelivery d (t.delivery d))) ∧
  ∀ (s : State) (e : Nat) (reason : CloseReason),
    let x := s.entry e
    let t := btClose e reason s
    (x.state = .waiting ∨ x.state = .suspended →
      t.grantQueue x.desc.dest = (s.grantQueue x.desc.dest).filter (fun i => i ≠ e) ∧
      (∀ d, t.holder d = s.holder d ∧ (d ≠ x.desc.dest → t.grantQueue d = s.grantQueue d)) ∧ t.ru = s.ru ∧ t.dm = s.dm) ∧
    (x.state ∈ [.preroll, .live, .overrun] → t.ga = (gaRelease x.desc.dest e s).ga)

/-! ### Takes and timers -/

/-- R131, R139 to R143: the operator takes. Take and Cue request a take to a feed of the holder's feed set, here a usable
feed for which the arming search finds slot `p` (R132), in place of any pending take; Take also selects the feed. Confirm
makes a cued take READY and selects its target; Uncue removes it. R139: what the take commands refuse. -/
def Obligations.TakeCommandsActOnThePendingTake : Prop :=
  (∀ (s : State) (n : Nat) (data : List Byte) (rest : List Nat) (e : Nat) (rt : Route), s.lpu.mode = .run →
      let p := commandParam data
      p 0 < 48 → s.holder (p 0) = some e → s.route (p 0) = some rt →
      let ref := (s.entry e).desc.ref
      (∀ slot, ruSearch s (p 0) (p 1) = some slot → s.usable (p 1) = true → p 1 ≤ 63 → p 1 ∈ (s.entry e).desc.feedSet →
        (Starts 0x0701 s n data rest → ∃ u, Gives .take s n data u ⟨.done, 0, [4, p 1, slot, ref]⟩ ∧
          u.entry e = { s.entry e with selected := p 1 } ∧
          (u.route (p 0)).bind Route.take = some ⟨p 1, .manual, .ready, some slot, false, 0⟩ ∧ u.ga = s.ga ∧ u.fm = s.fm) ∧
        (Starts 0x0702 s n data rest → ∃ u, Gives .cue s n data u ⟨.done, 0, [3, p 1, slot, ref]⟩ ∧
          u.route (p 0) = some { rt with take := some ⟨p 1, .cue, .cued, some slot, false, 0⟩ } ∧ u.bt = s.bt ∧
          u.ga = s.ga ∧ u.fm = s.fm)) ∧
      (∀ tk, rt.take = some tk → tk.state = .cued →
        (Starts 0x0703 s n data rest → ∃ u,
          Gives .confirm s n data u ⟨.done, 0, [4, tk.target, tk.slot.getD 65536, ref]⟩ ∧
          u.entry e = { s.entry e with selected := tk.target } ∧
          (u.route (p 0)).bind Route.take = some { tk with state := .ready, reason := .manual } ∧ u.ga = s.ga ∧
          u.fm = s.fm) ∧
        (Starts 0x0704 s n data rest → (∃ f, rt.source = .feed f ∧ s.usable f = true) → ∃ u,
          Raised .take 5 (p 0) [tk.target, tk.slot.getD 65536, ref, 0]
            ((s.started rest).setRoute (p 0) (some { rt with take := none })) u ∧
          Gives .uncue s n data u ⟨.done, 0, [0, 255, 65536, ref]⟩)) ∧
      ((∀ tk, rt.take = some tk → tk.state ≠ .cued) →
        (Starts 0x0703 s n data rest → Gives .confirm s n data (s.started rest) ⟨.wrongState, 0, []⟩) ∧
        (Starts 0x0704 s n data rest → Gives .uncue s n data (s.started rest) ⟨.wrongState, 0, []⟩))) ∧
  (∀ (s : State) (n : Nat) (data : List Byte) (rest : List Nat) (code : Nat) (c : Instr),
      (code, c) ∈ [(0x0701, Instr.take), (0x0702, .cue), (0x0703, .confirm), (0x0704, .uncue)] → Starts code s n data rest →
      let p := commandParam data
      let named := c = .take ∨ c = .cue
      (47 < p 0 ∨ named ∧ 63 < p 1 → Gives c s n data (s.started rest) ⟨.range, 0, []⟩) ∧
      (p 0 ≤ 47 → (named → p 1 ≤ 63) →
        (s.holder (p 0) = none → Gives c s n data (s.started rest) ⟨.notBooked, 0, []⟩) ∧
        (∀ e, named → s.holder (p 0) = some e → p 1 ∉ (s.entry e).desc.feedSet →
          Gives c s n data (s.started rest) ⟨.notBooked, 0, []⟩)))

/-- R86, R132 to R134, R144 to R149: what the RU does with the reports of the FM. The first part takes one destination without
a held read. A health report that makes the target of its take unusable or usable sends the take to WAIT_SOURCE or arms it. One
that makes the current feed unusable starts the freeze timer, or at a limit of 0 places the change to slate at once; then
comes the failover: to a usable feed a FAILOVER take that uses an arm, to an unusable one the wanted feed and DEFERRED, and in
both cases the failover-since flag; where the failover does nothing more the restore test decides. One that makes the current
feed usable stops the freeze timer. One that makes the wanted feed usable takes up the deferred failover, and otherwise the
restore test decides. The revert count becomes 0 unless its conditions hold. A search is given where it finds slot `p`. The
second part is the slot completion report of the take's target; that a READY take which goes back to ARMING has no p and a
clear rough flag is the model's choice (log entry 22). The third part says where the reports come from: a scored error that
makes a DEGRADED feed FAILED reports to every destination, here to the only one with a route record, and a clean completion
of a HEALTHY feed makes its slot completion report. -/
def Obligations.ReportsReachTheRoutes : Prop :=
  (∀ (s : State) (d f : Nat) (was is : Bool) (rt : Route) (kept : Nat), s.route d = some rt → s.hold d = none →
    let reverts := ∃ e, s.holder d = some e ∧ (s.entry e).desc.autoRevert = true ∧ rt.failoverSince = true ∧
      rt.source = .feed (s.entry e).desc.backup ∧ (s.entry e).desc.backup ≠ (s.entry e).selected ∧
      (s.feedRec (s.entry e).selected).map FeedRecord.health = some .healthy
    (reverts → kept = rt.revert) → (¬reverts → kept = 0) →
    let t := ruHealthReport f was is d s
    let on : Route := { rt with revert := kept }
    let old := (rt.take.map Take.target).getD 255
    let quiet := t.bt = s.bt ∧ t.rw = s.rw ∧ t.lpu = s.lpu
    let raised := fun (kind : Nat) (words : List Nat) => ∃ v w, v.rw = s.rw ∧ v.lpu = s.lpu ∧ v.tb = s.tb ∧
      Raised .take kind d words v w ∧ t.rw = w.rw ∧ t.lpu = w.lpu
    (∀ g, g ≠ d → t.route g = s.route g) ∧ t.fm = s.fm ∧ t.ga = s.ga ∧
    (was = is → t.route d = some on ∧ quiet) ∧
    (∀ tk, rt.take = some tk → rt.source ≠ .feed f → rt.wanted ≠ some f →
      (∀ e, s.holder d = some e → (s.entry e).selected ≠ f) →
      let ends := fun (k : Take) => t.route d = some { on with take := (some k) } ∧ quiet ∧ t.dm = s.dm
      (tk.target ≠ f → ends tk) ∧
      (tk.target = f → was = true → is = false →
        (tk.state = .waitSource → ends tk) ∧
        (tk.state = .arming → ends { tk with state := .waitSource, slot := none, rough := false }) ∧
        (tk.state = .ready ∨ tk.state = .cued →
          ends { tk with state := .waitSource, slot := none, rough := false, timer := 0 })) ∧
      (tk.target = f → was = false → is = true →
        (tk.state ≠ .waitSource → ends tk) ∧
        (tk.state = .waitSource →
          (ruSearch s d f = none → ends { tk with state := .arming, slot := none, rough := false }) ∧
          ∀ p, ruSearch s d f = some p → ends { tk with
            state := (if tk.reason = .cue then .cued else .ready), slot := some p, rough := false }))) ∧
    (was = false → is = true → rt.source = .feed f → s.usable f = true → (∀ tk, rt.take = some tk → tk.target ≠ f) →
      t.route d = some { on with freeze := none } ∧ quiet) ∧
    ∀ e, s.holder d = some e → s.lpu.mode = .run →
      let x := s.entry e
      let target := if x.selected = x.desc.backup then some x.desc.primary
        else if x.desc.backup = 255 then none else some x.desc.backup
      let idle := (∀ w, rt.wanted = some w → s.usable w = false) ∧ s.usable x.selected = false
      let restores := fun (g : Nat) => s.usable g = true ∧
        (rt.wanted = some g ∨ (∀ w, rt.wanted = some w → s.usable w = false) ∧ g = x.selected)
      (was = true → is = false → rt.source = .feed f → s.usable f = false → rt.change ≠ some .toSlate →
        let waits := fun (tk : Take) => if tk.target = f ∧ tk.state ≠ .waitSource then
          { tk with state := .waitSource, slot := none, rough := false, timer := if tk.state = .arming then tk.timer else 0 }
          else tk
        let busy := ∃ tk, rt.take = some tk ∧ tk.state ≠ .cued ∧ s.usable tk.target = true
        let frozen : Route := { on with freeze := some 0, take := rt.take.map waits }
        (0 < (s.destParams d).freezeLimit →
          (∀ g, ¬busy → target = some g → g ≠ f → x.desc.autoFailover = true → 0 < x.armsLeft →
            (∀ p, s.usable g = true → ruSearch s d g = some p →
              t.route d = some { frozen with
                failoverSince := true, take := (some ⟨g, .failover, .ready, some p, false, 0⟩) } ∧
              t.entry e = { x with armsLeft := x.armsLeft - 1 } ∧ raised 1 [g, 5, 4, old]) ∧
            (s.usable g = false → rt.take ≠ none ∨ s.usable x.selected = false →
              t.route d = some { frozen with failoverSince := true, wanted := some g } ∧ t.bt = s.bt ∧
              raised 6 [g, f, x.armsLeft])) ∧
          (busy ∨ target = none ∨ target = some f ∨ x.desc.autoFailover = false ∨ x.armsLeft = 0 →
            (rt.take ≠ none ∨ idle → t.route d = some frozen ∧ quiet) ∧
            ∀ g p, rt.take = none → restores g → ruSearch s d g = some p →
              t.route d = some { frozen with take := (some ⟨g, .restore, .ready, some p, false, 0⟩) } ∧ t.bt = s.bt ∧
              raised 1 [g, 7, 4, 255])) ∧
        ((s.destParams d).freezeLimit = 0 → rt.take = none → idle →
          let wanted := rt.wanted.getD f
          t.route d = some { on with change := (some .toSlate), wanted := some wanted, freeze := none } ∧
          (t.delivery d).condition = .outage ∧ t.bt = s.bt ∧ raised 7 [f, 0, wanted])) ∧
      (was = false → is = true → s.usable f = true →
        let deferred := rt.wanted = some f ∧ (∃ c, rt.source = .feed c ∧ s.usable c = false) ∧ rt.change ≠ some .toSlate ∧
          x.desc.autoFailover = true ∧ 0 < x.armsLeft ∧ target = some f
        (∀ p, deferred → (∀ tk, rt.take = some tk → s.usable tk.target = false) → ruSearch s d f = some p →
          t.route d = some { on with take := (some ⟨f, .failover, .ready, some p, false, 0⟩) } ∧
          t.entry e = { x with armsLeft := x.armsLeft - 1 } ∧ raised 1 [f, 5, 4, old]) ∧
        (∀ g p, ¬deferred → rt.take = none → rt.wanted = some f ∨ x.selected = f →
          rt.source = .slate ∨ (∃ c, rt.source = .feed c ∧ s.usable c = false) → restores g → ruSearch s d g = some p →
          t.route d = some { on with take := (some ⟨g, .restore, .ready, some p, false, 0⟩) } ∧ t.bt = s.bt ∧
          raised 1 [g, 7, 4, 255]))) ∧
  (∀ (s : State) (d f : Nat) (rt : Route) (tk : Take) (x : FeedRecord), s.route d = some rt → rt.take = some tk →
    s.hold d = none → s.feedRec f = some x →
    let t := ruSlotCompletion f d s
    let n := s.ringDepth
    let ends := fun (k : Take) => t.route d = some { rt with take := (some k) } ∧ (∀ g, g ≠ d → t.route g = s.route g) ∧
      t.bt = s.bt ∧ t.rw = s.rw ∧ t.lpu = s.lpu ∧ t.dm = s.dm
    let far := fun p => n / 2 < modSub n x.lastSlot p
    let armed : TakeState := if tk.reason = .cue then .cued else .ready
    let again : Take := { tk with state := .arming, slot := none, rough := false, timer := 0 }
    (tk.target ≠ f ∨ tk.state = .waitSource → ends tk) ∧
    (tk.target = f →
      (tk.state = .arming →
        (∀ q, ruSearch s d f = some q → ends { tk with state := armed, slot := some q, rough := false }) ∧
        (ruSearch s d f = none → tk.slot = none → tk.rough = false → ends tk)) ∧
      ∀ p, tk.slot = some p →
        (tk.state = .ready → tk.rough = false →
          (¬far p → ends tk) ∧ (far p → ruSearch s d f = none → ends again) ∧
          ∀ q, far p → ruSearch s d f = some q → ends { tk with state := armed, slot := some q, timer := 0 }) ∧
        (tk.state = .ready → tk.rough = true →
          (∀ q, ruSearch s d f = some q → ends { tk with slot := some q, rough := false }) ∧
          (ruSearch s d f = none → (far p → ends again) ∧ (¬far p → ends tk))) ∧
        (tk.state = .cued →
          (∀ q, ruSearch s d f = some q → ends { tk with slot := some q, rough := false }) ∧
          (ruSearch s d f = none → ¬far p → ends tk) ∧
          (ruSearch s d f = none → far p →
            ends { tk with slot := some (modSub n x.lastSlot (s.delivery d).lag), rough := true })))) ∧
  ∀ (s : State) (d f : Nat) (x : FeedRecord), d < 48 → (∀ g < 48, g ≠ d → s.route g = none) → s.feedRec f = some x →
    (∀ k, x.health = .degraded → (s.feedParams f).failThreshold ≤ min 1023 (x.score + k) →
      let failed : FeedRecord := { x with
        score := min 1023 (x.score + k), health := .failed, attempts := min 15 (x.attempts + 1), stateTimer := 0 }
      ∃ u, Raised .feed 1 f [4, 5, failed.score, failed.attempts] (s.setFeedRec f (some failed)) u ∧
        fmScored f k s = dmReclassFeed f (ruHealthReport f true false d u)) ∧
    (∀ (w o : Nat) (r : Request) (head : UnitHead), WriterAt s f w o r → o ≠ 0 → o + r.len = 2048 →
      x.openUnit = some ⟨w, some head⟩ → head.result = .inOrder → head.testSignal = x.testSignal →
      x.health = .healthy → x.score - 1 < (s.feedParams f).degradeThreshold → s.lpu.holds = [] →
      ∃ y, exec (.ringWrite r) s = .next (ruSlotCompletion f d ((s.passed r).setFeedRec f (some y))))

/-- R135, R136, R144, R148, R150, R151: the timers of a route, tested at a local millisecond; R164, R166, R167, R169: the
impairment hold and the adaptation period. The first part says what each test does at its limit. A take in ARMING is
armed roughly at (c - Λ) mod N; one in WAIT_SOURCE fails and leaves its target wanted, here with no target for the tests
that follow; the freeze limit places a change to slate; the revert hold requests a take to the selected feed. With three
repeats or more and the flag enabled the end of the period raises Λ by one, below Λmax, asks a lag repeat and raises
LAG_RAISED; the period starts afresh in every case. At the end of the impairment hold the condition is recomputed, here
for a healthy feed that is not billed as degraded. The second part gives the rows: the row of an interval that the coming
local millisecond event reaches is that event (log entry 7), here one at which no feed, booking or second is due, and any
other row changes nothing. -/
def Obligations.TimersActAtTheirLimits : Prop :=
  (∀ (s : State) (d : Nat) (rt : Route), s.lpu.mode = .run → s.route d = some rt →
      let par := s.destParams d
      (ruMillisecond d s =
        ruRevertTest d (ruRevertCount d (ruFreezeTest d (ruFreezeCount d (ruTakeTimeoutTest d (ruTakeCount d s)))))) ∧
      (∀ tk, rt.take = some tk → (tk.state = .arming ∨ tk.state = .waitSource) →
        ruTakeCount d s = s.setRoute d (some { rt with take := (some { tk with timer := tk.timer + 1 }) })) ∧
      (∀ tk, rt.take = some tk → par.takeTimeout ≤ tk.timer →
        (tk.state = .arming → ruTakeTimeoutTest d s = s.setRoute d (some { rt with take := (some
          { tk with state := (if tk.reason = .cue then .cued else .ready), rough := true,
                    slot := some (modSub s.ringDepth (s.lastSlot tk.target) (s.delivery d).lag) }) })) ∧
        (∀ e, tk.state = .waitSource → s.holder d = some e → s.usable tk.target = false →
          s.usable (s.entry e).selected = false →
          Raised .take 3 d [tk.target, tk.reason.num, (s.entry e).desc.ref, par.takeTimeout]
            (s.setRoute d (some { rt with take := none, wanted := some tk.target })) (ruTakeTimeoutTest d s))) ∧
      ((∀ tk, rt.take = some tk → tk.timer < par.takeTimeout) → ruTakeTimeoutTest d s = s) ∧
      (∀ k, rt.freeze = some k → ruFreezeCount d s = s.setRoute d (some { rt with freeze := some (k + 1) })) ∧
      (∀ e f k, s.holder d = some e → rt.source = .feed f → rt.freeze = some k → par.freezeLimit ≤ k →
        let wanted := rt.wanted.getD f
        let u := s.setRoute d (some { rt with change := (some .toSlate), wanted := some wanted, freeze := none })
        ∃ v, Raised .take 7 d [f, par.freezeLimit, wanted] u v ∧
          ruFreezeTest d s = v.setDelivery d { s.delivery d with condition := .outage }) ∧
      ((∀ k, rt.freeze = some k → k < par.freezeLimit) → ruFreezeTest d s = s) ∧
      (∀ e slot, s.holder d = some e →
        let x := s.entry e
        (s.feedRec x.selected).map FeedRecord.health = some .healthy → ruSearch s d x.selected = some slot →
        x.desc.autoRevert = true → rt.failoverSince = true → rt.source = .feed x.desc.backup →
        x.desc.backup ≠ x.selected → rt.take = none →
        ruRevertCount d s = s.setRoute d (some { rt with revert := rt.revert + 1 }) ∧
        (par.revertHold * 1000 ≤ rt.revert → Raised .take 1 d [x.selected, 6, 4, 255]
          (s.setRoute d (some
            { rt with revert := 0, take := some ⟨x.selected, .revert, .ready, some slot, false, 0⟩ }))
          (ruRevertTest d s))) ∧
      (rt.revert < par.revertHold * 1000 → ruRevertTest d s = s)) ∧
  (∀ (s : State) (d : Nat) (rt : Route), s.route d = some rt →
      let x := s.delivery d
      (10000 ≤ x.periodCount → x.adapt = true → 3 ≤ x.periodRepeats → x.lag < x.lagMax → rt.change = none →
        ∃ v, Raised .slip 4 d [x.lag + 1, x.lagMax, x.periodRepeats, 0]
            ((s.setDelivery d { x with lag := x.lag + 1 }).setRoute d (some { rt with change := (some .lagRepeat) })) v ∧
          dmPeriodTest d s = v.setDelivery d { x with lag := x.lag + 1, periodCount := 0, periodRepeats := 0 }) ∧
      (10000 ≤ x.periodCount → x.adapt = false ∨ x.periodRepeats < 3 ∨ x.lagMax ≤ x.lag →
        dmPeriodTest d s = s.setDelivery d { x with periodCount := 0, periodRepeats := 0 }) ∧
      (x.periodCount < 10000 → dmPeriodTest d s = s) ∧
      (∀ e f y, x.impairment = 1 → s.holder d = some e → rt.source = .feed f → rt.change ≠ some .toSlate →
        s.feedRec f = some y → y.health = .healthy → y.testSignal = false → (s.entry e).desc.billBackupDegraded = false →
        dmImpairmentTick d s = s.setDelivery d { x with impairment := 0, condition := .clean }) ∧
      (1 < x.impairment → dmImpairmentTick d s = s.setDelivery d { x with impairment := x.impairment - 1 }) ∧
      (x.impairment = 0 → dmImpairmentTick d s = s)) ∧
  ∀ (s : State) (d : Nat) (rt : Route), s.lpu.resetAsserted = false → d < 48 → s.lpu.mode = .run → NothingDue s →
    s.route d = some rt →
    let par := s.destParams d
    let x := s.delivery d
    let become := fun (row : Instr) (claim : State → Prop) => ∃ t, exec row s = .next t ∧
      exec .localMillisecond s = .next t ∧ claim t
    (OnlyTimersDue s →
      (∀ tk, rt.take = some tk → par.takeTimeout ≤ tk.timer + 1 → x.periodCount + 1 < 10000 →
        (tk.state = .arming → become (.takeTimeout d) (fun t => (t.route d).bind Route.take = some
          { tk with state := (if tk.reason = .cue then .cued else .ready), rough := true, timer := tk.timer + 1,
                    slot := some (modSub s.ringDepth (s.lastSlot tk.target) x.lag) })) ∧
        (∀ e, tk.state = .waitSource → s.holder d = some e → s.usable tk.target = false →
          s.usable (s.entry e).selected = false → become (.takeTimeout d) (fun t => ∃ rt2, t.route d = some rt2 ∧
            rt2.take = none ∧ rt2.wanted = some tk.target))) ∧
      (∀ e f k, s.holder d = some e → rt.source = .feed f → rt.take = none → rt.freeze = some k →
        par.freezeLimit ≤ k + 1 → become (.freezeLimit d) (fun t => (t.delivery d).condition = .outage ∧
          ∃ rt2, t.route d = some rt2 ∧ rt2.change = some .toSlate ∧ rt2.wanted = some (rt.wanted.getD f) ∧
            rt2.freeze = none)) ∧
      (∀ e slot, s.holder d = some e → (s.feedRec (s.entry e).selected).map FeedRecord.health = some .healthy →
        ruSearch s d (s.entry e).selected = some slot → (s.entry e).desc.autoRevert = true → rt.failoverSince = true →
        rt.source = .feed (s.entry e).desc.backup → (s.entry e).desc.backup ≠ (s.entry e).selected → rt.take = none →
        x.periodCount + 1 < 10000 → par.revertHold * 1000 ≤ rt.revert + 1 →
        become (.revertHold d) (fun t => ∃ rt2, t.route d = some rt2 ∧ rt2.revert = 0 ∧
          rt2.take = some ⟨(s.entry e).selected, .revert, .ready, some slot, false, 0⟩)) ∧
      (10000 ≤ x.periodCount + 1 → rt.freeze = none → rt.change = none →
        let raised := x.adapt = true ∧ 3 ≤ x.periodRepeats ∧ x.lag < x.lagMax
        become (.adaptationPeriodEnd d) (fun t => (t.delivery d).periodCount = 0 ∧ (t.delivery d).periodRepeats = 0 ∧
          (t.delivery d).lag = (if raised then x.lag + 1 else x.lag) ∧
          (t.route d).map Route.change = some (if raised then some .lagRepeat else none))) ∧
      (∀ e f y, x.impairment = 1 → s.holder d = some e → rt.source = .feed f → rt.change ≠ some .toSlate →
        rt.freeze = none → s.feedRec f = some y → y.health = .healthy → y.testSignal = false →
        (s.entry e).desc.billBackupDegraded = false →
        become (.impairmentHoldEnd d) (fun t => (t.delivery d).impairment = 0 ∧ (t.delivery d).condition = .clean))) ∧
    ((∀ tk, rt.take = some tk → tk.state = .ready ∨ tk.state = .cued ∨ tk.timer + 1 < par.takeTimeout) →
      exec (.takeTimeout d) s = .next s) ∧
    ((∀ k, rt.freeze = some k → k + 1 < par.freezeLimit) → exec (.freezeLimit d) s = .next s) ∧
    (rt.revert + 1 < par.revertHold * 1000 → exec (.revertHold d) s = .next s) ∧
    (x.periodCount + 1 < 10000 → exec (.adaptationPeriodEnd d) s = .next s) ∧
    (x.impairment ≠ 1 → exec (.impairmentHoldEnd d) s = .next s)

/-! ### Charges -/

/-- R182: S′ is the least multiple of the quantum that is at least S. R179 to R181, R183, R185, Tables 9-4 and 9-5: a
charge is 0 without delivered time and never exceeds a cap that is not 0; the provisional charge never falls while the
meters grow, and the final charge is at least the provisional one. Within the ranges of the tariff and of the meters
(R175) the values stay within Table 9-5. -/
def Obligations.ChargesKeepTheirLaws : Prop :=
  (∀ (t : Tariff) (x : Nat), 1 ≤ t.quantum →
      t.quantum ∣ roundedSeconds t x ∧ x ≤ roundedSeconds t x ∧ roundedSeconds t x < x + t.quantum ∧
      (x = 0 → roundedSeconds t x = 0)) ∧
  ∀ (t : Tariff) (m k : Meters) (final : Bool),
    (m.c + m.d + m.oc + m.od = 0 → chargeOf final t m = ⟨0, 0, false, false⟩) ∧
    (t.cap ≠ 0 → (chargeOf final t m).charge ≤ t.cap) ∧
    (m.c ≤ k.c → m.d ≤ k.d → m.oc ≤ k.oc → m.od ≤ k.od → (chargeOf false t m).charge ≤ (chargeOf false t k).charge) ∧
    (chargeOf false t m).charge ≤ (chargeOf true t m).charge ∧
    (m.c + m.d + m.u ≤ 86400000 → m.oc + m.od + m.ou ≤ 14400000 → t.weight ∈ [0, 1, 2, 4] → t.overrun ≤ 32 →
      t.quantum ∈ [1, 6, 15, 30, 60] → t.minimum ≤ 7200 → t.rate ≤ 65535 → t.fee ≤ 65535 →
      weightedTime t m ≤ 4608000000 ∧ (chargeOf final t m).seconds ≤ 144000 ∧
      (chargeOf final t m).charge ≤ 157349535)

end
end

