-- ==== Sys2Proof/Laws/State.lean ====
section
/-! SUPPORT. What each update of the state leaves and what it sets: one lemma per field per update, so that no later proof
unfolds a record update. -/

namespace Sys2Proof.Machine.State

/-! ### Block updates -/

@[simp] theorem withLpu_lpu (s : State) (x : Lpu) : (s.withLpu x).lpu = x := rfl
@[simp] theorem withLpu_cu (s : State) (x : Lpu) : (s.withLpu x).cu = s.cu := rfl
@[simp] theorem withLpu_rw (s : State) (x : Lpu) : (s.withLpu x).rw = s.rw := rfl
@[simp] theorem withLpu_tb (s : State) (x : Lpu) : (s.withLpu x).tb = s.tb := rfl
@[simp] theorem withLpu_fm (s : State) (x : Lpu) : (s.withLpu x).fm = s.fm := rfl
@[simp] theorem withLpu_bt (s : State) (x : Lpu) : (s.withLpu x).bt = s.bt := rfl
@[simp] theorem withLpu_ga (s : State) (x : Lpu) : (s.withLpu x).ga = s.ga := rfl
@[simp] theorem withLpu_ru (s : State) (x : Lpu) : (s.withLpu x).ru = s.ru := rfl
@[simp] theorem withLpu_dm (s : State) (x : Lpu) : (s.withLpu x).dm = s.dm := rfl
@[simp] theorem withLpu_mu (s : State) (x : Lpu) : (s.withLpu x).mu = s.mu := rfl
@[simp] theorem withLpu_pending (s : State) (x : Lpu) : (s.withLpu x).pending = s.pending := rfl
@[simp] theorem withLpu_withLpu (s : State) (x y : Lpu) : (s.withLpu x).withLpu y = s.withLpu y := rfl
@[simp] theorem withLpu_self (s : State) : s.withLpu s.lpu = s := rfl

@[simp] theorem withCu_lpu (s : State) (x : Cu) : (s.withCu x).lpu = s.lpu := rfl
@[simp] theorem withCu_cu (s : State) (x : Cu) : (s.withCu x).cu = x := rfl
@[simp] theorem withCu_rw (s : State) (x : Cu) : (s.withCu x).rw = s.rw := rfl
@[simp] theorem withCu_tb (s : State) (x : Cu) : (s.withCu x).tb = s.tb := rfl
@[simp] theorem withCu_fm (s : State) (x : Cu) : (s.withCu x).fm = s.fm := rfl
@[simp] theorem withCu_bt (s : State) (x : Cu) : (s.withCu x).bt = s.bt := rfl
@[simp] theorem withCu_ga (s : State) (x : Cu) : (s.withCu x).ga = s.ga := rfl
@[simp] theorem withCu_ru (s : State) (x : Cu) : (s.withCu x).ru = s.ru := rfl
@[simp] theorem withCu_dm (s : State) (x : Cu) : (s.withCu x).dm = s.dm := rfl
@[simp] theorem withCu_mu (s : State) (x : Cu) : (s.withCu x).mu = s.mu := rfl
@[simp] theorem withCu_pending (s : State) (x : Cu) : (s.withCu x).pending = s.pending := rfl
@[simp] theorem withCu_withCu (s : State) (x y : Cu) : (s.withCu x).withCu y = s.withCu y := rfl
@[simp] theorem withCu_self (s : State) : s.withCu s.cu = s := rfl

@[simp] theorem withRw_lpu (s : State) (x : Rw) : (s.withRw x).lpu = s.lpu := rfl
@[simp] theorem withRw_cu (s : State) (x : Rw) : (s.withRw x).cu = s.cu := rfl
@[simp] theorem withRw_rw (s : State) (x : Rw) : (s.withRw x).rw = x := rfl
@[simp] theorem withRw_tb (s : State) (x : Rw) : (s.withRw x).tb = s.tb := rfl
@[simp] theorem withRw_fm (s : State) (x : Rw) : (s.withRw x).fm = s.fm := rfl
@[simp] theorem withRw_bt (s : State) (x : Rw) : (s.withRw x).bt = s.bt := rfl
@[simp] theorem withRw_ga (s : State) (x : Rw) : (s.withRw x).ga = s.ga := rfl
@[simp] theorem withRw_ru (s : State) (x : Rw) : (s.withRw x).ru = s.ru := rfl
@[simp] theorem withRw_dm (s : State) (x : Rw) : (s.withRw x).dm = s.dm := rfl
@[simp] theorem withRw_mu (s : State) (x : Rw) : (s.withRw x).mu = s.mu := rfl
@[simp] theorem withRw_pending (s : State) (x : Rw) : (s.withRw x).pending = s.pending := rfl
@[simp] theorem withRw_withRw (s : State) (x y : Rw) : (s.withRw x).withRw y = s.withRw y := rfl
@[simp] theorem withRw_self (s : State) : s.withRw s.rw = s := rfl

@[simp] theorem withTb_lpu (s : State) (x : Tb) : (s.withTb x).lpu = s.lpu := rfl
@[simp] theorem withTb_cu (s : State) (x : Tb) : (s.withTb x).cu = s.cu := rfl
@[simp] theorem withTb_rw (s : State) (x : Tb) : (s.withTb x).rw = s.rw := rfl
@[simp] theorem withTb_tb (s : State) (x : Tb) : (s.withTb x).tb = x := rfl
@[simp] theorem withTb_fm (s : State) (x : Tb) : (s.withTb x).fm = s.fm := rfl
@[simp] theorem withTb_bt (s : State) (x : Tb) : (s.withTb x).bt = s.bt := rfl
@[simp] theorem withTb_ga (s : State) (x : Tb) : (s.withTb x).ga = s.ga := rfl
@[simp] theorem withTb_ru (s : State) (x : Tb) : (s.withTb x).ru = s.ru := rfl
@[simp] theorem withTb_dm (s : State) (x : Tb) : (s.withTb x).dm = s.dm := rfl
@[simp] theorem withTb_mu (s : State) (x : Tb) : (s.withTb x).mu = s.mu := rfl
@[simp] theorem withTb_pending (s : State) (x : Tb) : (s.withTb x).pending = s.pending := rfl
@[simp] theorem withTb_withTb (s : State) (x y : Tb) : (s.withTb x).withTb y = s.withTb y := rfl
@[simp] theorem withTb_self (s : State) : s.withTb s.tb = s := rfl

@[simp] theorem withFm_lpu (s : State) (x : Fm) : (s.withFm x).lpu = s.lpu := rfl
@[simp] theorem withFm_cu (s : State) (x : Fm) : (s.withFm x).cu = s.cu := rfl
@[simp] theorem withFm_rw (s : State) (x : Fm) : (s.withFm x).rw = s.rw := rfl
@[simp] theorem withFm_tb (s : State) (x : Fm) : (s.withFm x).tb = s.tb := rfl
@[simp] theorem withFm_fm (s : State) (x : Fm) : (s.withFm x).fm = x := rfl
@[simp] theorem withFm_bt (s : State) (x : Fm) : (s.withFm x).bt = s.bt := rfl
@[simp] theorem withFm_ga (s : State) (x : Fm) : (s.withFm x).ga = s.ga := rfl
@[simp] theorem withFm_ru (s : State) (x : Fm) : (s.withFm x).ru = s.ru := rfl
@[simp] theorem withFm_dm (s : State) (x : Fm) : (s.withFm x).dm = s.dm := rfl
@[simp] theorem withFm_mu (s : State) (x : Fm) : (s.withFm x).mu = s.mu := rfl
@[simp] theorem withFm_pending (s : State) (x : Fm) : (s.withFm x).pending = s.pending := rfl
@[simp] theorem withFm_withFm (s : State) (x y : Fm) : (s.withFm x).withFm y = s.withFm y := rfl
@[simp] theorem withFm_self (s : State) : s.withFm s.fm = s := rfl

@[simp] theorem withBt_lpu (s : State) (x : Bt) : (s.withBt x).lpu = s.lpu := rfl
@[simp] theorem withBt_cu (s : State) (x : Bt) : (s.withBt x).cu = s.cu := rfl
@[simp] theorem withBt_rw (s : State) (x : Bt) : (s.withBt x).rw = s.rw := rfl
@[simp] theorem withBt_tb (s : State) (x : Bt) : (s.withBt x).tb = s.tb := rfl
@[simp] theorem withBt_fm (s : State) (x : Bt) : (s.withBt x).fm = s.fm := rfl
@[simp] theorem withBt_bt (s : State) (x : Bt) : (s.withBt x).bt = x := rfl
@[simp] theorem withBt_ga (s : State) (x : Bt) : (s.withBt x).ga = s.ga := rfl
@[simp] theorem withBt_ru (s : State) (x : Bt) : (s.withBt x).ru = s.ru := rfl
@[simp] theorem withBt_dm (s : State) (x : Bt) : (s.withBt x).dm = s.dm := rfl
@[simp] theorem withBt_mu (s : State) (x : Bt) : (s.withBt x).mu = s.mu := rfl
@[simp] theorem withBt_pending (s : State) (x : Bt) : (s.withBt x).pending = s.pending := rfl
@[simp] theorem withBt_withBt (s : State) (x y : Bt) : (s.withBt x).withBt y = s.withBt y := rfl
@[simp] theorem withBt_self (s : State) : s.withBt s.bt = s := rfl

@[simp] theorem withGa_lpu (s : State) (x : Ga) : (s.withGa x).lpu = s.lpu := rfl
@[simp] theorem withGa_cu (s : State) (x : Ga) : (s.withGa x).cu = s.cu := rfl
@[simp] theorem withGa_rw (s : State) (x : Ga) : (s.withGa x).rw = s.rw := rfl
@[simp] theorem withGa_tb (s : State) (x : Ga) : (s.withGa x).tb = s.tb := rfl
@[simp] theorem withGa_fm (s : State) (x : Ga) : (s.withGa x).fm = s.fm := rfl
@[simp] theorem withGa_bt (s : State) (x : Ga) : (s.withGa x).bt = s.bt := rfl
@[simp] theorem withGa_ga (s : State) (x : Ga) : (s.withGa x).ga = x := rfl
@[simp] theorem withGa_ru (s : State) (x : Ga) : (s.withGa x).ru = s.ru := rfl
@[simp] theorem withGa_dm (s : State) (x : Ga) : (s.withGa x).dm = s.dm := rfl
@[simp] theorem withGa_mu (s : State) (x : Ga) : (s.withGa x).mu = s.mu := rfl
@[simp] theorem withGa_pending (s : State) (x : Ga) : (s.withGa x).pending = s.pending := rfl
@[simp] theorem withGa_withGa (s : State) (x y : Ga) : (s.withGa x).withGa y = s.withGa y := rfl
@[simp] theorem withGa_self (s : State) : s.withGa s.ga = s := rfl

@[simp] theorem withRu_lpu (s : State) (x : Ru) : (s.withRu x).lpu = s.lpu := rfl
@[simp] theorem withRu_cu (s : State) (x : Ru) : (s.withRu x).cu = s.cu := rfl
@[simp] theorem withRu_rw (s : State) (x : Ru) : (s.withRu x).rw = s.rw := rfl
@[simp] theorem withRu_tb (s : State) (x : Ru) : (s.withRu x).tb = s.tb := rfl
@[simp] theorem withRu_fm (s : State) (x : Ru) : (s.withRu x).fm = s.fm := rfl
@[simp] theorem withRu_bt (s : State) (x : Ru) : (s.withRu x).bt = s.bt := rfl
@[simp] theorem withRu_ga (s : State) (x : Ru) : (s.withRu x).ga = s.ga := rfl
@[simp] theorem withRu_ru (s : State) (x : Ru) : (s.withRu x).ru = x := rfl
@[simp] theorem withRu_dm (s : State) (x : Ru) : (s.withRu x).dm = s.dm := rfl
@[simp] theorem withRu_mu (s : State) (x : Ru) : (s.withRu x).mu = s.mu := rfl
@[simp] theorem withRu_pending (s : State) (x : Ru) : (s.withRu x).pending = s.pending := rfl
@[simp] theorem withRu_withRu (s : State) (x y : Ru) : (s.withRu x).withRu y = s.withRu y := rfl
@[simp] theorem withRu_self (s : State) : s.withRu s.ru = s := rfl

@[simp] theorem withDm_lpu (s : State) (x : Dm) : (s.withDm x).lpu = s.lpu := rfl
@[simp] theorem withDm_cu (s : State) (x : Dm) : (s.withDm x).cu = s.cu := rfl
@[simp] theorem withDm_rw (s : State) (x : Dm) : (s.withDm x).rw = s.rw := rfl
@[simp] theorem withDm_tb (s : State) (x : Dm) : (s.withDm x).tb = s.tb := rfl
@[simp] theorem withDm_fm (s : State) (x : Dm) : (s.withDm x).fm = s.fm := rfl
@[simp] theorem withDm_bt (s : State) (x : Dm) : (s.withDm x).bt = s.bt := rfl
@[simp] theorem withDm_ga (s : State) (x : Dm) : (s.withDm x).ga = s.ga := rfl
@[simp] theorem withDm_ru (s : State) (x : Dm) : (s.withDm x).ru = s.ru := rfl
@[simp] theorem withDm_dm (s : State) (x : Dm) : (s.withDm x).dm = x := rfl
@[simp] theorem withDm_mu (s : State) (x : Dm) : (s.withDm x).mu = s.mu := rfl
@[simp] theorem withDm_pending (s : State) (x : Dm) : (s.withDm x).pending = s.pending := rfl
@[simp] theorem withDm_withDm (s : State) (x y : Dm) : (s.withDm x).withDm y = s.withDm y := rfl
@[simp] theorem withDm_self (s : State) : s.withDm s.dm = s := rfl

@[simp] theorem withMu_lpu (s : State) (x : Mu) : (s.withMu x).lpu = s.lpu := rfl
@[simp] theorem withMu_cu (s : State) (x : Mu) : (s.withMu x).cu = s.cu := rfl
@[simp] theorem withMu_rw (s : State) (x : Mu) : (s.withMu x).rw = s.rw := rfl
@[simp] theorem withMu_tb (s : State) (x : Mu) : (s.withMu x).tb = s.tb := rfl
@[simp] theorem withMu_fm (s : State) (x : Mu) : (s.withMu x).fm = s.fm := rfl
@[simp] theorem withMu_bt (s : State) (x : Mu) : (s.withMu x).bt = s.bt := rfl
@[simp] theorem withMu_ga (s : State) (x : Mu) : (s.withMu x).ga = s.ga := rfl
@[simp] theorem withMu_ru (s : State) (x : Mu) : (s.withMu x).ru = s.ru := rfl
@[simp] theorem withMu_dm (s : State) (x : Mu) : (s.withMu x).dm = s.dm := rfl
@[simp] theorem withMu_mu (s : State) (x : Mu) : (s.withMu x).mu = x := rfl
@[simp] theorem withMu_pending (s : State) (x : Mu) : (s.withMu x).pending = s.pending := rfl
@[simp] theorem withMu_withMu (s : State) (x y : Mu) : (s.withMu x).withMu y = s.withMu y := rfl
@[simp] theorem withMu_self (s : State) : s.withMu s.mu = s := rfl

@[simp] theorem withPending_lpu (s : State) (x : List Instr) : (s.withPending x).lpu = s.lpu := rfl
@[simp] theorem withPending_cu (s : State) (x : List Instr) : (s.withPending x).cu = s.cu := rfl
@[simp] theorem withPending_rw (s : State) (x : List Instr) : (s.withPending x).rw = s.rw := rfl
@[simp] theorem withPending_tb (s : State) (x : List Instr) : (s.withPending x).tb = s.tb := rfl
@[simp] theorem withPending_fm (s : State) (x : List Instr) : (s.withPending x).fm = s.fm := rfl
@[simp] theorem withPending_bt (s : State) (x : List Instr) : (s.withPending x).bt = s.bt := rfl
@[simp] theorem withPending_ga (s : State) (x : List Instr) : (s.withPending x).ga = s.ga := rfl
@[simp] theorem withPending_ru (s : State) (x : List Instr) : (s.withPending x).ru = s.ru := rfl
@[simp] theorem withPending_dm (s : State) (x : List Instr) : (s.withPending x).dm = s.dm := rfl
@[simp] theorem withPending_mu (s : State) (x : List Instr) : (s.withPending x).mu = s.mu := rfl
@[simp] theorem withPending_pending (s : State) (x : List Instr) : (s.withPending x).pending = x := rfl
@[simp] theorem withPending_withPending (s : State) (x y : List Instr) : (s.withPending x).withPending y = s.withPending y := rfl
@[simp] theorem withPending_self (s : State) : s.withPending s.pending = s := rfl

/-! ### Object updates: the blocks they leave -/

@[simp] theorem setLatch_cu (d : Nat) (x : Option Latch) (s : State) : (s.setLatch d x).cu = s.cu := rfl
@[simp] theorem setLatch_rw (d : Nat) (x : Option Latch) (s : State) : (s.setLatch d x).rw = s.rw := rfl
@[simp] theorem setLatch_tb (d : Nat) (x : Option Latch) (s : State) : (s.setLatch d x).tb = s.tb := rfl
@[simp] theorem setLatch_fm (d : Nat) (x : Option Latch) (s : State) : (s.setLatch d x).fm = s.fm := rfl
@[simp] theorem setLatch_bt (d : Nat) (x : Option Latch) (s : State) : (s.setLatch d x).bt = s.bt := rfl
@[simp] theorem setLatch_ga (d : Nat) (x : Option Latch) (s : State) : (s.setLatch d x).ga = s.ga := rfl
@[simp] theorem setLatch_ru (d : Nat) (x : Option Latch) (s : State) : (s.setLatch d x).ru = s.ru := rfl
@[simp] theorem setLatch_dm (d : Nat) (x : Option Latch) (s : State) : (s.setLatch d x).dm = s.dm := rfl
@[simp] theorem setLatch_mu (d : Nat) (x : Option Latch) (s : State) : (s.setLatch d x).mu = s.mu := rfl
@[simp] theorem setLatch_pending (d : Nat) (x : Option Latch) (s : State) : (s.setLatch d x).pending = s.pending := rfl

@[simp] theorem setForeignWrites_cu (f n : Nat) (s : State) : (s.setForeignWrites f n).cu = s.cu := rfl
@[simp] theorem setForeignWrites_rw (f n : Nat) (s : State) : (s.setForeignWrites f n).rw = s.rw := rfl
@[simp] theorem setForeignWrites_tb (f n : Nat) (s : State) : (s.setForeignWrites f n).tb = s.tb := rfl
@[simp] theorem setForeignWrites_fm (f n : Nat) (s : State) : (s.setForeignWrites f n).fm = s.fm := rfl
@[simp] theorem setForeignWrites_bt (f n : Nat) (s : State) : (s.setForeignWrites f n).bt = s.bt := rfl
@[simp] theorem setForeignWrites_ga (f n : Nat) (s : State) : (s.setForeignWrites f n).ga = s.ga := rfl
@[simp] theorem setForeignWrites_ru (f n : Nat) (s : State) : (s.setForeignWrites f n).ru = s.ru := rfl
@[simp] theorem setForeignWrites_dm (f n : Nat) (s : State) : (s.setForeignWrites f n).dm = s.dm := rfl
@[simp] theorem setForeignWrites_mu (f n : Nat) (s : State) : (s.setForeignWrites f n).mu = s.mu := rfl
@[simp] theorem setForeignWrites_pending (f n : Nat) (s : State) : (s.setForeignWrites f n).pending = s.pending := rfl

@[simp] theorem setSlotData_lpu (n : Nat) (x : Option (List Byte)) (s : State) : (s.setSlotData n x).lpu = s.lpu := rfl
@[simp] theorem setSlotData_rw (n : Nat) (x : Option (List Byte)) (s : State) : (s.setSlotData n x).rw = s.rw := rfl
@[simp] theorem setSlotData_tb (n : Nat) (x : Option (List Byte)) (s : State) : (s.setSlotData n x).tb = s.tb := rfl
@[simp] theorem setSlotData_fm (n : Nat) (x : Option (List Byte)) (s : State) : (s.setSlotData n x).fm = s.fm := rfl
@[simp] theorem setSlotData_bt (n : Nat) (x : Option (List Byte)) (s : State) : (s.setSlotData n x).bt = s.bt := rfl
@[simp] theorem setSlotData_ga (n : Nat) (x : Option (List Byte)) (s : State) : (s.setSlotData n x).ga = s.ga := rfl
@[simp] theorem setSlotData_ru (n : Nat) (x : Option (List Byte)) (s : State) : (s.setSlotData n x).ru = s.ru := rfl
@[simp] theorem setSlotData_dm (n : Nat) (x : Option (List Byte)) (s : State) : (s.setSlotData n x).dm = s.dm := rfl
@[simp] theorem setSlotData_mu (n : Nat) (x : Option (List Byte)) (s : State) : (s.setSlotData n x).mu = s.mu := rfl
@[simp] theorem setSlotData_pending (n : Nat) (x : Option (List Byte)) (s : State) : (s.setSlotData n x).pending = s.pending := rfl

@[simp] theorem setFeedRec_lpu (f : Nat) (x : Option FeedRecord) (s : State) : (s.setFeedRec f x).lpu = s.lpu := rfl
@[simp] theorem setFeedRec_cu (f : Nat) (x : Option FeedRecord) (s : State) : (s.setFeedRec f x).cu = s.cu := rfl
@[simp] theorem setFeedRec_rw (f : Nat) (x : Option FeedRecord) (s : State) : (s.setFeedRec f x).rw = s.rw := rfl
@[simp] theorem setFeedRec_tb (f : Nat) (x : Option FeedRecord) (s : State) : (s.setFeedRec f x).tb = s.tb := rfl
@[simp] theorem setFeedRec_bt (f : Nat) (x : Option FeedRecord) (s : State) : (s.setFeedRec f x).bt = s.bt := rfl
@[simp] theorem setFeedRec_ga (f : Nat) (x : Option FeedRecord) (s : State) : (s.setFeedRec f x).ga = s.ga := rfl
@[simp] theorem setFeedRec_ru (f : Nat) (x : Option FeedRecord) (s : State) : (s.setFeedRec f x).ru = s.ru := rfl
@[simp] theorem setFeedRec_dm (f : Nat) (x : Option FeedRecord) (s : State) : (s.setFeedRec f x).dm = s.dm := rfl
@[simp] theorem setFeedRec_mu (f : Nat) (x : Option FeedRecord) (s : State) : (s.setFeedRec f x).mu = s.mu := rfl
@[simp] theorem setFeedRec_pending (f : Nat) (x : Option FeedRecord) (s : State) : (s.setFeedRec f x).pending = s.pending := rfl

@[simp] theorem setFeedParams_lpu (f : Nat) (x : FeedParams) (s : State) : (s.setFeedParams f x).lpu = s.lpu := rfl
@[simp] theorem setFeedParams_cu (f : Nat) (x : FeedParams) (s : State) : (s.setFeedParams f x).cu = s.cu := rfl
@[simp] theorem setFeedParams_rw (f : Nat) (x : FeedParams) (s : State) : (s.setFeedParams f x).rw = s.rw := rfl
@[simp] theorem setFeedParams_tb (f : Nat) (x : FeedParams) (s : State) : (s.setFeedParams f x).tb = s.tb := rfl
@[simp] theorem setFeedParams_bt (f : Nat) (x : FeedParams) (s : State) : (s.setFeedParams f x).bt = s.bt := rfl
@[simp] theorem setFeedParams_ga (f : Nat) (x : FeedParams) (s : State) : (s.setFeedParams f x).ga = s.ga := rfl
@[simp] theorem setFeedParams_ru (f : Nat) (x : FeedParams) (s : State) : (s.setFeedParams f x).ru = s.ru := rfl
@[simp] theorem setFeedParams_dm (f : Nat) (x : FeedParams) (s : State) : (s.setFeedParams f x).dm = s.dm := rfl
@[simp] theorem setFeedParams_mu (f : Nat) (x : FeedParams) (s : State) : (s.setFeedParams f x).mu = s.mu := rfl
@[simp] theorem setFeedParams_pending (f : Nat) (x : FeedParams) (s : State) : (s.setFeedParams f x).pending = s.pending := rfl

@[simp] theorem setEntry_lpu (e : Nat) (x : Entry) (s : State) : (s.setEntry e x).lpu = s.lpu := rfl
@[simp] theorem setEntry_cu (e : Nat) (x : Entry) (s : State) : (s.setEntry e x).cu = s.cu := rfl
@[simp] theorem setEntry_rw (e : Nat) (x : Entry) (s : State) : (s.setEntry e x).rw = s.rw := rfl
@[simp] theorem setEntry_tb (e : Nat) (x : Entry) (s : State) : (s.setEntry e x).tb = s.tb := rfl
@[simp] theorem setEntry_fm (e : Nat) (x : Entry) (s : State) : (s.setEntry e x).fm = s.fm := rfl
@[simp] theorem setEntry_ga (e : Nat) (x : Entry) (s : State) : (s.setEntry e x).ga = s.ga := rfl
@[simp] theorem setEntry_ru (e : Nat) (x : Entry) (s : State) : (s.setEntry e x).ru = s.ru := rfl
@[simp] theorem setEntry_dm (e : Nat) (x : Entry) (s : State) : (s.setEntry e x).dm = s.dm := rfl
@[simp] theorem setEntry_mu (e : Nat) (x : Entry) (s : State) : (s.setEntry e x).mu = s.mu := rfl
@[simp] theorem setEntry_pending (e : Nat) (x : Entry) (s : State) : (s.setEntry e x).pending = s.pending := rfl

@[simp] theorem setHolder_lpu (d : Nat) (x : Option Nat) (s : State) : (s.setHolder d x).lpu = s.lpu := rfl
@[simp] theorem setHolder_cu (d : Nat) (x : Option Nat) (s : State) : (s.setHolder d x).cu = s.cu := rfl
@[simp] theorem setHolder_rw (d : Nat) (x : Option Nat) (s : State) : (s.setHolder d x).rw = s.rw := rfl
@[simp] theorem setHolder_tb (d : Nat) (x : Option Nat) (s : State) : (s.setHolder d x).tb = s.tb := rfl
@[simp] theorem setHolder_fm (d : Nat) (x : Option Nat) (s : State) : (s.setHolder d x).fm = s.fm := rfl
@[simp] theorem setHolder_bt (d : Nat) (x : Option Nat) (s : State) : (s.setHolder d x).bt = s.bt := rfl
@[simp] theorem setHolder_ru (d : Nat) (x : Option Nat) (s : State) : (s.setHolder d x).ru = s.ru := rfl
@[simp] theorem setHolder_dm (d : Nat) (x : Option Nat) (s : State) : (s.setHolder d x).dm = s.dm := rfl
@[simp] theorem setHolder_mu (d : Nat) (x : Option Nat) (s : State) : (s.setHolder d x).mu = s.mu := rfl
@[simp] theorem setHolder_pending (d : Nat) (x : Option Nat) (s : State) : (s.setHolder d x).pending = s.pending := rfl

@[simp] theorem setGrantQueue_lpu (d : Nat) (x : List Nat) (s : State) : (s.setGrantQueue d x).lpu = s.lpu := rfl
@[simp] theorem setGrantQueue_cu (d : Nat) (x : List Nat) (s : State) : (s.setGrantQueue d x).cu = s.cu := rfl
@[simp] theorem setGrantQueue_rw (d : Nat) (x : List Nat) (s : State) : (s.setGrantQueue d x).rw = s.rw := rfl
@[simp] theorem setGrantQueue_tb (d : Nat) (x : List Nat) (s : State) : (s.setGrantQueue d x).tb = s.tb := rfl
@[simp] theorem setGrantQueue_fm (d : Nat) (x : List Nat) (s : State) : (s.setGrantQueue d x).fm = s.fm := rfl
@[simp] theorem setGrantQueue_bt (d : Nat) (x : List Nat) (s : State) : (s.setGrantQueue d x).bt = s.bt := rfl
@[simp] theorem setGrantQueue_ru (d : Nat) (x : List Nat) (s : State) : (s.setGrantQueue d x).ru = s.ru := rfl
@[simp] theorem setGrantQueue_dm (d : Nat) (x : List Nat) (s : State) : (s.setGrantQueue d x).dm = s.dm := rfl
@[simp] theorem setGrantQueue_mu (d : Nat) (x : List Nat) (s : State) : (s.setGrantQueue d x).mu = s.mu := rfl
@[simp] theorem setGrantQueue_pending (d : Nat) (x : List Nat) (s : State) : (s.setGrantQueue d x).pending = s.pending := rfl

@[simp] theorem setRoute_lpu (d : Nat) (x : Option Route) (s : State) : (s.setRoute d x).lpu = s.lpu := rfl
@[simp] theorem setRoute_cu (d : Nat) (x : Option Route) (s : State) : (s.setRoute d x).cu = s.cu := rfl
@[simp] theorem setRoute_rw (d : Nat) (x : Option Route) (s : State) : (s.setRoute d x).rw = s.rw := rfl
@[simp] theorem setRoute_tb (d : Nat) (x : Option Route) (s : State) : (s.setRoute d x).tb = s.tb := rfl
@[simp] theorem setRoute_fm (d : Nat) (x : Option Route) (s : State) : (s.setRoute d x).fm = s.fm := rfl
@[simp] theorem setRoute_bt (d : Nat) (x : Option Route) (s : State) : (s.setRoute d x).bt = s.bt := rfl
@[simp] theorem setRoute_ga (d : Nat) (x : Option Route) (s : State) : (s.setRoute d x).ga = s.ga := rfl
@[simp] theorem setRoute_dm (d : Nat) (x : Option Route) (s : State) : (s.setRoute d x).dm = s.dm := rfl
@[simp] theorem setRoute_mu (d : Nat) (x : Option Route) (s : State) : (s.setRoute d x).mu = s.mu := rfl
@[simp] theorem setRoute_pending (d : Nat) (x : Option Route) (s : State) : (s.setRoute d x).pending = s.pending := rfl

@[simp] theorem setDestParams_lpu (d : Nat) (x : DestParams) (s : State) : (s.setDestParams d x).lpu = s.lpu := rfl
@[simp] theorem setDestParams_cu (d : Nat) (x : DestParams) (s : State) : (s.setDestParams d x).cu = s.cu := rfl
@[simp] theorem setDestParams_rw (d : Nat) (x : DestParams) (s : State) : (s.setDestParams d x).rw = s.rw := rfl
@[simp] theorem setDestParams_tb (d : Nat) (x : DestParams) (s : State) : (s.setDestParams d x).tb = s.tb := rfl
@[simp] theorem setDestParams_fm (d : Nat) (x : DestParams) (s : State) : (s.setDestParams d x).fm = s.fm := rfl
@[simp] theorem setDestParams_bt (d : Nat) (x : DestParams) (s : State) : (s.setDestParams d x).bt = s.bt := rfl
@[simp] theorem setDestParams_ga (d : Nat) (x : DestParams) (s : State) : (s.setDestParams d x).ga = s.ga := rfl
@[simp] theorem setDestParams_dm (d : Nat) (x : DestParams) (s : State) : (s.setDestParams d x).dm = s.dm := rfl
@[simp] theorem setDestParams_mu (d : Nat) (x : DestParams) (s : State) : (s.setDestParams d x).mu = s.mu := rfl
@[simp] theorem setDestParams_pending (d : Nat) (x : DestParams) (s : State) : (s.setDestParams d x).pending = s.pending := rfl

@[simp] theorem setDelivery_lpu (d : Nat) (x : Delivery) (s : State) : (s.setDelivery d x).lpu = s.lpu := rfl
@[simp] theorem setDelivery_cu (d : Nat) (x : Delivery) (s : State) : (s.setDelivery d x).cu = s.cu := rfl
@[simp] theorem setDelivery_rw (d : Nat) (x : Delivery) (s : State) : (s.setDelivery d x).rw = s.rw := rfl
@[simp] theorem setDelivery_tb (d : Nat) (x : Delivery) (s : State) : (s.setDelivery d x).tb = s.tb := rfl
@[simp] theorem setDelivery_fm (d : Nat) (x : Delivery) (s : State) : (s.setDelivery d x).fm = s.fm := rfl
@[simp] theorem setDelivery_bt (d : Nat) (x : Delivery) (s : State) : (s.setDelivery d x).bt = s.bt := rfl
@[simp] theorem setDelivery_ga (d : Nat) (x : Delivery) (s : State) : (s.setDelivery d x).ga = s.ga := rfl
@[simp] theorem setDelivery_ru (d : Nat) (x : Delivery) (s : State) : (s.setDelivery d x).ru = s.ru := rfl
@[simp] theorem setDelivery_mu (d : Nat) (x : Delivery) (s : State) : (s.setDelivery d x).mu = s.mu := rfl
@[simp] theorem setDelivery_pending (d : Nat) (x : Delivery) (s : State) : (s.setDelivery d x).pending = s.pending := rfl

@[simp] theorem setTariff_lpu (i : Nat) (x : Option Tariff) (s : State) : (s.setTariff i x).lpu = s.lpu := rfl
@[simp] theorem setTariff_cu (i : Nat) (x : Option Tariff) (s : State) : (s.setTariff i x).cu = s.cu := rfl
@[simp] theorem setTariff_rw (i : Nat) (x : Option Tariff) (s : State) : (s.setTariff i x).rw = s.rw := rfl
@[simp] theorem setTariff_tb (i : Nat) (x : Option Tariff) (s : State) : (s.setTariff i x).tb = s.tb := rfl
@[simp] theorem setTariff_fm (i : Nat) (x : Option Tariff) (s : State) : (s.setTariff i x).fm = s.fm := rfl
@[simp] theorem setTariff_bt (i : Nat) (x : Option Tariff) (s : State) : (s.setTariff i x).bt = s.bt := rfl
@[simp] theorem setTariff_ga (i : Nat) (x : Option Tariff) (s : State) : (s.setTariff i x).ga = s.ga := rfl
@[simp] theorem setTariff_ru (i : Nat) (x : Option Tariff) (s : State) : (s.setTariff i x).ru = s.ru := rfl
@[simp] theorem setTariff_dm (i : Nat) (x : Option Tariff) (s : State) : (s.setTariff i x).dm = s.dm := rfl
@[simp] theorem setTariff_pending (i : Nat) (x : Option Tariff) (s : State) : (s.setTariff i x).pending = s.pending := rfl

@[simp] theorem setRing_lpu (id : RingId) (x : RingIndexes) (s : State) : (s.setRing id x).lpu = s.lpu := by cases id <;> rfl
@[simp] theorem setRing_cu (id : RingId) (x : RingIndexes) (s : State) : (s.setRing id x).cu = s.cu := by cases id <;> rfl
@[simp] theorem setRing_tb (id : RingId) (x : RingIndexes) (s : State) : (s.setRing id x).tb = s.tb := by cases id <;> rfl
@[simp] theorem setRing_fm (id : RingId) (x : RingIndexes) (s : State) : (s.setRing id x).fm = s.fm := by cases id <;> rfl
@[simp] theorem setRing_bt (id : RingId) (x : RingIndexes) (s : State) : (s.setRing id x).bt = s.bt := by cases id <;> rfl
@[simp] theorem setRing_ga (id : RingId) (x : RingIndexes) (s : State) : (s.setRing id x).ga = s.ga := by cases id <;> rfl
@[simp] theorem setRing_ru (id : RingId) (x : RingIndexes) (s : State) : (s.setRing id x).ru = s.ru := by cases id <;> rfl
@[simp] theorem setRing_dm (id : RingId) (x : RingIndexes) (s : State) : (s.setRing id x).dm = s.dm := by cases id <;> rfl
@[simp] theorem setRing_mu (id : RingId) (x : RingIndexes) (s : State) : (s.setRing id x).mu = s.mu := by cases id <;> rfl
@[simp] theorem setRing_pending (id : RingId) (x : RingIndexes) (s : State) : (s.setRing id x).pending = s.pending := by cases id <;> rfl

end Sys2Proof.Machine.State
end

