-- ==== Sys2Proof/Laws/Tables.lean ====
section
/-! SUPPORT. Tables: reading after a change, the canonical form and that every change keeps it; then the same for each kind
of numbered object of the state. -/

namespace Sys2Proof.Machine

variable {α : Type} {rest v : α} {t : Tbl α} {i j : Nat}

/-! ### Reading after a change -/

theorem Tbl.get_erase_self : Tbl.get rest (Tbl.erase i t) i = rest := by
  induction t with
  | nil => rfl
  | cons p t ih =>
    obtain ⟨k, w⟩ := p
    by_cases h : k = i
    · simpa [Tbl.erase, h] using ih
    · simpa [Tbl.erase, Tbl.get, h] using ih

theorem Tbl.get_erase_of_ne (h : j ≠ i) : Tbl.get rest (Tbl.erase i t) j = Tbl.get rest t j := by
  induction t with
  | nil => rfl
  | cons p t ih =>
    obtain ⟨k, w⟩ := p
    by_cases hk : k = i
    · subst hk; simpa [Tbl.erase, Tbl.get, Ne.symm h] using ih
    · by_cases hj : k = j
      · subst hj; simp [Tbl.erase, Tbl.get, hk]
      · simpa [Tbl.erase, Tbl.get, hk, hj] using ih

theorem Tbl.get_insert_of_ne (h : j ≠ i) : Tbl.get rest (Tbl.insert i v t) j = Tbl.get rest t j := by
  induction t with
  | nil => simp [Tbl.insert, Tbl.get, Ne.symm h]
  | cons p t ih =>
    obtain ⟨k, w⟩ := p
    by_cases hk : i < k
    · simp [Tbl.insert, Tbl.get, hk, Ne.symm h]
    · by_cases hj : k = j
      · subst hj; simp [Tbl.insert, Tbl.get, hk]
      · simpa [Tbl.insert, Tbl.get, hk, hj] using ih

/-- Insertion into a table that does not list `i` reads back. -/
theorem Tbl.get_insert_self (h : ∀ p ∈ t, p.1 ≠ i) : Tbl.get rest (Tbl.insert i v t) i = v := by
  induction t with
  | nil => simp [Tbl.insert, Tbl.get]
  | cons p t ih =>
    obtain ⟨k, w⟩ := p
    have hk : k ≠ i := h (k, w) (by simp)
    by_cases hi : i < k
    · simp [Tbl.insert, Tbl.get, hi]
    · simpa [Tbl.insert, Tbl.get, hi, hk] using ih (fun p hp => h p (by simp [hp]))

/-- What a table reads as is its rest or a listed value. -/
theorem Tbl.get_cases : Tbl.get rest t i = rest ∨ (i, Tbl.get rest t i) ∈ t := by
  induction t with
  | nil => exact .inl rfl
  | cons p t ih =>
    obtain ⟨k, w⟩ := p
    by_cases hk : k = i
    · subst hk; simp [Tbl.get]
    · simpa [Tbl.get, hk, Ne.symm hk] using ih

theorem Tbl.get_set_self [DecidableEq α] : Tbl.get rest (Tbl.set rest t i v) i = v := by
  by_cases h : v = rest
  · simpa [Tbl.set, h] using Tbl.get_erase_self
  · simpa [Tbl.set, h] using Tbl.get_insert_self (rest := rest) (v := v) (t := Tbl.erase i t)
      (by simp [Tbl.erase])

theorem Tbl.get_set_of_ne [DecidableEq α] (h : j ≠ i) : Tbl.get rest (Tbl.set rest t i v) j = Tbl.get rest t j := by
  by_cases hv : v = rest
  · simpa [Tbl.set, hv] using Tbl.get_erase_of_ne h
  · simpa [Tbl.set, hv, Tbl.get_insert_of_ne h] using Tbl.get_erase_of_ne h

theorem Tbl.erase_erase : Tbl.erase i (Tbl.erase i t) = Tbl.erase i t := by
  simp [Tbl.erase, List.filter_filter]

theorem Tbl.erase_insert : Tbl.erase i (Tbl.insert i v t) = Tbl.erase i t := by
  induction t with
  | nil => simp [Tbl.insert, Tbl.erase]
  | cons p t ih =>
    obtain ⟨k, w⟩ := p
    by_cases h : i < k
    · simp [Tbl.insert, Tbl.erase, h]
    · by_cases hk : k = i
      · simpa [Tbl.insert, Tbl.erase, h, hk] using ih
      · simpa [Tbl.insert, Tbl.erase, h, hk] using ih

/-- Of two changes of one object the second stands. -/
theorem Tbl.set_set [DecidableEq α] {w : α} : Tbl.set rest (Tbl.set rest t i v) i w = Tbl.set rest t i w := by
  have h : Tbl.erase i (Tbl.set rest t i v) = Tbl.erase i t := by
    by_cases hv : v = rest
    · simpa [Tbl.set, hv] using Tbl.erase_erase
    · simpa [Tbl.set, hv] using Tbl.erase_insert.trans Tbl.erase_erase
  conv_lhs => rw [Tbl.set, h]
  rfl

/-! ### The canonical form -/

/-- Numbers strictly rising, and no object at its resting value. -/
def Tbl.wf [DecidableEq α] (rest : α) (t : Tbl α) : Bool :=
  decide (t.Pairwise (fun p q => p.1 < q.1)) && t.all (fun p => p.2 != rest)

theorem Tbl.wf_iff [DecidableEq α] :
    Tbl.wf rest t = true ↔ t.Pairwise (fun p q => p.1 < q.1) ∧ ∀ p ∈ t, p.2 ≠ rest := by
  simp [Tbl.wf]

theorem Tbl.mem_insert {p : Nat × α} (h : p ∈ Tbl.insert i v t) : p = (i, v) ∨ p ∈ t := by
  induction t with
  | nil => simpa [Tbl.insert] using h
  | cons q t ih =>
    obtain ⟨k, w⟩ := q
    by_cases hk : i < k
    · simpa [Tbl.insert, hk] using h
    · rcases List.mem_cons.1 (by simpa [Tbl.insert, hk] using h) with rfl | h'
      · simp
      · rcases ih h' with rfl | h'' <;> simp_all

theorem Tbl.pairwise_insert (ht : t.Pairwise (fun p q => p.1 < q.1)) (hi : ∀ p ∈ t, p.1 ≠ i) :
    (Tbl.insert i v t).Pairwise (fun p q => p.1 < q.1) := by
  induction t with
  | nil => simp [Tbl.insert]
  | cons q t ih =>
    obtain ⟨k, w⟩ := q
    obtain ⟨hq, ht'⟩ := List.pairwise_cons.1 ht
    have hne : k ≠ i := hi (k, w) (by simp)
    by_cases hk : i < k
    · simp only [Tbl.insert, hk, if_true]
      refine List.pairwise_cons.2 ⟨fun p hp => ?_, ht⟩
      rcases List.mem_cons.1 hp with rfl | hp
      · exact hk
      · exact lt_trans hk (hq p hp)
    · simp only [Tbl.insert, hk, if_false]
      refine List.pairwise_cons.2 ⟨fun p hp => ?_, ih ht' (fun p hp => hi p (by simp [hp]))⟩
      rcases Tbl.mem_insert hp with rfl | hp
      · show k < i; omega
      · exact hq p hp

/-- Every change of a table keeps its canonical form, so that equal tables are equal data. -/
theorem Tbl.wf_set [DecidableEq α] (h : Tbl.wf rest t = true) : Tbl.wf rest (Tbl.set rest t i v) = true := by
  rw [Tbl.wf_iff] at h ⊢
  have he : (Tbl.erase i t).Pairwise (fun p q => p.1 < q.1) := h.1.filter _
  have hr : ∀ p ∈ Tbl.erase i t, p.2 ≠ rest := fun p hp => h.2 p (List.mem_filter.1 hp).1
  by_cases hv : v = rest
  · simpa [Tbl.set, hv] using ⟨he, by simpa using hr⟩
  · simp only [Tbl.set, hv, if_false]
    refine ⟨Tbl.pairwise_insert he (by simp [Tbl.erase]), fun p hp => ?_⟩
    rcases Tbl.mem_insert hp with rfl | hp
    · exact hv
    · exact hr p hp

/-! ### Numbered objects -/

namespace State

variable (s : State) {e f d n : Nat}

@[simp] theorem entry_setEntry_self (x : Entry) : (s.setEntry e x).entry e = x := Tbl.get_set_self
theorem entry_setEntry_of_ne (x : Entry) (h : f ≠ e) : (s.setEntry e x).entry f = s.entry f := Tbl.get_set_of_ne h
@[simp] theorem feedRec_setFeedRec_self (x : Option FeedRecord) : (s.setFeedRec f x).feedRec f = x := Tbl.get_set_self
theorem feedRec_setFeedRec_of_ne (x : Option FeedRecord) (h : e ≠ f) : (s.setFeedRec f x).feedRec e = s.feedRec e :=
  Tbl.get_set_of_ne h
@[simp] theorem feedParams_setFeedParams_self (x : FeedParams) : (s.setFeedParams f x).feedParams f = x :=
  Tbl.get_set_self
theorem feedParams_setFeedParams_of_ne (x : FeedParams) (h : e ≠ f) :
    (s.setFeedParams f x).feedParams e = s.feedParams e := Tbl.get_set_of_ne h
@[simp] theorem route_setRoute_self (x : Option Route) : (s.setRoute d x).route d = x := Tbl.get_set_self
theorem route_setRoute_of_ne (x : Option Route) (h : e ≠ d) : (s.setRoute d x).route e = s.route e := Tbl.get_set_of_ne h
@[simp] theorem destParams_setDestParams_self (x : DestParams) : (s.setDestParams d x).destParams d = x :=
  Tbl.get_set_self
theorem destParams_setDestParams_of_ne (x : DestParams) (h : e ≠ d) :
    (s.setDestParams d x).destParams e = s.destParams e := Tbl.get_set_of_ne h
@[simp] theorem delivery_setDelivery_self (x : Delivery) : (s.setDelivery d x).delivery d = x := Tbl.get_set_self
theorem delivery_setDelivery_of_ne (x : Delivery) (h : e ≠ d) : (s.setDelivery d x).delivery e = s.delivery e :=
  Tbl.get_set_of_ne h
@[simp] theorem holder_setHolder_self (x : Option Nat) : (s.setHolder d x).holder d = x := Tbl.get_set_self
theorem holder_setHolder_of_ne (x : Option Nat) (h : e ≠ d) : (s.setHolder d x).holder e = s.holder e :=
  Tbl.get_set_of_ne h
@[simp] theorem grantQueue_setGrantQueue_self (x : List Nat) : (s.setGrantQueue d x).grantQueue d = x :=
  Tbl.get_set_self
theorem grantQueue_setGrantQueue_of_ne (x : List Nat) (h : e ≠ d) :
    (s.setGrantQueue d x).grantQueue e = s.grantQueue e := Tbl.get_set_of_ne h
@[simp] theorem tariff_setTariff_self (x : Option Tariff) : (s.setTariff n x).tariff n = x := Tbl.get_set_self
theorem tariff_setTariff_of_ne (x : Option Tariff) (h : e ≠ n) : (s.setTariff n x).tariff e = s.tariff e :=
  Tbl.get_set_of_ne h
@[simp] theorem slotData_setSlotData_self (x : Option (List Byte)) : (s.setSlotData n x).slotData n = x :=
  Tbl.get_set_self
theorem slotData_setSlotData_of_ne (x : Option (List Byte)) (h : e ≠ n) :
    (s.setSlotData n x).slotData e = s.slotData e := Tbl.get_set_of_ne h
@[simp] theorem latch_setLatch_self (x : Option Latch) : (s.setLatch d x).latch d = x := Tbl.get_set_self
theorem latch_setLatch_of_ne (x : Option Latch) (h : e ≠ d) : (s.setLatch d x).latch e = s.latch e := Tbl.get_set_of_ne h
@[simp] theorem foreignWrites_setForeignWrites_self (x : Nat) : (s.setForeignWrites f x).foreignWrites f = x :=
  Tbl.get_set_self
theorem foreignWrites_setForeignWrites_of_ne (x : Nat) (h : e ≠ f) :
    (s.setForeignWrites f x).foreignWrites e = s.foreignWrites e := Tbl.get_set_of_ne h

/-! ### Of two changes of one object the second stands -/

@[simp] theorem setLatch_setLatch (x y : Option Latch) : (s.setLatch n x).setLatch n y = s.setLatch n y := by
  simp [setLatch, Tbl.set_set]
@[simp] theorem setForeignWrites_setForeignWrites (x y : Nat) : (s.setForeignWrites n x).setForeignWrites n y = s.setForeignWrites n y := by
  simp [setForeignWrites, Tbl.set_set]
@[simp] theorem setSlotData_setSlotData (x y : Option (List Byte)) : (s.setSlotData n x).setSlotData n y = s.setSlotData n y := by
  simp [setSlotData, Tbl.set_set]
@[simp] theorem setFeedRec_setFeedRec (x y : Option FeedRecord) : (s.setFeedRec n x).setFeedRec n y = s.setFeedRec n y := by
  simp [setFeedRec, Tbl.set_set]
@[simp] theorem setFeedParams_setFeedParams (x y : FeedParams) : (s.setFeedParams n x).setFeedParams n y = s.setFeedParams n y := by
  simp [setFeedParams, Tbl.set_set]
@[simp] theorem setEntry_setEntry (x y : Entry) : (s.setEntry n x).setEntry n y = s.setEntry n y := by
  simp [setEntry, Tbl.set_set]
@[simp] theorem setHolder_setHolder (x y : Option Nat) : (s.setHolder n x).setHolder n y = s.setHolder n y := by
  simp [setHolder, Tbl.set_set]
@[simp] theorem setGrantQueue_setGrantQueue (x y : List Nat) : (s.setGrantQueue n x).setGrantQueue n y = s.setGrantQueue n y := by
  simp [setGrantQueue, Tbl.set_set]
@[simp] theorem setRoute_setRoute (x y : Option Route) : (s.setRoute n x).setRoute n y = s.setRoute n y := by
  simp [setRoute, Tbl.set_set]
@[simp] theorem setDestParams_setDestParams (x y : DestParams) : (s.setDestParams n x).setDestParams n y = s.setDestParams n y := by
  simp [setDestParams, Tbl.set_set]
@[simp] theorem setDelivery_setDelivery (x y : Delivery) : (s.setDelivery n x).setDelivery n y = s.setDelivery n y := by
  simp [setDelivery, Tbl.set_set]
@[simp] theorem setTariff_setTariff (x y : Option Tariff) : (s.setTariff n x).setTariff n y = s.setTariff n y := by
  simp [setTariff, Tbl.set_set]

end State

end Sys2Proof.Machine
end

