-- ==== Sys2Proof/Laws/Records.lean ====
section
/-! SUPPORT. What the Record Writer's operations can do, said once: the submission of an own request, the acceptance of a
record, an event, and the result of a command. -/

namespace Sys2Proof.Machine

@[simp] theorem State.withOwnWork_self (s : State) : s.withOwnWork s.lpu.ownQueue s.rw.waiting s.lpu.nextTag = s := rfl

@[simp] theorem State.ring_setRing_self (id : RingId) (x : RingIndexes) (s : State) : (s.setRing id x).ring id = x := by
  cases id <;> rfl

theorem State.ring_setRing_of_ne {id other : RingId} (h : other ≠ id) (x : RingIndexes) (s : State) :
    (s.setRing id x).ring other = s.ring other := by
  cases id <;> cases other <;> first | rfl | exact absurd rfl h

@[simp] theorem State.waiting_setRing (id : RingId) (x : RingIndexes) (s : State) :
    (s.setRing id x).rw.waiting = s.rw.waiting := by cases id <;> rfl

@[simp] theorem State.controlBase_setRing (id : RingId) (x : RingIndexes) (s : State) :
    (s.setRing id x).controlBase = s.controlBase := by cases id <;> rfl

/-- R19: a submitted request stands behind all the own work; the queue or the waiting work takes it, and nothing else
changes. -/
theorem rwSubmit_spec (o : OwnRequest) (s : State) :
    ∃ q w, rwSubmit o s = s.withOwnWork q w s.lpu.nextTag ∧ q ++ w = ownWork s ++ [o] := by
  unfold rwSubmit
  by_cases h : s.rw.waiting.isEmpty && decide (s.lpu.ownQueue.length < 16)
  · rw [if_pos h]
    have hw : s.rw.waiting = [] := List.isEmpty_iff.1 (Bool.and_eq_true_iff.1 h).1
    exact ⟨s.lpu.ownQueue ++ [o], s.rw.waiting, rfl, by simp [ownWork, hw]⟩
  · rw [if_neg h]
    exact ⟨s.lpu.ownQueue, s.rw.waiting ++ [o], rfl, by simp [ownWork]⟩

/-- R19: an own request takes the running number as its tag. -/
theorem rwRequest_spec (kind : OwnKind) (access : ReqKind) (addr len : Nat) (data : List Byte) (s : State) :
    ∃ q w, rwRequest kind access addr len data s = s.withOwnWork q w (s.lpu.nextTag + 1) ∧
      q ++ w = ownWork s ++ [{ req := { kind := access, addr := BitVec.ofNat 40 addr, len := len,
                                         initiator := s.lpu.strapInit, tag := s.lpu.nextTag, data := data },
                               kind := kind }] := by
  obtain ⟨q, w, h, hq⟩ := rwSubmit_spec
    { req := { kind := access, addr := BitVec.ofNat 40 addr, len := len, initiator := s.lpu.strapInit,
               tag := s.lpu.nextTag, data := data }, kind := kind }
    (s.withLpu { s.lpu with nextTag := s.lpu.nextTag + 1 })
  exact ⟨q, w, h, hq⟩

/-- R34: what the acceptance of a record does, whole. -/
theorem rwAccept_accepted (id : RingId) (bytes : List Byte) (s : State) : Accepted id bytes s (rwAccept id bytes s) := by
  have key : ∀ s1 : State, ∀ (k1 k2 : OwnKind) (a1 l1 a2 l2 : Nat) (d1 d2 : List Byte), ∃ q w,
      rwRequest k2 .write a2 l2 d2 (rwRequest k1 .write a1 l1 d1 s1) = s1.withOwnWork q w (s1.lpu.nextTag + 2) ∧
      q ++ w = ownWork s1 ++
        [ ⟨⟨.write, BitVec.ofNat 40 a1, l1, s1.lpu.strapInit, s1.lpu.nextTag, d1⟩, k1⟩,
          ⟨⟨.write, BitVec.ofNat 40 a2, l2, s1.lpu.strapInit, s1.lpu.nextTag + 1, d2⟩, k2⟩ ] := by
    intro s1 k1 k2 a1 l1 a2 l2 d1 d2
    obtain ⟨q1, w1, h1, hq1⟩ := rwRequest_spec k1 .write a1 l1 d1 s1
    obtain ⟨q2, w2, h2, hq2⟩ := rwRequest_spec k2 .write a2 l2 d2 (s1.withOwnWork q1 w1 (s1.lpu.nextTag + 1))
    refine ⟨q2, w2, by rw [h1, h2]; rfl, ?_⟩
    rw [hq2]
    show q1 ++ w1 ++ _ = _
    rw [hq1]
    simp
    exact ⟨rfl, rfl⟩
  obtain ⟨q, w, h, hq⟩ := key (s.setRing id { s.ring id with producer := nextPlace id s }) (.record id)
    (.producer id (nextPlace id s))
    ((s.setRing id { s.ring id with producer := nextPlace id s }).controlBase + id.recordOffset +
      (s.ring id).producer * id.recordSize) id.recordSize
    ((s.setRing id { s.ring id with producer := nextPlace id s }).controlBase + id.producerOffset) 4
    bytes (le 4 (nextPlace id s))
  have h' : rwAccept id bytes s =
      (s.setRing id { s.ring id with producer := nextPlace id s }).withOwnWork q w (s.lpu.nextTag + 2) := by
    simpa [rwAccept, nextPlace] using h
  rw [h']
  refine ⟨?_, rfl⟩
  show q ++ w = _
  rw [hq]
  simp [ownWork, recordWrites]

/-- R39, R40: what raising an event does, whole. -/
theorem raise_raised (cls : EventClass) (kind subject : Nat) (words : List Nat) (s : State) :
    Raised cls kind subject words s (raise cls kind subject words s) := by
  unfold Raised raise
  by_cases hm : s.rw.mask.getLsbD cls.num
  · by_cases hf : s.ringFull .event
    · simp [hm, hf, satAdd, max32]
    · simp only [hm, hf, if_true, if_false, Bool.false_eq_true]
      exact rwAccept_accepted _ _ _
  · simp [hm]

/-- R31: what handing over a result does, whole. -/
theorem cuFinish_answered (n : Nat) (data : List Byte) (r : Reply) (u : State) : Answered n data r u (cuFinish n data r u) :=
  ⟨_, rwAccept_accepted _ _ _, rfl⟩

/-- R30, R31: a command that starts and has the row's code gives what its owner gives. -/
theorem runCommand_gives {code : Nat} {s : State} {n : Nat} {data : List Byte} {rest : List Nat}
    (h : Starts code s n data rest) (owner : (Nat → Nat) → State → State × Reply) :
    Answered n data (owner (commandParam data) (s.started rest)).2 (owner (commandParam data) (s.started rest)).1
      (runCommand code owner s) := by
  simpa [runCommand, h.1, h.2, State.started] using cuFinish_answered n data _ _

/-- R31: a long command that starts either answers at once or goes on executing. -/
theorem runLongCommand_cases {code : Nat} {s : State} {n : Nat} {data : List Byte} {rest : List Nat}
    (h : Starts code s n data rest) (owner : (Nat → Nat) → State → State × (Reply ⊕ Job)) :
    (∃ u r, owner (commandParam data) (s.started rest) = (u, .inl r) ∧
      Answered n data r u (runLongCommand code owner s)) ∨
    (∃ u j, owner (commandParam data) (s.started rest) = (u, .inr j) ∧
      runLongCommand code owner s = u.withCu { u.cu with executing := some ⟨n, data, j⟩ }) := by
  unfold runLongCommand
  rw [h.1]
  simp only [h.2, if_true]
  rcases ho : owner (commandParam data) (s.started rest) with ⟨u, r | j⟩
  · exact .inl ⟨u, r, rfl, by simpa [State.started] using (show owner _ (s.withCu { s.cu with queue := rest }) = _ from ho) ▸ cuFinish_answered n data r u⟩
  · refine .inr ⟨u, j, rfl, ?_⟩
    rw [show owner (commandParam data) (s.withCu { s.cu with queue := rest }) = (u, .inr j) from ho]

end Sys2Proof.Machine
end

