-- ==== Sys2Proof/Laws/Frames.lean ====
section
/-! SUPPORT. What the shared operations leave unchanged, one lemma per field and object: the own writes of a record, events,
and the changes of one numbered object. -/

namespace Sys2Proof.Machine

/-! ### Own writes and events -/

@[simp] theorem rwSubmit_cu (o : OwnRequest) (s : State) : (rwSubmit o s).cu = s.cu := by unfold rwSubmit; split <;> rfl
@[simp] theorem rwSubmit_tb (o : OwnRequest) (s : State) : (rwSubmit o s).tb = s.tb := by unfold rwSubmit; split <;> rfl
@[simp] theorem rwSubmit_fm (o : OwnRequest) (s : State) : (rwSubmit o s).fm = s.fm := by unfold rwSubmit; split <;> rfl
@[simp] theorem rwSubmit_bt (o : OwnRequest) (s : State) : (rwSubmit o s).bt = s.bt := by unfold rwSubmit; split <;> rfl
@[simp] theorem rwSubmit_ga (o : OwnRequest) (s : State) : (rwSubmit o s).ga = s.ga := by unfold rwSubmit; split <;> rfl
@[simp] theorem rwSubmit_ru (o : OwnRequest) (s : State) : (rwSubmit o s).ru = s.ru := by unfold rwSubmit; split <;> rfl
@[simp] theorem rwSubmit_dm (o : OwnRequest) (s : State) : (rwSubmit o s).dm = s.dm := by unfold rwSubmit; split <;> rfl
@[simp] theorem rwSubmit_mu (o : OwnRequest) (s : State) : (rwSubmit o s).mu = s.mu := by unfold rwSubmit; split <;> rfl
@[simp] theorem rwSubmit_pending (o : OwnRequest) (s : State) : (rwSubmit o s).pending = s.pending := by unfold rwSubmit; split <;> rfl
@[simp] theorem rwSubmit_lpu_mode (o : OwnRequest) (s : State) : (rwSubmit o s).lpu.mode = s.lpu.mode := by unfold rwSubmit; split <;> rfl
@[simp] theorem rwSubmit_lpu_strapBase (o : OwnRequest) (s : State) : (rwSubmit o s).lpu.strapBase = s.lpu.strapBase := by unfold rwSubmit; split <;> rfl
@[simp] theorem rwSubmit_lpu_strapInit (o : OwnRequest) (s : State) : (rwSubmit o s).lpu.strapInit = s.lpu.strapInit := by unfold rwSubmit; split <;> rfl
@[simp] theorem rwSubmit_lpu_depth (o : OwnRequest) (s : State) : (rwSubmit o s).lpu.depth = s.lpu.depth := by unfold rwSubmit; split <;> rfl
@[simp] theorem rwSubmit_lpu_rings (o : OwnRequest) (s : State) : (rwSubmit o s).lpu.rings = s.lpu.rings := by unfold rwSubmit; split <;> rfl
@[simp] theorem rwSubmit_lpu_windows (o : OwnRequest) (s : State) : (rwSubmit o s).lpu.windows = s.lpu.windows := by unfold rwSubmit; split <;> rfl
@[simp] theorem rwSubmit_lpu_monitors (o : OwnRequest) (s : State) : (rwSubmit o s).lpu.monitors = s.lpu.monitors := by unfold rwSubmit; split <;> rfl
@[simp] theorem rwSubmit_lpu_latches (o : OwnRequest) (s : State) : (rwSubmit o s).lpu.latches = s.lpu.latches := by unfold rwSubmit; split <;> rfl
@[simp] theorem rwSubmit_lpu_holds (o : OwnRequest) (s : State) : (rwSubmit o s).lpu.holds = s.lpu.holds := by unfold rwSubmit; split <;> rfl
@[simp] theorem rwSubmit_lpu_forwarding (o : OwnRequest) (s : State) : (rwSubmit o s).lpu.forwarding = s.lpu.forwarding := by unfold rwSubmit; split <;> rfl
@[simp] theorem rwSubmit_lpu_waitingCount (o : OwnRequest) (s : State) : (rwSubmit o s).lpu.waitingCount = s.lpu.waitingCount := by unfold rwSubmit; split <;> rfl
@[simp] theorem rwSubmit_lpu_foreignWrites (o : OwnRequest) (s : State) : (rwSubmit o s).lpu.foreignWrites = s.lpu.foreignWrites := by unfold rwSubmit; split <;> rfl
@[simp] theorem rwSubmit_lpu_unauthReads (o : OwnRequest) (s : State) : (rwSubmit o s).lpu.unauthReads = s.lpu.unauthReads := by unfold rwSubmit; split <;> rfl
@[simp] theorem rwSubmit_lpu_windowWrites (o : OwnRequest) (s : State) : (rwSubmit o s).lpu.windowWrites = s.lpu.windowWrites := by unfold rwSubmit; split <;> rfl
@[simp] theorem rwSubmit_lpu_decidedReads (o : OwnRequest) (s : State) : (rwSubmit o s).lpu.decidedReads = s.lpu.decidedReads := by unfold rwSubmit; split <;> rfl
@[simp] theorem rwSubmit_lpu_issued (o : OwnRequest) (s : State) : (rwSubmit o s).lpu.issued = s.lpu.issued := by unfold rwSubmit; split <;> rfl
@[simp] theorem rwSubmit_lpu_answers (o : OwnRequest) (s : State) : (rwSubmit o s).lpu.answers = s.lpu.answers := by unfold rwSubmit; split <;> rfl
@[simp] theorem rwSubmit_lpu_resetAsserted (o : OwnRequest) (s : State) : (rwSubmit o s).lpu.resetAsserted = s.lpu.resetAsserted := by unfold rwSubmit; split <;> rfl
@[simp] theorem rwSubmit_rw_mask (o : OwnRequest) (s : State) : (rwSubmit o s).rw.mask = s.rw.mask := by unfold rwSubmit; split <;> rfl
@[simp] theorem rwSubmit_rw_pendingBilling (o : OwnRequest) (s : State) : (rwSubmit o s).rw.pendingBilling = s.rw.pendingBilling := by unfold rwSubmit; split <;> rfl
@[simp] theorem rwSubmit_rw_noticeResult (o : OwnRequest) (s : State) : (rwSubmit o s).rw.noticeResult = s.rw.noticeResult := by unfold rwSubmit; split <;> rfl
@[simp] theorem rwSubmit_rw_noticeEvent (o : OwnRequest) (s : State) : (rwSubmit o s).rw.noticeEvent = s.rw.noticeEvent := by unfold rwSubmit; split <;> rfl
@[simp] theorem rwSubmit_rw_noticeBilling (o : OwnRequest) (s : State) : (rwSubmit o s).rw.noticeBilling = s.rw.noticeBilling := by unfold rwSubmit; split <;> rfl
@[simp] theorem rwSubmit_rw_noticeLine (o : OwnRequest) (s : State) : (rwSubmit o s).rw.noticeLine = s.rw.noticeLine := by unfold rwSubmit; split <;> rfl
@[simp] theorem rwSubmit_rw_badIndexWrites (o : OwnRequest) (s : State) : (rwSubmit o s).rw.badIndexWrites = s.rw.badIndexWrites := by unfold rwSubmit; split <;> rfl
@[simp] theorem rwSubmit_rw_ownWriteErrors (o : OwnRequest) (s : State) : (rwSubmit o s).rw.ownWriteErrors = s.rw.ownWriteErrors := by unfold rwSubmit; split <;> rfl
@[simp] theorem rwSubmit_rw_checkpointsLost (o : OwnRequest) (s : State) : (rwSubmit o s).rw.checkpointsLost = s.rw.checkpointsLost := by unfold rwSubmit; split <;> rfl

@[simp] theorem rwRequest_cu (k : OwnKind) (a : ReqKind) (addr len : Nat) (data : List Byte) (s : State) : (rwRequest k a addr len data s).cu = s.cu := by simp [rwRequest]
@[simp] theorem rwRequest_tb (k : OwnKind) (a : ReqKind) (addr len : Nat) (data : List Byte) (s : State) : (rwRequest k a addr len data s).tb = s.tb := by simp [rwRequest]
@[simp] theorem rwRequest_fm (k : OwnKind) (a : ReqKind) (addr len : Nat) (data : List Byte) (s : State) : (rwRequest k a addr len data s).fm = s.fm := by simp [rwRequest]
@[simp] theorem rwRequest_bt (k : OwnKind) (a : ReqKind) (addr len : Nat) (data : List Byte) (s : State) : (rwRequest k a addr len data s).bt = s.bt := by simp [rwRequest]
@[simp] theorem rwRequest_ga (k : OwnKind) (a : ReqKind) (addr len : Nat) (data : List Byte) (s : State) : (rwRequest k a addr len data s).ga = s.ga := by simp [rwRequest]
@[simp] theorem rwRequest_ru (k : OwnKind) (a : ReqKind) (addr len : Nat) (data : List Byte) (s : State) : (rwRequest k a addr len data s).ru = s.ru := by simp [rwRequest]
@[simp] theorem rwRequest_dm (k : OwnKind) (a : ReqKind) (addr len : Nat) (data : List Byte) (s : State) : (rwRequest k a addr len data s).dm = s.dm := by simp [rwRequest]
@[simp] theorem rwRequest_mu (k : OwnKind) (a : ReqKind) (addr len : Nat) (data : List Byte) (s : State) : (rwRequest k a addr len data s).mu = s.mu := by simp [rwRequest]
@[simp] theorem rwRequest_pending (k : OwnKind) (a : ReqKind) (addr len : Nat) (data : List Byte) (s : State) : (rwRequest k a addr len data s).pending = s.pending := by simp [rwRequest]
@[simp] theorem rwRequest_lpu_mode (k : OwnKind) (a : ReqKind) (addr len : Nat) (data : List Byte) (s : State) : (rwRequest k a addr len data s).lpu.mode = s.lpu.mode := by simp [rwRequest]
@[simp] theorem rwRequest_lpu_strapBase (k : OwnKind) (a : ReqKind) (addr len : Nat) (data : List Byte) (s : State) : (rwRequest k a addr len data s).lpu.strapBase = s.lpu.strapBase := by simp [rwRequest]
@[simp] theorem rwRequest_lpu_strapInit (k : OwnKind) (a : ReqKind) (addr len : Nat) (data : List Byte) (s : State) : (rwRequest k a addr len data s).lpu.strapInit = s.lpu.strapInit := by simp [rwRequest]
@[simp] theorem rwRequest_lpu_depth (k : OwnKind) (a : ReqKind) (addr len : Nat) (data : List Byte) (s : State) : (rwRequest k a addr len data s).lpu.depth = s.lpu.depth := by simp [rwRequest]
@[simp] theorem rwRequest_lpu_rings (k : OwnKind) (a : ReqKind) (addr len : Nat) (data : List Byte) (s : State) : (rwRequest k a addr len data s).lpu.rings = s.lpu.rings := by simp [rwRequest]
@[simp] theorem rwRequest_lpu_windows (k : OwnKind) (a : ReqKind) (addr len : Nat) (data : List Byte) (s : State) : (rwRequest k a addr len data s).lpu.windows = s.lpu.windows := by simp [rwRequest]
@[simp] theorem rwRequest_lpu_monitors (k : OwnKind) (a : ReqKind) (addr len : Nat) (data : List Byte) (s : State) : (rwRequest k a addr len data s).lpu.monitors = s.lpu.monitors := by simp [rwRequest]
@[simp] theorem rwRequest_lpu_latches (k : OwnKind) (a : ReqKind) (addr len : Nat) (data : List Byte) (s : State) : (rwRequest k a addr len data s).lpu.latches = s.lpu.latches := by simp [rwRequest]
@[simp] theorem rwRequest_lpu_holds (k : OwnKind) (a : ReqKind) (addr len : Nat) (data : List Byte) (s : State) : (rwRequest k a addr len data s).lpu.holds = s.lpu.holds := by simp [rwRequest]
@[simp] theorem rwRequest_lpu_forwarding (k : OwnKind) (a : ReqKind) (addr len : Nat) (data : List Byte) (s : State) : (rwRequest k a addr len data s).lpu.forwarding = s.lpu.forwarding := by simp [rwRequest]
@[simp] theorem rwRequest_lpu_waitingCount (k : OwnKind) (a : ReqKind) (addr len : Nat) (data : List Byte) (s : State) : (rwRequest k a addr len data s).lpu.waitingCount = s.lpu.waitingCount := by simp [rwRequest]
@[simp] theorem rwRequest_lpu_foreignWrites (k : OwnKind) (a : ReqKind) (addr len : Nat) (data : List Byte) (s : State) : (rwRequest k a addr len data s).lpu.foreignWrites = s.lpu.foreignWrites := by simp [rwRequest]
@[simp] theorem rwRequest_lpu_unauthReads (k : OwnKind) (a : ReqKind) (addr len : Nat) (data : List Byte) (s : State) : (rwRequest k a addr len data s).lpu.unauthReads = s.lpu.unauthReads := by simp [rwRequest]
@[simp] theorem rwRequest_lpu_windowWrites (k : OwnKind) (a : ReqKind) (addr len : Nat) (data : List Byte) (s : State) : (rwRequest k a addr len data s).lpu.windowWrites = s.lpu.windowWrites := by simp [rwRequest]
@[simp] theorem rwRequest_lpu_decidedReads (k : OwnKind) (a : ReqKind) (addr len : Nat) (data : List Byte) (s : State) : (rwRequest k a addr len data s).lpu.decidedReads = s.lpu.decidedReads := by simp [rwRequest]
@[simp] theorem rwRequest_lpu_issued (k : OwnKind) (a : ReqKind) (addr len : Nat) (data : List Byte) (s : State) : (rwRequest k a addr len data s).lpu.issued = s.lpu.issued := by simp [rwRequest]
@[simp] theorem rwRequest_lpu_answers (k : OwnKind) (a : ReqKind) (addr len : Nat) (data : List Byte) (s : State) : (rwRequest k a addr len data s).lpu.answers = s.lpu.answers := by simp [rwRequest]
@[simp] theorem rwRequest_lpu_resetAsserted (k : OwnKind) (a : ReqKind) (addr len : Nat) (data : List Byte) (s : State) : (rwRequest k a addr len data s).lpu.resetAsserted = s.lpu.resetAsserted := by simp [rwRequest]
@[simp] theorem rwRequest_rw_mask (k : OwnKind) (a : ReqKind) (addr len : Nat) (data : List Byte) (s : State) : (rwRequest k a addr len data s).rw.mask = s.rw.mask := by simp [rwRequest]
@[simp] theorem rwRequest_rw_pendingBilling (k : OwnKind) (a : ReqKind) (addr len : Nat) (data : List Byte) (s : State) : (rwRequest k a addr len data s).rw.pendingBilling = s.rw.pendingBilling := by simp [rwRequest]
@[simp] theorem rwRequest_rw_noticeResult (k : OwnKind) (a : ReqKind) (addr len : Nat) (data : List Byte) (s : State) : (rwRequest k a addr len data s).rw.noticeResult = s.rw.noticeResult := by simp [rwRequest]
@[simp] theorem rwRequest_rw_noticeEvent (k : OwnKind) (a : ReqKind) (addr len : Nat) (data : List Byte) (s : State) : (rwRequest k a addr len data s).rw.noticeEvent = s.rw.noticeEvent := by simp [rwRequest]
@[simp] theorem rwRequest_rw_noticeBilling (k : OwnKind) (a : ReqKind) (addr len : Nat) (data : List Byte) (s : State) : (rwRequest k a addr len data s).rw.noticeBilling = s.rw.noticeBilling := by simp [rwRequest]
@[simp] theorem rwRequest_rw_noticeLine (k : OwnKind) (a : ReqKind) (addr len : Nat) (data : List Byte) (s : State) : (rwRequest k a addr len data s).rw.noticeLine = s.rw.noticeLine := by simp [rwRequest]
@[simp] theorem rwRequest_rw_badIndexWrites (k : OwnKind) (a : ReqKind) (addr len : Nat) (data : List Byte) (s : State) : (rwRequest k a addr len data s).rw.badIndexWrites = s.rw.badIndexWrites := by simp [rwRequest]
@[simp] theorem rwRequest_rw_ownWriteErrors (k : OwnKind) (a : ReqKind) (addr len : Nat) (data : List Byte) (s : State) : (rwRequest k a addr len data s).rw.ownWriteErrors = s.rw.ownWriteErrors := by simp [rwRequest]
@[simp] theorem rwRequest_rw_checkpointsLost (k : OwnKind) (a : ReqKind) (addr len : Nat) (data : List Byte) (s : State) : (rwRequest k a addr len data s).rw.checkpointsLost = s.rw.checkpointsLost := by simp [rwRequest]

@[simp] theorem rwAccept_cu (id : RingId) (bytes : List Byte) (s : State) : (rwAccept id bytes s).cu = s.cu := by simp [rwAccept]
@[simp] theorem rwAccept_tb (id : RingId) (bytes : List Byte) (s : State) : (rwAccept id bytes s).tb = s.tb := by simp [rwAccept]
@[simp] theorem rwAccept_fm (id : RingId) (bytes : List Byte) (s : State) : (rwAccept id bytes s).fm = s.fm := by simp [rwAccept]
@[simp] theorem rwAccept_bt (id : RingId) (bytes : List Byte) (s : State) : (rwAccept id bytes s).bt = s.bt := by simp [rwAccept]
@[simp] theorem rwAccept_ga (id : RingId) (bytes : List Byte) (s : State) : (rwAccept id bytes s).ga = s.ga := by simp [rwAccept]
@[simp] theorem rwAccept_ru (id : RingId) (bytes : List Byte) (s : State) : (rwAccept id bytes s).ru = s.ru := by simp [rwAccept]
@[simp] theorem rwAccept_dm (id : RingId) (bytes : List Byte) (s : State) : (rwAccept id bytes s).dm = s.dm := by simp [rwAccept]
@[simp] theorem rwAccept_mu (id : RingId) (bytes : List Byte) (s : State) : (rwAccept id bytes s).mu = s.mu := by simp [rwAccept]
@[simp] theorem rwAccept_pending (id : RingId) (bytes : List Byte) (s : State) : (rwAccept id bytes s).pending = s.pending := by simp [rwAccept]
@[simp] theorem rwAccept_lpu_mode (id : RingId) (bytes : List Byte) (s : State) : (rwAccept id bytes s).lpu.mode = s.lpu.mode := by simp [rwAccept]
@[simp] theorem rwAccept_lpu_strapBase (id : RingId) (bytes : List Byte) (s : State) : (rwAccept id bytes s).lpu.strapBase = s.lpu.strapBase := by simp [rwAccept]
@[simp] theorem rwAccept_lpu_strapInit (id : RingId) (bytes : List Byte) (s : State) : (rwAccept id bytes s).lpu.strapInit = s.lpu.strapInit := by simp [rwAccept]
@[simp] theorem rwAccept_lpu_depth (id : RingId) (bytes : List Byte) (s : State) : (rwAccept id bytes s).lpu.depth = s.lpu.depth := by simp [rwAccept]
@[simp] theorem rwAccept_lpu_rings (id : RingId) (bytes : List Byte) (s : State) : (rwAccept id bytes s).lpu.rings = s.lpu.rings := by simp [rwAccept]
@[simp] theorem rwAccept_lpu_windows (id : RingId) (bytes : List Byte) (s : State) : (rwAccept id bytes s).lpu.windows = s.lpu.windows := by simp [rwAccept]
@[simp] theorem rwAccept_lpu_monitors (id : RingId) (bytes : List Byte) (s : State) : (rwAccept id bytes s).lpu.monitors = s.lpu.monitors := by simp [rwAccept]
@[simp] theorem rwAccept_lpu_latches (id : RingId) (bytes : List Byte) (s : State) : (rwAccept id bytes s).lpu.latches = s.lpu.latches := by simp [rwAccept]
@[simp] theorem rwAccept_lpu_holds (id : RingId) (bytes : List Byte) (s : State) : (rwAccept id bytes s).lpu.holds = s.lpu.holds := by simp [rwAccept]
@[simp] theorem rwAccept_lpu_forwarding (id : RingId) (bytes : List Byte) (s : State) : (rwAccept id bytes s).lpu.forwarding = s.lpu.forwarding := by simp [rwAccept]
@[simp] theorem rwAccept_lpu_waitingCount (id : RingId) (bytes : List Byte) (s : State) : (rwAccept id bytes s).lpu.waitingCount = s.lpu.waitingCount := by simp [rwAccept]
@[simp] theorem rwAccept_lpu_foreignWrites (id : RingId) (bytes : List Byte) (s : State) : (rwAccept id bytes s).lpu.foreignWrites = s.lpu.foreignWrites := by simp [rwAccept]
@[simp] theorem rwAccept_lpu_unauthReads (id : RingId) (bytes : List Byte) (s : State) : (rwAccept id bytes s).lpu.unauthReads = s.lpu.unauthReads := by simp [rwAccept]
@[simp] theorem rwAccept_lpu_windowWrites (id : RingId) (bytes : List Byte) (s : State) : (rwAccept id bytes s).lpu.windowWrites = s.lpu.windowWrites := by simp [rwAccept]
@[simp] theorem rwAccept_lpu_decidedReads (id : RingId) (bytes : List Byte) (s : State) : (rwAccept id bytes s).lpu.decidedReads = s.lpu.decidedReads := by simp [rwAccept]
@[simp] theorem rwAccept_lpu_issued (id : RingId) (bytes : List Byte) (s : State) : (rwAccept id bytes s).lpu.issued = s.lpu.issued := by simp [rwAccept]
@[simp] theorem rwAccept_lpu_answers (id : RingId) (bytes : List Byte) (s : State) : (rwAccept id bytes s).lpu.answers = s.lpu.answers := by simp [rwAccept]
@[simp] theorem rwAccept_lpu_resetAsserted (id : RingId) (bytes : List Byte) (s : State) : (rwAccept id bytes s).lpu.resetAsserted = s.lpu.resetAsserted := by simp [rwAccept]
@[simp] theorem rwAccept_rw_mask (id : RingId) (bytes : List Byte) (s : State) : (rwAccept id bytes s).rw.mask = s.rw.mask := by cases id <;> simp [rwAccept, State.setRing]
@[simp] theorem rwAccept_rw_pendingBilling (id : RingId) (bytes : List Byte) (s : State) : (rwAccept id bytes s).rw.pendingBilling = s.rw.pendingBilling := by cases id <;> simp [rwAccept, State.setRing]
@[simp] theorem rwAccept_rw_noticeResult (id : RingId) (bytes : List Byte) (s : State) : (rwAccept id bytes s).rw.noticeResult = s.rw.noticeResult := by cases id <;> simp [rwAccept, State.setRing]
@[simp] theorem rwAccept_rw_noticeEvent (id : RingId) (bytes : List Byte) (s : State) : (rwAccept id bytes s).rw.noticeEvent = s.rw.noticeEvent := by cases id <;> simp [rwAccept, State.setRing]
@[simp] theorem rwAccept_rw_noticeBilling (id : RingId) (bytes : List Byte) (s : State) : (rwAccept id bytes s).rw.noticeBilling = s.rw.noticeBilling := by cases id <;> simp [rwAccept, State.setRing]
@[simp] theorem rwAccept_rw_noticeLine (id : RingId) (bytes : List Byte) (s : State) : (rwAccept id bytes s).rw.noticeLine = s.rw.noticeLine := by cases id <;> simp [rwAccept, State.setRing]
@[simp] theorem rwAccept_rw_badIndexWrites (id : RingId) (bytes : List Byte) (s : State) : (rwAccept id bytes s).rw.badIndexWrites = s.rw.badIndexWrites := by cases id <;> simp [rwAccept, State.setRing]
@[simp] theorem rwAccept_rw_ownWriteErrors (id : RingId) (bytes : List Byte) (s : State) : (rwAccept id bytes s).rw.ownWriteErrors = s.rw.ownWriteErrors := by cases id <;> simp [rwAccept, State.setRing]
@[simp] theorem rwAccept_rw_checkpointsLost (id : RingId) (bytes : List Byte) (s : State) : (rwAccept id bytes s).rw.checkpointsLost = s.rw.checkpointsLost := by cases id <;> simp [rwAccept, State.setRing]
@[simp] theorem rwAccept_route (id : RingId) (bytes : List Byte) (d : Nat) (s : State) : (rwAccept id bytes s).route d = s.route d := by simp [State.route]
@[simp] theorem rwAccept_destParams (id : RingId) (bytes : List Byte) (d : Nat) (s : State) : (rwAccept id bytes s).destParams d = s.destParams d := by simp [State.destParams]
@[simp] theorem rwAccept_entry (id : RingId) (bytes : List Byte) (e : Nat) (s : State) : (rwAccept id bytes s).entry e = s.entry e := by simp [State.entry]
@[simp] theorem rwAccept_feedRec (id : RingId) (bytes : List Byte) (f : Nat) (s : State) : (rwAccept id bytes s).feedRec f = s.feedRec f := by simp [State.feedRec]
@[simp] theorem rwAccept_feedParams (id : RingId) (bytes : List Byte) (f : Nat) (s : State) : (rwAccept id bytes s).feedParams f = s.feedParams f := by simp [State.feedParams]
@[simp] theorem rwAccept_holder (id : RingId) (bytes : List Byte) (d : Nat) (s : State) : (rwAccept id bytes s).holder d = s.holder d := by simp [State.holder]
@[simp] theorem rwAccept_grantQueue (id : RingId) (bytes : List Byte) (d : Nat) (s : State) : (rwAccept id bytes s).grantQueue d = s.grantQueue d := by simp [State.grantQueue]
@[simp] theorem rwAccept_delivery (id : RingId) (bytes : List Byte) (d : Nat) (s : State) : (rwAccept id bytes s).delivery d = s.delivery d := by simp [State.delivery]
@[simp] theorem rwAccept_tariff (id : RingId) (bytes : List Byte) (i : Nat) (s : State) : (rwAccept id bytes s).tariff i = s.tariff i := by simp [State.tariff]
@[simp] theorem rwAccept_ringDef (id : RingId) (bytes : List Byte) (f : Nat) (s : State) : (rwAccept id bytes s).ringDef f = s.ringDef f := by simp [State.ringDef]
@[simp] theorem rwAccept_windowDef (id : RingId) (bytes : List Byte) (d : Nat) (s : State) : (rwAccept id bytes s).windowDef d = s.windowDef d := by simp [State.windowDef]
@[simp] theorem rwAccept_latch (id : RingId) (bytes : List Byte) (d : Nat) (s : State) : (rwAccept id bytes s).latch d = s.latch d := by simp [State.latch]
@[simp] theorem rwAccept_foreignWrites (id : RingId) (bytes : List Byte) (f : Nat) (s : State) : (rwAccept id bytes s).foreignWrites f = s.foreignWrites f := by simp [State.foreignWrites]
@[simp] theorem rwAccept_hold (id : RingId) (bytes : List Byte) (d : Nat) (s : State) : (rwAccept id bytes s).hold d = s.hold d := by simp [State.hold]
@[simp] theorem rwAccept_slotData (id : RingId) (bytes : List Byte) (n : Nat) (s : State) : (rwAccept id bytes s).slotData n = s.slotData n := by simp [State.slotData]
@[simp] theorem rwAccept_ringDepth (id : RingId) (bytes : List Byte) (s : State) : (rwAccept id bytes s).ringDepth = s.ringDepth := by simp [State.ringDepth]
@[simp] theorem rwAccept_controlBase (id : RingId) (bytes : List Byte) (s : State) : (rwAccept id bytes s).controlBase = s.controlBase := by simp [State.controlBase]
@[simp] theorem rwAccept_usable (id : RingId) (bytes : List Byte) (f : Nat) (s : State) : (rwAccept id bytes s).usable f = s.usable f := by simp [State.usable]
@[simp] theorem rwAccept_lastSlot (id : RingId) (bytes : List Byte) (f : Nat) (s : State) : (rwAccept id bytes s).lastSlot f = s.lastSlot f := by simp [State.lastSlot]
@[simp] theorem rwAccept_available (id : RingId) (bytes : List Byte) (f q : Nat) (s : State) : (rwAccept id bytes s).available f q = s.available f q := by simp [State.available]
@[simp] theorem rwAccept_holderEntry (id : RingId) (bytes : List Byte) (d : Nat) (s : State) : (rwAccept id bytes s).holderEntry d = s.holderEntry d := by simp [State.holderEntry]
@[simp] theorem rwAccept_selectedFeed (id : RingId) (bytes : List Byte) (d : Nat) (s : State) : (rwAccept id bytes s).selectedFeed d = s.selectedFeed d := by simp [State.selectedFeed, State.holderEntry]

@[simp] theorem raise_cu (cls : EventClass) (kind subject : Nat) (ws : List Nat) (s : State) : (raise cls kind subject ws s).cu = s.cu := by unfold raise; split_ifs <;> simp
@[simp] theorem raise_tb (cls : EventClass) (kind subject : Nat) (ws : List Nat) (s : State) : (raise cls kind subject ws s).tb = s.tb := by unfold raise; split_ifs <;> simp
@[simp] theorem raise_fm (cls : EventClass) (kind subject : Nat) (ws : List Nat) (s : State) : (raise cls kind subject ws s).fm = s.fm := by unfold raise; split_ifs <;> simp
@[simp] theorem raise_bt (cls : EventClass) (kind subject : Nat) (ws : List Nat) (s : State) : (raise cls kind subject ws s).bt = s.bt := by unfold raise; split_ifs <;> simp
@[simp] theorem raise_ga (cls : EventClass) (kind subject : Nat) (ws : List Nat) (s : State) : (raise cls kind subject ws s).ga = s.ga := by unfold raise; split_ifs <;> simp
@[simp] theorem raise_ru (cls : EventClass) (kind subject : Nat) (ws : List Nat) (s : State) : (raise cls kind subject ws s).ru = s.ru := by unfold raise; split_ifs <;> simp
@[simp] theorem raise_dm (cls : EventClass) (kind subject : Nat) (ws : List Nat) (s : State) : (raise cls kind subject ws s).dm = s.dm := by unfold raise; split_ifs <;> simp
@[simp] theorem raise_mu (cls : EventClass) (kind subject : Nat) (ws : List Nat) (s : State) : (raise cls kind subject ws s).mu = s.mu := by unfold raise; split_ifs <;> simp
@[simp] theorem raise_pending (cls : EventClass) (kind subject : Nat) (ws : List Nat) (s : State) : (raise cls kind subject ws s).pending = s.pending := by unfold raise; split_ifs <;> simp
@[simp] theorem raise_lpu_mode (cls : EventClass) (kind subject : Nat) (ws : List Nat) (s : State) : (raise cls kind subject ws s).lpu.mode = s.lpu.mode := by unfold raise; split_ifs <;> simp
@[simp] theorem raise_lpu_strapBase (cls : EventClass) (kind subject : Nat) (ws : List Nat) (s : State) : (raise cls kind subject ws s).lpu.strapBase = s.lpu.strapBase := by unfold raise; split_ifs <;> simp
@[simp] theorem raise_lpu_strapInit (cls : EventClass) (kind subject : Nat) (ws : List Nat) (s : State) : (raise cls kind subject ws s).lpu.strapInit = s.lpu.strapInit := by unfold raise; split_ifs <;> simp
@[simp] theorem raise_lpu_depth (cls : EventClass) (kind subject : Nat) (ws : List Nat) (s : State) : (raise cls kind subject ws s).lpu.depth = s.lpu.depth := by unfold raise; split_ifs <;> simp
@[simp] theorem raise_lpu_rings (cls : EventClass) (kind subject : Nat) (ws : List Nat) (s : State) : (raise cls kind subject ws s).lpu.rings = s.lpu.rings := by unfold raise; split_ifs <;> simp
@[simp] theorem raise_lpu_windows (cls : EventClass) (kind subject : Nat) (ws : List Nat) (s : State) : (raise cls kind subject ws s).lpu.windows = s.lpu.windows := by unfold raise; split_ifs <;> simp
@[simp] theorem raise_lpu_monitors (cls : EventClass) (kind subject : Nat) (ws : List Nat) (s : State) : (raise cls kind subject ws s).lpu.monitors = s.lpu.monitors := by unfold raise; split_ifs <;> simp
@[simp] theorem raise_lpu_latches (cls : EventClass) (kind subject : Nat) (ws : List Nat) (s : State) : (raise cls kind subject ws s).lpu.latches = s.lpu.latches := by unfold raise; split_ifs <;> simp
@[simp] theorem raise_lpu_holds (cls : EventClass) (kind subject : Nat) (ws : List Nat) (s : State) : (raise cls kind subject ws s).lpu.holds = s.lpu.holds := by unfold raise; split_ifs <;> simp
@[simp] theorem raise_lpu_forwarding (cls : EventClass) (kind subject : Nat) (ws : List Nat) (s : State) : (raise cls kind subject ws s).lpu.forwarding = s.lpu.forwarding := by unfold raise; split_ifs <;> simp
@[simp] theorem raise_lpu_waitingCount (cls : EventClass) (kind subject : Nat) (ws : List Nat) (s : State) : (raise cls kind subject ws s).lpu.waitingCount = s.lpu.waitingCount := by unfold raise; split_ifs <;> simp
@[simp] theorem raise_lpu_foreignWrites (cls : EventClass) (kind subject : Nat) (ws : List Nat) (s : State) : (raise cls kind subject ws s).lpu.foreignWrites = s.lpu.foreignWrites := by unfold raise; split_ifs <;> simp
@[simp] theorem raise_lpu_unauthReads (cls : EventClass) (kind subject : Nat) (ws : List Nat) (s : State) : (raise cls kind subject ws s).lpu.unauthReads = s.lpu.unauthReads := by unfold raise; split_ifs <;> simp
@[simp] theorem raise_lpu_windowWrites (cls : EventClass) (kind subject : Nat) (ws : List Nat) (s : State) : (raise cls kind subject ws s).lpu.windowWrites = s.lpu.windowWrites := by unfold raise; split_ifs <;> simp
@[simp] theorem raise_lpu_decidedReads (cls : EventClass) (kind subject : Nat) (ws : List Nat) (s : State) : (raise cls kind subject ws s).lpu.decidedReads = s.lpu.decidedReads := by unfold raise; split_ifs <;> simp
@[simp] theorem raise_lpu_issued (cls : EventClass) (kind subject : Nat) (ws : List Nat) (s : State) : (raise cls kind subject ws s).lpu.issued = s.lpu.issued := by unfold raise; split_ifs <;> simp
@[simp] theorem raise_lpu_answers (cls : EventClass) (kind subject : Nat) (ws : List Nat) (s : State) : (raise cls kind subject ws s).lpu.answers = s.lpu.answers := by unfold raise; split_ifs <;> simp
@[simp] theorem raise_lpu_resetAsserted (cls : EventClass) (kind subject : Nat) (ws : List Nat) (s : State) : (raise cls kind subject ws s).lpu.resetAsserted = s.lpu.resetAsserted := by unfold raise; split_ifs <;> simp
@[simp] theorem raise_rw_mask (cls : EventClass) (kind subject : Nat) (ws : List Nat) (s : State) : (raise cls kind subject ws s).rw.mask = s.rw.mask := by unfold raise; split_ifs <;> simp
@[simp] theorem raise_rw_pendingBilling (cls : EventClass) (kind subject : Nat) (ws : List Nat) (s : State) : (raise cls kind subject ws s).rw.pendingBilling = s.rw.pendingBilling := by unfold raise; split_ifs <;> simp
@[simp] theorem raise_rw_noticeResult (cls : EventClass) (kind subject : Nat) (ws : List Nat) (s : State) : (raise cls kind subject ws s).rw.noticeResult = s.rw.noticeResult := by unfold raise; split_ifs <;> simp
@[simp] theorem raise_rw_noticeEvent (cls : EventClass) (kind subject : Nat) (ws : List Nat) (s : State) : (raise cls kind subject ws s).rw.noticeEvent = s.rw.noticeEvent := by unfold raise; split_ifs <;> simp
@[simp] theorem raise_rw_noticeBilling (cls : EventClass) (kind subject : Nat) (ws : List Nat) (s : State) : (raise cls kind subject ws s).rw.noticeBilling = s.rw.noticeBilling := by unfold raise; split_ifs <;> simp
@[simp] theorem raise_rw_noticeLine (cls : EventClass) (kind subject : Nat) (ws : List Nat) (s : State) : (raise cls kind subject ws s).rw.noticeLine = s.rw.noticeLine := by unfold raise; split_ifs <;> simp
@[simp] theorem raise_rw_badIndexWrites (cls : EventClass) (kind subject : Nat) (ws : List Nat) (s : State) : (raise cls kind subject ws s).rw.badIndexWrites = s.rw.badIndexWrites := by unfold raise; split_ifs <;> simp
@[simp] theorem raise_rw_ownWriteErrors (cls : EventClass) (kind subject : Nat) (ws : List Nat) (s : State) : (raise cls kind subject ws s).rw.ownWriteErrors = s.rw.ownWriteErrors := by unfold raise; split_ifs <;> simp
@[simp] theorem raise_rw_checkpointsLost (cls : EventClass) (kind subject : Nat) (ws : List Nat) (s : State) : (raise cls kind subject ws s).rw.checkpointsLost = s.rw.checkpointsLost := by unfold raise; split_ifs <;> simp
@[simp] theorem raise_route (cls : EventClass) (kind subject : Nat) (ws : List Nat) (d : Nat) (s : State) : (raise cls kind subject ws s).route d = s.route d := by simp [State.route]
@[simp] theorem raise_destParams (cls : EventClass) (kind subject : Nat) (ws : List Nat) (d : Nat) (s : State) : (raise cls kind subject ws s).destParams d = s.destParams d := by simp [State.destParams]
@[simp] theorem raise_entry (cls : EventClass) (kind subject : Nat) (ws : List Nat) (e : Nat) (s : State) : (raise cls kind subject ws s).entry e = s.entry e := by simp [State.entry]
@[simp] theorem raise_feedRec (cls : EventClass) (kind subject : Nat) (ws : List Nat) (f : Nat) (s : State) : (raise cls kind subject ws s).feedRec f = s.feedRec f := by simp [State.feedRec]
@[simp] theorem raise_feedParams (cls : EventClass) (kind subject : Nat) (ws : List Nat) (f : Nat) (s : State) : (raise cls kind subject ws s).feedParams f = s.feedParams f := by simp [State.feedParams]
@[simp] theorem raise_holder (cls : EventClass) (kind subject : Nat) (ws : List Nat) (d : Nat) (s : State) : (raise cls kind subject ws s).holder d = s.holder d := by simp [State.holder]
@[simp] theorem raise_grantQueue (cls : EventClass) (kind subject : Nat) (ws : List Nat) (d : Nat) (s : State) : (raise cls kind subject ws s).grantQueue d = s.grantQueue d := by simp [State.grantQueue]
@[simp] theorem raise_delivery (cls : EventClass) (kind subject : Nat) (ws : List Nat) (d : Nat) (s : State) : (raise cls kind subject ws s).delivery d = s.delivery d := by simp [State.delivery]
@[simp] theorem raise_tariff (cls : EventClass) (kind subject : Nat) (ws : List Nat) (i : Nat) (s : State) : (raise cls kind subject ws s).tariff i = s.tariff i := by simp [State.tariff]
@[simp] theorem raise_ringDef (cls : EventClass) (kind subject : Nat) (ws : List Nat) (f : Nat) (s : State) : (raise cls kind subject ws s).ringDef f = s.ringDef f := by simp [State.ringDef]
@[simp] theorem raise_windowDef (cls : EventClass) (kind subject : Nat) (ws : List Nat) (d : Nat) (s : State) : (raise cls kind subject ws s).windowDef d = s.windowDef d := by simp [State.windowDef]
@[simp] theorem raise_latch (cls : EventClass) (kind subject : Nat) (ws : List Nat) (d : Nat) (s : State) : (raise cls kind subject ws s).latch d = s.latch d := by simp [State.latch]
@[simp] theorem raise_foreignWrites (cls : EventClass) (kind subject : Nat) (ws : List Nat) (f : Nat) (s : State) : (raise cls kind subject ws s).foreignWrites f = s.foreignWrites f := by simp [State.foreignWrites]
@[simp] theorem raise_hold (cls : EventClass) (kind subject : Nat) (ws : List Nat) (d : Nat) (s : State) : (raise cls kind subject ws s).hold d = s.hold d := by simp [State.hold]
@[simp] theorem raise_slotData (cls : EventClass) (kind subject : Nat) (ws : List Nat) (n : Nat) (s : State) : (raise cls kind subject ws s).slotData n = s.slotData n := by simp [State.slotData]
@[simp] theorem raise_ringDepth (cls : EventClass) (kind subject : Nat) (ws : List Nat) (s : State) : (raise cls kind subject ws s).ringDepth = s.ringDepth := by simp [State.ringDepth]
@[simp] theorem raise_controlBase (cls : EventClass) (kind subject : Nat) (ws : List Nat) (s : State) : (raise cls kind subject ws s).controlBase = s.controlBase := by simp [State.controlBase]
@[simp] theorem raise_usable (cls : EventClass) (kind subject : Nat) (ws : List Nat) (f : Nat) (s : State) : (raise cls kind subject ws s).usable f = s.usable f := by simp [State.usable]
@[simp] theorem raise_lastSlot (cls : EventClass) (kind subject : Nat) (ws : List Nat) (f : Nat) (s : State) : (raise cls kind subject ws s).lastSlot f = s.lastSlot f := by simp [State.lastSlot]
@[simp] theorem raise_available (cls : EventClass) (kind subject : Nat) (ws : List Nat) (f q : Nat) (s : State) : (raise cls kind subject ws s).available f q = s.available f q := by simp [State.available]
@[simp] theorem raise_holderEntry (cls : EventClass) (kind subject : Nat) (ws : List Nat) (d : Nat) (s : State) : (raise cls kind subject ws s).holderEntry d = s.holderEntry d := by simp [State.holderEntry]
@[simp] theorem raise_selectedFeed (cls : EventClass) (kind subject : Nat) (ws : List Nat) (d : Nat) (s : State) : (raise cls kind subject ws s).selectedFeed d = s.selectedFeed d := by simp [State.selectedFeed, State.holderEntry]

/-! ### Changes of one object -/

@[simp] theorem State.setLatch_route (j : Nat) (x : Option Latch) (d : Nat) (s : State) : (s.setLatch j x).route d = s.route d := rfl
@[simp] theorem State.setLatch_destParams (j : Nat) (x : Option Latch) (d : Nat) (s : State) : (s.setLatch j x).destParams d = s.destParams d := rfl
@[simp] theorem State.setLatch_entry (j : Nat) (x : Option Latch) (e : Nat) (s : State) : (s.setLatch j x).entry e = s.entry e := rfl
@[simp] theorem State.setLatch_feedRec (j : Nat) (x : Option Latch) (f : Nat) (s : State) : (s.setLatch j x).feedRec f = s.feedRec f := rfl
@[simp] theorem State.setLatch_feedParams (j : Nat) (x : Option Latch) (f : Nat) (s : State) : (s.setLatch j x).feedParams f = s.feedParams f := rfl
@[simp] theorem State.setLatch_holder (j : Nat) (x : Option Latch) (d : Nat) (s : State) : (s.setLatch j x).holder d = s.holder d := rfl
@[simp] theorem State.setLatch_grantQueue (j : Nat) (x : Option Latch) (d : Nat) (s : State) : (s.setLatch j x).grantQueue d = s.grantQueue d := rfl
@[simp] theorem State.setLatch_delivery (j : Nat) (x : Option Latch) (d : Nat) (s : State) : (s.setLatch j x).delivery d = s.delivery d := rfl
@[simp] theorem State.setLatch_tariff (j : Nat) (x : Option Latch) (i : Nat) (s : State) : (s.setLatch j x).tariff i = s.tariff i := rfl
@[simp] theorem State.setLatch_ringDef (j : Nat) (x : Option Latch) (f : Nat) (s : State) : (s.setLatch j x).ringDef f = s.ringDef f := rfl
@[simp] theorem State.setLatch_windowDef (j : Nat) (x : Option Latch) (d : Nat) (s : State) : (s.setLatch j x).windowDef d = s.windowDef d := rfl
@[simp] theorem State.setLatch_foreignWrites (j : Nat) (x : Option Latch) (f : Nat) (s : State) : (s.setLatch j x).foreignWrites f = s.foreignWrites f := rfl
@[simp] theorem State.setLatch_hold (j : Nat) (x : Option Latch) (d : Nat) (s : State) : (s.setLatch j x).hold d = s.hold d := rfl
@[simp] theorem State.setLatch_slotData (j : Nat) (x : Option Latch) (n : Nat) (s : State) : (s.setLatch j x).slotData n = s.slotData n := rfl
@[simp] theorem State.setLatch_ringDepth (j : Nat) (x : Option Latch) (s : State) : (s.setLatch j x).ringDepth = s.ringDepth := rfl
@[simp] theorem State.setLatch_controlBase (j : Nat) (x : Option Latch) (s : State) : (s.setLatch j x).controlBase = s.controlBase := rfl
@[simp] theorem State.setLatch_usable (j : Nat) (x : Option Latch) (f : Nat) (s : State) : (s.setLatch j x).usable f = s.usable f := rfl
@[simp] theorem State.setLatch_lastSlot (j : Nat) (x : Option Latch) (f : Nat) (s : State) : (s.setLatch j x).lastSlot f = s.lastSlot f := rfl
@[simp] theorem State.setLatch_available (j : Nat) (x : Option Latch) (f q : Nat) (s : State) : (s.setLatch j x).available f q = s.available f q := rfl
@[simp] theorem State.setLatch_holderEntry (j : Nat) (x : Option Latch) (d : Nat) (s : State) : (s.setLatch j x).holderEntry d = s.holderEntry d := rfl
@[simp] theorem State.setLatch_selectedFeed (j : Nat) (x : Option Latch) (d : Nat) (s : State) : (s.setLatch j x).selectedFeed d = s.selectedFeed d := rfl

@[simp] theorem State.setForeignWrites_route (j m : Nat) (d : Nat) (s : State) : (s.setForeignWrites j m).route d = s.route d := rfl
@[simp] theorem State.setForeignWrites_destParams (j m : Nat) (d : Nat) (s : State) : (s.setForeignWrites j m).destParams d = s.destParams d := rfl
@[simp] theorem State.setForeignWrites_entry (j m : Nat) (e : Nat) (s : State) : (s.setForeignWrites j m).entry e = s.entry e := rfl
@[simp] theorem State.setForeignWrites_feedRec (j m : Nat) (f : Nat) (s : State) : (s.setForeignWrites j m).feedRec f = s.feedRec f := rfl
@[simp] theorem State.setForeignWrites_feedParams (j m : Nat) (f : Nat) (s : State) : (s.setForeignWrites j m).feedParams f = s.feedParams f := rfl
@[simp] theorem State.setForeignWrites_holder (j m : Nat) (d : Nat) (s : State) : (s.setForeignWrites j m).holder d = s.holder d := rfl
@[simp] theorem State.setForeignWrites_grantQueue (j m : Nat) (d : Nat) (s : State) : (s.setForeignWrites j m).grantQueue d = s.grantQueue d := rfl
@[simp] theorem State.setForeignWrites_delivery (j m : Nat) (d : Nat) (s : State) : (s.setForeignWrites j m).delivery d = s.delivery d := rfl
@[simp] theorem State.setForeignWrites_tariff (j m : Nat) (i : Nat) (s : State) : (s.setForeignWrites j m).tariff i = s.tariff i := rfl
@[simp] theorem State.setForeignWrites_ringDef (j m : Nat) (f : Nat) (s : State) : (s.setForeignWrites j m).ringDef f = s.ringDef f := rfl
@[simp] theorem State.setForeignWrites_windowDef (j m : Nat) (d : Nat) (s : State) : (s.setForeignWrites j m).windowDef d = s.windowDef d := rfl
@[simp] theorem State.setForeignWrites_latch (j m : Nat) (d : Nat) (s : State) : (s.setForeignWrites j m).latch d = s.latch d := rfl
@[simp] theorem State.setForeignWrites_hold (j m : Nat) (d : Nat) (s : State) : (s.setForeignWrites j m).hold d = s.hold d := rfl
@[simp] theorem State.setForeignWrites_slotData (j m : Nat) (n : Nat) (s : State) : (s.setForeignWrites j m).slotData n = s.slotData n := rfl
@[simp] theorem State.setForeignWrites_ringDepth (j m : Nat) (s : State) : (s.setForeignWrites j m).ringDepth = s.ringDepth := rfl
@[simp] theorem State.setForeignWrites_controlBase (j m : Nat) (s : State) : (s.setForeignWrites j m).controlBase = s.controlBase := rfl
@[simp] theorem State.setForeignWrites_usable (j m : Nat) (f : Nat) (s : State) : (s.setForeignWrites j m).usable f = s.usable f := rfl
@[simp] theorem State.setForeignWrites_lastSlot (j m : Nat) (f : Nat) (s : State) : (s.setForeignWrites j m).lastSlot f = s.lastSlot f := rfl
@[simp] theorem State.setForeignWrites_available (j m : Nat) (f q : Nat) (s : State) : (s.setForeignWrites j m).available f q = s.available f q := rfl
@[simp] theorem State.setForeignWrites_holderEntry (j m : Nat) (d : Nat) (s : State) : (s.setForeignWrites j m).holderEntry d = s.holderEntry d := rfl
@[simp] theorem State.setForeignWrites_selectedFeed (j m : Nat) (d : Nat) (s : State) : (s.setForeignWrites j m).selectedFeed d = s.selectedFeed d := rfl

@[simp] theorem State.setSlotData_route (j : Nat) (x : Option (List Byte)) (d : Nat) (s : State) : (s.setSlotData j x).route d = s.route d := rfl
@[simp] theorem State.setSlotData_destParams (j : Nat) (x : Option (List Byte)) (d : Nat) (s : State) : (s.setSlotData j x).destParams d = s.destParams d := rfl
@[simp] theorem State.setSlotData_entry (j : Nat) (x : Option (List Byte)) (e : Nat) (s : State) : (s.setSlotData j x).entry e = s.entry e := rfl
@[simp] theorem State.setSlotData_feedRec (j : Nat) (x : Option (List Byte)) (f : Nat) (s : State) : (s.setSlotData j x).feedRec f = s.feedRec f := rfl
@[simp] theorem State.setSlotData_feedParams (j : Nat) (x : Option (List Byte)) (f : Nat) (s : State) : (s.setSlotData j x).feedParams f = s.feedParams f := rfl
@[simp] theorem State.setSlotData_holder (j : Nat) (x : Option (List Byte)) (d : Nat) (s : State) : (s.setSlotData j x).holder d = s.holder d := rfl
@[simp] theorem State.setSlotData_grantQueue (j : Nat) (x : Option (List Byte)) (d : Nat) (s : State) : (s.setSlotData j x).grantQueue d = s.grantQueue d := rfl
@[simp] theorem State.setSlotData_delivery (j : Nat) (x : Option (List Byte)) (d : Nat) (s : State) : (s.setSlotData j x).delivery d = s.delivery d := rfl
@[simp] theorem State.setSlotData_tariff (j : Nat) (x : Option (List Byte)) (i : Nat) (s : State) : (s.setSlotData j x).tariff i = s.tariff i := rfl
@[simp] theorem State.setSlotData_ringDef (j : Nat) (x : Option (List Byte)) (f : Nat) (s : State) : (s.setSlotData j x).ringDef f = s.ringDef f := rfl
@[simp] theorem State.setSlotData_windowDef (j : Nat) (x : Option (List Byte)) (d : Nat) (s : State) : (s.setSlotData j x).windowDef d = s.windowDef d := rfl
@[simp] theorem State.setSlotData_latch (j : Nat) (x : Option (List Byte)) (d : Nat) (s : State) : (s.setSlotData j x).latch d = s.latch d := rfl
@[simp] theorem State.setSlotData_foreignWrites (j : Nat) (x : Option (List Byte)) (f : Nat) (s : State) : (s.setSlotData j x).foreignWrites f = s.foreignWrites f := rfl
@[simp] theorem State.setSlotData_hold (j : Nat) (x : Option (List Byte)) (d : Nat) (s : State) : (s.setSlotData j x).hold d = s.hold d := rfl
@[simp] theorem State.setSlotData_ringDepth (j : Nat) (x : Option (List Byte)) (s : State) : (s.setSlotData j x).ringDepth = s.ringDepth := rfl
@[simp] theorem State.setSlotData_controlBase (j : Nat) (x : Option (List Byte)) (s : State) : (s.setSlotData j x).controlBase = s.controlBase := rfl
@[simp] theorem State.setSlotData_usable (j : Nat) (x : Option (List Byte)) (f : Nat) (s : State) : (s.setSlotData j x).usable f = s.usable f := rfl
@[simp] theorem State.setSlotData_lastSlot (j : Nat) (x : Option (List Byte)) (f : Nat) (s : State) : (s.setSlotData j x).lastSlot f = s.lastSlot f := rfl
@[simp] theorem State.setSlotData_available (j : Nat) (x : Option (List Byte)) (f q : Nat) (s : State) : (s.setSlotData j x).available f q = s.available f q := rfl
@[simp] theorem State.setSlotData_holderEntry (j : Nat) (x : Option (List Byte)) (d : Nat) (s : State) : (s.setSlotData j x).holderEntry d = s.holderEntry d := rfl
@[simp] theorem State.setSlotData_selectedFeed (j : Nat) (x : Option (List Byte)) (d : Nat) (s : State) : (s.setSlotData j x).selectedFeed d = s.selectedFeed d := rfl

@[simp] theorem State.setFeedRec_route (j : Nat) (x : Option FeedRecord) (d : Nat) (s : State) : (s.setFeedRec j x).route d = s.route d := rfl
@[simp] theorem State.setFeedRec_destParams (j : Nat) (x : Option FeedRecord) (d : Nat) (s : State) : (s.setFeedRec j x).destParams d = s.destParams d := rfl
@[simp] theorem State.setFeedRec_entry (j : Nat) (x : Option FeedRecord) (e : Nat) (s : State) : (s.setFeedRec j x).entry e = s.entry e := rfl
@[simp] theorem State.setFeedRec_feedParams (j : Nat) (x : Option FeedRecord) (f : Nat) (s : State) : (s.setFeedRec j x).feedParams f = s.feedParams f := rfl
@[simp] theorem State.setFeedRec_holder (j : Nat) (x : Option FeedRecord) (d : Nat) (s : State) : (s.setFeedRec j x).holder d = s.holder d := rfl
@[simp] theorem State.setFeedRec_grantQueue (j : Nat) (x : Option FeedRecord) (d : Nat) (s : State) : (s.setFeedRec j x).grantQueue d = s.grantQueue d := rfl
@[simp] theorem State.setFeedRec_delivery (j : Nat) (x : Option FeedRecord) (d : Nat) (s : State) : (s.setFeedRec j x).delivery d = s.delivery d := rfl
@[simp] theorem State.setFeedRec_tariff (j : Nat) (x : Option FeedRecord) (i : Nat) (s : State) : (s.setFeedRec j x).tariff i = s.tariff i := rfl
@[simp] theorem State.setFeedRec_ringDef (j : Nat) (x : Option FeedRecord) (f : Nat) (s : State) : (s.setFeedRec j x).ringDef f = s.ringDef f := rfl
@[simp] theorem State.setFeedRec_windowDef (j : Nat) (x : Option FeedRecord) (d : Nat) (s : State) : (s.setFeedRec j x).windowDef d = s.windowDef d := rfl
@[simp] theorem State.setFeedRec_latch (j : Nat) (x : Option FeedRecord) (d : Nat) (s : State) : (s.setFeedRec j x).latch d = s.latch d := rfl
@[simp] theorem State.setFeedRec_foreignWrites (j : Nat) (x : Option FeedRecord) (f : Nat) (s : State) : (s.setFeedRec j x).foreignWrites f = s.foreignWrites f := rfl
@[simp] theorem State.setFeedRec_hold (j : Nat) (x : Option FeedRecord) (d : Nat) (s : State) : (s.setFeedRec j x).hold d = s.hold d := rfl
@[simp] theorem State.setFeedRec_slotData (j : Nat) (x : Option FeedRecord) (n : Nat) (s : State) : (s.setFeedRec j x).slotData n = s.slotData n := rfl
@[simp] theorem State.setFeedRec_ringDepth (j : Nat) (x : Option FeedRecord) (s : State) : (s.setFeedRec j x).ringDepth = s.ringDepth := rfl
@[simp] theorem State.setFeedRec_controlBase (j : Nat) (x : Option FeedRecord) (s : State) : (s.setFeedRec j x).controlBase = s.controlBase := rfl
@[simp] theorem State.setFeedRec_holderEntry (j : Nat) (x : Option FeedRecord) (d : Nat) (s : State) : (s.setFeedRec j x).holderEntry d = s.holderEntry d := rfl
@[simp] theorem State.setFeedRec_selectedFeed (j : Nat) (x : Option FeedRecord) (d : Nat) (s : State) : (s.setFeedRec j x).selectedFeed d = s.selectedFeed d := rfl

@[simp] theorem State.setFeedParams_route (j : Nat) (x : FeedParams) (d : Nat) (s : State) : (s.setFeedParams j x).route d = s.route d := rfl
@[simp] theorem State.setFeedParams_destParams (j : Nat) (x : FeedParams) (d : Nat) (s : State) : (s.setFeedParams j x).destParams d = s.destParams d := rfl
@[simp] theorem State.setFeedParams_entry (j : Nat) (x : FeedParams) (e : Nat) (s : State) : (s.setFeedParams j x).entry e = s.entry e := rfl
@[simp] theorem State.setFeedParams_feedRec (j : Nat) (x : FeedParams) (f : Nat) (s : State) : (s.setFeedParams j x).feedRec f = s.feedRec f := rfl
@[simp] theorem State.setFeedParams_holder (j : Nat) (x : FeedParams) (d : Nat) (s : State) : (s.setFeedParams j x).holder d = s.holder d := rfl
@[simp] theorem State.setFeedParams_grantQueue (j : Nat) (x : FeedParams) (d : Nat) (s : State) : (s.setFeedParams j x).grantQueue d = s.grantQueue d := rfl
@[simp] theorem State.setFeedParams_delivery (j : Nat) (x : FeedParams) (d : Nat) (s : State) : (s.setFeedParams j x).delivery d = s.delivery d := rfl
@[simp] theorem State.setFeedParams_tariff (j : Nat) (x : FeedParams) (i : Nat) (s : State) : (s.setFeedParams j x).tariff i = s.tariff i := rfl
@[simp] theorem State.setFeedParams_ringDef (j : Nat) (x : FeedParams) (f : Nat) (s : State) : (s.setFeedParams j x).ringDef f = s.ringDef f := rfl
@[simp] theorem State.setFeedParams_windowDef (j : Nat) (x : FeedParams) (d : Nat) (s : State) : (s.setFeedParams j x).windowDef d = s.windowDef d := rfl
@[simp] theorem State.setFeedParams_latch (j : Nat) (x : FeedParams) (d : Nat) (s : State) : (s.setFeedParams j x).latch d = s.latch d := rfl
@[simp] theorem State.setFeedParams_foreignWrites (j : Nat) (x : FeedParams) (f : Nat) (s : State) : (s.setFeedParams j x).foreignWrites f = s.foreignWrites f := rfl
@[simp] theorem State.setFeedParams_hold (j : Nat) (x : FeedParams) (d : Nat) (s : State) : (s.setFeedParams j x).hold d = s.hold d := rfl
@[simp] theorem State.setFeedParams_slotData (j : Nat) (x : FeedParams) (n : Nat) (s : State) : (s.setFeedParams j x).slotData n = s.slotData n := rfl
@[simp] theorem State.setFeedParams_ringDepth (j : Nat) (x : FeedParams) (s : State) : (s.setFeedParams j x).ringDepth = s.ringDepth := rfl
@[simp] theorem State.setFeedParams_controlBase (j : Nat) (x : FeedParams) (s : State) : (s.setFeedParams j x).controlBase = s.controlBase := rfl
@[simp] theorem State.setFeedParams_usable (j : Nat) (x : FeedParams) (f : Nat) (s : State) : (s.setFeedParams j x).usable f = s.usable f := rfl
@[simp] theorem State.setFeedParams_lastSlot (j : Nat) (x : FeedParams) (f : Nat) (s : State) : (s.setFeedParams j x).lastSlot f = s.lastSlot f := rfl
@[simp] theorem State.setFeedParams_available (j : Nat) (x : FeedParams) (f q : Nat) (s : State) : (s.setFeedParams j x).available f q = s.available f q := rfl
@[simp] theorem State.setFeedParams_holderEntry (j : Nat) (x : FeedParams) (d : Nat) (s : State) : (s.setFeedParams j x).holderEntry d = s.holderEntry d := rfl
@[simp] theorem State.setFeedParams_selectedFeed (j : Nat) (x : FeedParams) (d : Nat) (s : State) : (s.setFeedParams j x).selectedFeed d = s.selectedFeed d := rfl

@[simp] theorem State.setEntry_route (j : Nat) (x : Entry) (d : Nat) (s : State) : (s.setEntry j x).route d = s.route d := rfl
@[simp] theorem State.setEntry_destParams (j : Nat) (x : Entry) (d : Nat) (s : State) : (s.setEntry j x).destParams d = s.destParams d := rfl
@[simp] theorem State.setEntry_feedRec (j : Nat) (x : Entry) (f : Nat) (s : State) : (s.setEntry j x).feedRec f = s.feedRec f := rfl
@[simp] theorem State.setEntry_feedParams (j : Nat) (x : Entry) (f : Nat) (s : State) : (s.setEntry j x).feedParams f = s.feedParams f := rfl
@[simp] theorem State.setEntry_holder (j : Nat) (x : Entry) (d : Nat) (s : State) : (s.setEntry j x).holder d = s.holder d := rfl
@[simp] theorem State.setEntry_grantQueue (j : Nat) (x : Entry) (d : Nat) (s : State) : (s.setEntry j x).grantQueue d = s.grantQueue d := rfl
@[simp] theorem State.setEntry_delivery (j : Nat) (x : Entry) (d : Nat) (s : State) : (s.setEntry j x).delivery d = s.delivery d := rfl
@[simp] theorem State.setEntry_tariff (j : Nat) (x : Entry) (i : Nat) (s : State) : (s.setEntry j x).tariff i = s.tariff i := rfl
@[simp] theorem State.setEntry_ringDef (j : Nat) (x : Entry) (f : Nat) (s : State) : (s.setEntry j x).ringDef f = s.ringDef f := rfl
@[simp] theorem State.setEntry_windowDef (j : Nat) (x : Entry) (d : Nat) (s : State) : (s.setEntry j x).windowDef d = s.windowDef d := rfl
@[simp] theorem State.setEntry_latch (j : Nat) (x : Entry) (d : Nat) (s : State) : (s.setEntry j x).latch d = s.latch d := rfl
@[simp] theorem State.setEntry_foreignWrites (j : Nat) (x : Entry) (f : Nat) (s : State) : (s.setEntry j x).foreignWrites f = s.foreignWrites f := rfl
@[simp] theorem State.setEntry_hold (j : Nat) (x : Entry) (d : Nat) (s : State) : (s.setEntry j x).hold d = s.hold d := rfl
@[simp] theorem State.setEntry_slotData (j : Nat) (x : Entry) (n : Nat) (s : State) : (s.setEntry j x).slotData n = s.slotData n := rfl
@[simp] theorem State.setEntry_ringDepth (j : Nat) (x : Entry) (s : State) : (s.setEntry j x).ringDepth = s.ringDepth := rfl
@[simp] theorem State.setEntry_controlBase (j : Nat) (x : Entry) (s : State) : (s.setEntry j x).controlBase = s.controlBase := rfl
@[simp] theorem State.setEntry_usable (j : Nat) (x : Entry) (f : Nat) (s : State) : (s.setEntry j x).usable f = s.usable f := rfl
@[simp] theorem State.setEntry_lastSlot (j : Nat) (x : Entry) (f : Nat) (s : State) : (s.setEntry j x).lastSlot f = s.lastSlot f := rfl
@[simp] theorem State.setEntry_available (j : Nat) (x : Entry) (f q : Nat) (s : State) : (s.setEntry j x).available f q = s.available f q := rfl

@[simp] theorem State.setHolder_route (j : Nat) (x : Option Nat) (d : Nat) (s : State) : (s.setHolder j x).route d = s.route d := rfl
@[simp] theorem State.setHolder_destParams (j : Nat) (x : Option Nat) (d : Nat) (s : State) : (s.setHolder j x).destParams d = s.destParams d := rfl
@[simp] theorem State.setHolder_entry (j : Nat) (x : Option Nat) (e : Nat) (s : State) : (s.setHolder j x).entry e = s.entry e := rfl
@[simp] theorem State.setHolder_feedRec (j : Nat) (x : Option Nat) (f : Nat) (s : State) : (s.setHolder j x).feedRec f = s.feedRec f := rfl
@[simp] theorem State.setHolder_feedParams (j : Nat) (x : Option Nat) (f : Nat) (s : State) : (s.setHolder j x).feedParams f = s.feedParams f := rfl
@[simp] theorem State.setHolder_grantQueue (j : Nat) (x : Option Nat) (d : Nat) (s : State) : (s.setHolder j x).grantQueue d = s.grantQueue d := rfl
@[simp] theorem State.setHolder_delivery (j : Nat) (x : Option Nat) (d : Nat) (s : State) : (s.setHolder j x).delivery d = s.delivery d := rfl
@[simp] theorem State.setHolder_tariff (j : Nat) (x : Option Nat) (i : Nat) (s : State) : (s.setHolder j x).tariff i = s.tariff i := rfl
@[simp] theorem State.setHolder_ringDef (j : Nat) (x : Option Nat) (f : Nat) (s : State) : (s.setHolder j x).ringDef f = s.ringDef f := rfl
@[simp] theorem State.setHolder_windowDef (j : Nat) (x : Option Nat) (d : Nat) (s : State) : (s.setHolder j x).windowDef d = s.windowDef d := rfl
@[simp] theorem State.setHolder_latch (j : Nat) (x : Option Nat) (d : Nat) (s : State) : (s.setHolder j x).latch d = s.latch d := rfl
@[simp] theorem State.setHolder_foreignWrites (j : Nat) (x : Option Nat) (f : Nat) (s : State) : (s.setHolder j x).foreignWrites f = s.foreignWrites f := rfl
@[simp] theorem State.setHolder_hold (j : Nat) (x : Option Nat) (d : Nat) (s : State) : (s.setHolder j x).hold d = s.hold d := rfl
@[simp] theorem State.setHolder_slotData (j : Nat) (x : Option Nat) (n : Nat) (s : State) : (s.setHolder j x).slotData n = s.slotData n := rfl
@[simp] theorem State.setHolder_ringDepth (j : Nat) (x : Option Nat) (s : State) : (s.setHolder j x).ringDepth = s.ringDepth := rfl
@[simp] theorem State.setHolder_controlBase (j : Nat) (x : Option Nat) (s : State) : (s.setHolder j x).controlBase = s.controlBase := rfl
@[simp] theorem State.setHolder_usable (j : Nat) (x : Option Nat) (f : Nat) (s : State) : (s.setHolder j x).usable f = s.usable f := rfl
@[simp] theorem State.setHolder_lastSlot (j : Nat) (x : Option Nat) (f : Nat) (s : State) : (s.setHolder j x).lastSlot f = s.lastSlot f := rfl
@[simp] theorem State.setHolder_available (j : Nat) (x : Option Nat) (f q : Nat) (s : State) : (s.setHolder j x).available f q = s.available f q := rfl

@[simp] theorem State.setGrantQueue_route (j : Nat) (x : List Nat) (d : Nat) (s : State) : (s.setGrantQueue j x).route d = s.route d := rfl
@[simp] theorem State.setGrantQueue_destParams (j : Nat) (x : List Nat) (d : Nat) (s : State) : (s.setGrantQueue j x).destParams d = s.destParams d := rfl
@[simp] theorem State.setGrantQueue_entry (j : Nat) (x : List Nat) (e : Nat) (s : State) : (s.setGrantQueue j x).entry e = s.entry e := rfl
@[simp] theorem State.setGrantQueue_feedRec (j : Nat) (x : List Nat) (f : Nat) (s : State) : (s.setGrantQueue j x).feedRec f = s.feedRec f := rfl
@[simp] theorem State.setGrantQueue_feedParams (j : Nat) (x : List Nat) (f : Nat) (s : State) : (s.setGrantQueue j x).feedParams f = s.feedParams f := rfl
@[simp] theorem State.setGrantQueue_holder (j : Nat) (x : List Nat) (d : Nat) (s : State) : (s.setGrantQueue j x).holder d = s.holder d := rfl
@[simp] theorem State.setGrantQueue_delivery (j : Nat) (x : List Nat) (d : Nat) (s : State) : (s.setGrantQueue j x).delivery d = s.delivery d := rfl
@[simp] theorem State.setGrantQueue_tariff (j : Nat) (x : List Nat) (i : Nat) (s : State) : (s.setGrantQueue j x).tariff i = s.tariff i := rfl
@[simp] theorem State.setGrantQueue_ringDef (j : Nat) (x : List Nat) (f : Nat) (s : State) : (s.setGrantQueue j x).ringDef f = s.ringDef f := rfl
@[simp] theorem State.setGrantQueue_windowDef (j : Nat) (x : List Nat) (d : Nat) (s : State) : (s.setGrantQueue j x).windowDef d = s.windowDef d := rfl
@[simp] theorem State.setGrantQueue_latch (j : Nat) (x : List Nat) (d : Nat) (s : State) : (s.setGrantQueue j x).latch d = s.latch d := rfl
@[simp] theorem State.setGrantQueue_foreignWrites (j : Nat) (x : List Nat) (f : Nat) (s : State) : (s.setGrantQueue j x).foreignWrites f = s.foreignWrites f := rfl
@[simp] theorem State.setGrantQueue_hold (j : Nat) (x : List Nat) (d : Nat) (s : State) : (s.setGrantQueue j x).hold d = s.hold d := rfl
@[simp] theorem State.setGrantQueue_slotData (j : Nat) (x : List Nat) (n : Nat) (s : State) : (s.setGrantQueue j x).slotData n = s.slotData n := rfl
@[simp] theorem State.setGrantQueue_ringDepth (j : Nat) (x : List Nat) (s : State) : (s.setGrantQueue j x).ringDepth = s.ringDepth := rfl
@[simp] theorem State.setGrantQueue_controlBase (j : Nat) (x : List Nat) (s : State) : (s.setGrantQueue j x).controlBase = s.controlBase := rfl
@[simp] theorem State.setGrantQueue_usable (j : Nat) (x : List Nat) (f : Nat) (s : State) : (s.setGrantQueue j x).usable f = s.usable f := rfl
@[simp] theorem State.setGrantQueue_lastSlot (j : Nat) (x : List Nat) (f : Nat) (s : State) : (s.setGrantQueue j x).lastSlot f = s.lastSlot f := rfl
@[simp] theorem State.setGrantQueue_available (j : Nat) (x : List Nat) (f q : Nat) (s : State) : (s.setGrantQueue j x).available f q = s.available f q := rfl
@[simp] theorem State.setGrantQueue_holderEntry (j : Nat) (x : List Nat) (d : Nat) (s : State) : (s.setGrantQueue j x).holderEntry d = s.holderEntry d := rfl
@[simp] theorem State.setGrantQueue_selectedFeed (j : Nat) (x : List Nat) (d : Nat) (s : State) : (s.setGrantQueue j x).selectedFeed d = s.selectedFeed d := rfl

@[simp] theorem State.setRoute_destParams (j : Nat) (x : Option Route) (d : Nat) (s : State) : (s.setRoute j x).destParams d = s.destParams d := rfl
@[simp] theorem State.setRoute_entry (j : Nat) (x : Option Route) (e : Nat) (s : State) : (s.setRoute j x).entry e = s.entry e := rfl
@[simp] theorem State.setRoute_feedRec (j : Nat) (x : Option Route) (f : Nat) (s : State) : (s.setRoute j x).feedRec f = s.feedRec f := rfl
@[simp] theorem State.setRoute_feedParams (j : Nat) (x : Option Route) (f : Nat) (s : State) : (s.setRoute j x).feedParams f = s.feedParams f := rfl
@[simp] theorem State.setRoute_holder (j : Nat) (x : Option Route) (d : Nat) (s : State) : (s.setRoute j x).holder d = s.holder d := rfl
@[simp] theorem State.setRoute_grantQueue (j : Nat) (x : Option Route) (d : Nat) (s : State) : (s.setRoute j x).grantQueue d = s.grantQueue d := rfl
@[simp] theorem State.setRoute_delivery (j : Nat) (x : Option Route) (d : Nat) (s : State) : (s.setRoute j x).delivery d = s.delivery d := rfl
@[simp] theorem State.setRoute_tariff (j : Nat) (x : Option Route) (i : Nat) (s : State) : (s.setRoute j x).tariff i = s.tariff i := rfl
@[simp] theorem State.setRoute_ringDef (j : Nat) (x : Option Route) (f : Nat) (s : State) : (s.setRoute j x).ringDef f = s.ringDef f := rfl
@[simp] theorem State.setRoute_windowDef (j : Nat) (x : Option Route) (d : Nat) (s : State) : (s.setRoute j x).windowDef d = s.windowDef d := rfl
@[simp] theorem State.setRoute_latch (j : Nat) (x : Option Route) (d : Nat) (s : State) : (s.setRoute j x).latch d = s.latch d := rfl
@[simp] theorem State.setRoute_foreignWrites (j : Nat) (x : Option Route) (f : Nat) (s : State) : (s.setRoute j x).foreignWrites f = s.foreignWrites f := rfl
@[simp] theorem State.setRoute_hold (j : Nat) (x : Option Route) (d : Nat) (s : State) : (s.setRoute j x).hold d = s.hold d := rfl
@[simp] theorem State.setRoute_slotData (j : Nat) (x : Option Route) (n : Nat) (s : State) : (s.setRoute j x).slotData n = s.slotData n := rfl
@[simp] theorem State.setRoute_ringDepth (j : Nat) (x : Option Route) (s : State) : (s.setRoute j x).ringDepth = s.ringDepth := rfl
@[simp] theorem State.setRoute_controlBase (j : Nat) (x : Option Route) (s : State) : (s.setRoute j x).controlBase = s.controlBase := rfl
@[simp] theorem State.setRoute_usable (j : Nat) (x : Option Route) (f : Nat) (s : State) : (s.setRoute j x).usable f = s.usable f := rfl
@[simp] theorem State.setRoute_lastSlot (j : Nat) (x : Option Route) (f : Nat) (s : State) : (s.setRoute j x).lastSlot f = s.lastSlot f := rfl
@[simp] theorem State.setRoute_available (j : Nat) (x : Option Route) (f q : Nat) (s : State) : (s.setRoute j x).available f q = s.available f q := rfl
@[simp] theorem State.setRoute_holderEntry (j : Nat) (x : Option Route) (d : Nat) (s : State) : (s.setRoute j x).holderEntry d = s.holderEntry d := rfl
@[simp] theorem State.setRoute_selectedFeed (j : Nat) (x : Option Route) (d : Nat) (s : State) : (s.setRoute j x).selectedFeed d = s.selectedFeed d := rfl

@[simp] theorem State.setDestParams_route (j : Nat) (x : DestParams) (d : Nat) (s : State) : (s.setDestParams j x).route d = s.route d := rfl
@[simp] theorem State.setDestParams_entry (j : Nat) (x : DestParams) (e : Nat) (s : State) : (s.setDestParams j x).entry e = s.entry e := rfl
@[simp] theorem State.setDestParams_feedRec (j : Nat) (x : DestParams) (f : Nat) (s : State) : (s.setDestParams j x).feedRec f = s.feedRec f := rfl
@[simp] theorem State.setDestParams_feedParams (j : Nat) (x : DestParams) (f : Nat) (s : State) : (s.setDestParams j x).feedParams f = s.feedParams f := rfl
@[simp] theorem State.setDestParams_holder (j : Nat) (x : DestParams) (d : Nat) (s : State) : (s.setDestParams j x).holder d = s.holder d := rfl
@[simp] theorem State.setDestParams_grantQueue (j : Nat) (x : DestParams) (d : Nat) (s : State) : (s.setDestParams j x).grantQueue d = s.grantQueue d := rfl
@[simp] theorem State.setDestParams_delivery (j : Nat) (x : DestParams) (d : Nat) (s : State) : (s.setDestParams j x).delivery d = s.delivery d := rfl
@[simp] theorem State.setDestParams_tariff (j : Nat) (x : DestParams) (i : Nat) (s : State) : (s.setDestParams j x).tariff i = s.tariff i := rfl
@[simp] theorem State.setDestParams_ringDef (j : Nat) (x : DestParams) (f : Nat) (s : State) : (s.setDestParams j x).ringDef f = s.ringDef f := rfl
@[simp] theorem State.setDestParams_windowDef (j : Nat) (x : DestParams) (d : Nat) (s : State) : (s.setDestParams j x).windowDef d = s.windowDef d := rfl
@[simp] theorem State.setDestParams_latch (j : Nat) (x : DestParams) (d : Nat) (s : State) : (s.setDestParams j x).latch d = s.latch d := rfl
@[simp] theorem State.setDestParams_foreignWrites (j : Nat) (x : DestParams) (f : Nat) (s : State) : (s.setDestParams j x).foreignWrites f = s.foreignWrites f := rfl
@[simp] theorem State.setDestParams_hold (j : Nat) (x : DestParams) (d : Nat) (s : State) : (s.setDestParams j x).hold d = s.hold d := rfl
@[simp] theorem State.setDestParams_slotData (j : Nat) (x : DestParams) (n : Nat) (s : State) : (s.setDestParams j x).slotData n = s.slotData n := rfl
@[simp] theorem State.setDestParams_ringDepth (j : Nat) (x : DestParams) (s : State) : (s.setDestParams j x).ringDepth = s.ringDepth := rfl
@[simp] theorem State.setDestParams_controlBase (j : Nat) (x : DestParams) (s : State) : (s.setDestParams j x).controlBase = s.controlBase := rfl
@[simp] theorem State.setDestParams_usable (j : Nat) (x : DestParams) (f : Nat) (s : State) : (s.setDestParams j x).usable f = s.usable f := rfl
@[simp] theorem State.setDestParams_lastSlot (j : Nat) (x : DestParams) (f : Nat) (s : State) : (s.setDestParams j x).lastSlot f = s.lastSlot f := rfl
@[simp] theorem State.setDestParams_available (j : Nat) (x : DestParams) (f q : Nat) (s : State) : (s.setDestParams j x).available f q = s.available f q := rfl
@[simp] theorem State.setDestParams_holderEntry (j : Nat) (x : DestParams) (d : Nat) (s : State) : (s.setDestParams j x).holderEntry d = s.holderEntry d := rfl
@[simp] theorem State.setDestParams_selectedFeed (j : Nat) (x : DestParams) (d : Nat) (s : State) : (s.setDestParams j x).selectedFeed d = s.selectedFeed d := rfl

@[simp] theorem State.setDelivery_route (j : Nat) (x : Delivery) (d : Nat) (s : State) : (s.setDelivery j x).route d = s.route d := rfl
@[simp] theorem State.setDelivery_destParams (j : Nat) (x : Delivery) (d : Nat) (s : State) : (s.setDelivery j x).destParams d = s.destParams d := rfl
@[simp] theorem State.setDelivery_entry (j : Nat) (x : Delivery) (e : Nat) (s : State) : (s.setDelivery j x).entry e = s.entry e := rfl
@[simp] theorem State.setDelivery_feedRec (j : Nat) (x : Delivery) (f : Nat) (s : State) : (s.setDelivery j x).feedRec f = s.feedRec f := rfl
@[simp] theorem State.setDelivery_feedParams (j : Nat) (x : Delivery) (f : Nat) (s : State) : (s.setDelivery j x).feedParams f = s.feedParams f := rfl
@[simp] theorem State.setDelivery_holder (j : Nat) (x : Delivery) (d : Nat) (s : State) : (s.setDelivery j x).holder d = s.holder d := rfl
@[simp] theorem State.setDelivery_grantQueue (j : Nat) (x : Delivery) (d : Nat) (s : State) : (s.setDelivery j x).grantQueue d = s.grantQueue d := rfl
@[simp] theorem State.setDelivery_tariff (j : Nat) (x : Delivery) (i : Nat) (s : State) : (s.setDelivery j x).tariff i = s.tariff i := rfl
@[simp] theorem State.setDelivery_ringDef (j : Nat) (x : Delivery) (f : Nat) (s : State) : (s.setDelivery j x).ringDef f = s.ringDef f := rfl
@[simp] theorem State.setDelivery_windowDef (j : Nat) (x : Delivery) (d : Nat) (s : State) : (s.setDelivery j x).windowDef d = s.windowDef d := rfl
@[simp] theorem State.setDelivery_latch (j : Nat) (x : Delivery) (d : Nat) (s : State) : (s.setDelivery j x).latch d = s.latch d := rfl
@[simp] theorem State.setDelivery_foreignWrites (j : Nat) (x : Delivery) (f : Nat) (s : State) : (s.setDelivery j x).foreignWrites f = s.foreignWrites f := rfl
@[simp] theorem State.setDelivery_hold (j : Nat) (x : Delivery) (d : Nat) (s : State) : (s.setDelivery j x).hold d = s.hold d := rfl
@[simp] theorem State.setDelivery_slotData (j : Nat) (x : Delivery) (n : Nat) (s : State) : (s.setDelivery j x).slotData n = s.slotData n := rfl
@[simp] theorem State.setDelivery_ringDepth (j : Nat) (x : Delivery) (s : State) : (s.setDelivery j x).ringDepth = s.ringDepth := rfl
@[simp] theorem State.setDelivery_controlBase (j : Nat) (x : Delivery) (s : State) : (s.setDelivery j x).controlBase = s.controlBase := rfl
@[simp] theorem State.setDelivery_usable (j : Nat) (x : Delivery) (f : Nat) (s : State) : (s.setDelivery j x).usable f = s.usable f := rfl
@[simp] theorem State.setDelivery_lastSlot (j : Nat) (x : Delivery) (f : Nat) (s : State) : (s.setDelivery j x).lastSlot f = s.lastSlot f := rfl
@[simp] theorem State.setDelivery_available (j : Nat) (x : Delivery) (f q : Nat) (s : State) : (s.setDelivery j x).available f q = s.available f q := rfl
@[simp] theorem State.setDelivery_holderEntry (j : Nat) (x : Delivery) (d : Nat) (s : State) : (s.setDelivery j x).holderEntry d = s.holderEntry d := rfl
@[simp] theorem State.setDelivery_selectedFeed (j : Nat) (x : Delivery) (d : Nat) (s : State) : (s.setDelivery j x).selectedFeed d = s.selectedFeed d := rfl

@[simp] theorem State.setTariff_route (j : Nat) (x : Option Tariff) (d : Nat) (s : State) : (s.setTariff j x).route d = s.route d := rfl
@[simp] theorem State.setTariff_destParams (j : Nat) (x : Option Tariff) (d : Nat) (s : State) : (s.setTariff j x).destParams d = s.destParams d := rfl
@[simp] theorem State.setTariff_entry (j : Nat) (x : Option Tariff) (e : Nat) (s : State) : (s.setTariff j x).entry e = s.entry e := rfl
@[simp] theorem State.setTariff_feedRec (j : Nat) (x : Option Tariff) (f : Nat) (s : State) : (s.setTariff j x).feedRec f = s.feedRec f := rfl
@[simp] theorem State.setTariff_feedParams (j : Nat) (x : Option Tariff) (f : Nat) (s : State) : (s.setTariff j x).feedParams f = s.feedParams f := rfl
@[simp] theorem State.setTariff_holder (j : Nat) (x : Option Tariff) (d : Nat) (s : State) : (s.setTariff j x).holder d = s.holder d := rfl
@[simp] theorem State.setTariff_grantQueue (j : Nat) (x : Option Tariff) (d : Nat) (s : State) : (s.setTariff j x).grantQueue d = s.grantQueue d := rfl
@[simp] theorem State.setTariff_delivery (j : Nat) (x : Option Tariff) (d : Nat) (s : State) : (s.setTariff j x).delivery d = s.delivery d := rfl
@[simp] theorem State.setTariff_ringDef (j : Nat) (x : Option Tariff) (f : Nat) (s : State) : (s.setTariff j x).ringDef f = s.ringDef f := rfl
@[simp] theorem State.setTariff_windowDef (j : Nat) (x : Option Tariff) (d : Nat) (s : State) : (s.setTariff j x).windowDef d = s.windowDef d := rfl
@[simp] theorem State.setTariff_latch (j : Nat) (x : Option Tariff) (d : Nat) (s : State) : (s.setTariff j x).latch d = s.latch d := rfl
@[simp] theorem State.setTariff_foreignWrites (j : Nat) (x : Option Tariff) (f : Nat) (s : State) : (s.setTariff j x).foreignWrites f = s.foreignWrites f := rfl
@[simp] theorem State.setTariff_hold (j : Nat) (x : Option Tariff) (d : Nat) (s : State) : (s.setTariff j x).hold d = s.hold d := rfl
@[simp] theorem State.setTariff_slotData (j : Nat) (x : Option Tariff) (n : Nat) (s : State) : (s.setTariff j x).slotData n = s.slotData n := rfl
@[simp] theorem State.setTariff_ringDepth (j : Nat) (x : Option Tariff) (s : State) : (s.setTariff j x).ringDepth = s.ringDepth := rfl
@[simp] theorem State.setTariff_controlBase (j : Nat) (x : Option Tariff) (s : State) : (s.setTariff j x).controlBase = s.controlBase := rfl
@[simp] theorem State.setTariff_usable (j : Nat) (x : Option Tariff) (f : Nat) (s : State) : (s.setTariff j x).usable f = s.usable f := rfl
@[simp] theorem State.setTariff_lastSlot (j : Nat) (x : Option Tariff) (f : Nat) (s : State) : (s.setTariff j x).lastSlot f = s.lastSlot f := rfl
@[simp] theorem State.setTariff_available (j : Nat) (x : Option Tariff) (f q : Nat) (s : State) : (s.setTariff j x).available f q = s.available f q := rfl
@[simp] theorem State.setTariff_holderEntry (j : Nat) (x : Option Tariff) (d : Nat) (s : State) : (s.setTariff j x).holderEntry d = s.holderEntry d := rfl
@[simp] theorem State.setTariff_selectedFeed (j : Nat) (x : Option Tariff) (d : Nat) (s : State) : (s.setTariff j x).selectedFeed d = s.selectedFeed d := rfl

@[simp] theorem modRoute_lpu (j : Nat) (g : Route → Route) (s : State) : (modRoute j g s).lpu = s.lpu := by unfold modRoute; split <;> rfl
@[simp] theorem modRoute_rw (j : Nat) (g : Route → Route) (s : State) : (modRoute j g s).rw = s.rw := by unfold modRoute; split <;> rfl
@[simp] theorem modRoute_cu (j : Nat) (g : Route → Route) (s : State) : (modRoute j g s).cu = s.cu := by unfold modRoute; split <;> rfl
@[simp] theorem modRoute_tb (j : Nat) (g : Route → Route) (s : State) : (modRoute j g s).tb = s.tb := by unfold modRoute; split <;> rfl
@[simp] theorem modRoute_fm (j : Nat) (g : Route → Route) (s : State) : (modRoute j g s).fm = s.fm := by unfold modRoute; split <;> rfl
@[simp] theorem modRoute_bt (j : Nat) (g : Route → Route) (s : State) : (modRoute j g s).bt = s.bt := by unfold modRoute; split <;> rfl
@[simp] theorem modRoute_ga (j : Nat) (g : Route → Route) (s : State) : (modRoute j g s).ga = s.ga := by unfold modRoute; split <;> rfl
@[simp] theorem modRoute_dm (j : Nat) (g : Route → Route) (s : State) : (modRoute j g s).dm = s.dm := by unfold modRoute; split <;> rfl
@[simp] theorem modRoute_mu (j : Nat) (g : Route → Route) (s : State) : (modRoute j g s).mu = s.mu := by unfold modRoute; split <;> rfl
@[simp] theorem modRoute_pending (j : Nat) (g : Route → Route) (s : State) : (modRoute j g s).pending = s.pending := by unfold modRoute; split <;> rfl
@[simp] theorem modRoute_destParams (j : Nat) (g : Route → Route) (d : Nat) (s : State) : (modRoute j g s).destParams d = s.destParams d := by unfold modRoute; split <;> rfl
@[simp] theorem modRoute_entry (j : Nat) (g : Route → Route) (e : Nat) (s : State) : (modRoute j g s).entry e = s.entry e := by unfold modRoute; split <;> rfl
@[simp] theorem modRoute_feedRec (j : Nat) (g : Route → Route) (f : Nat) (s : State) : (modRoute j g s).feedRec f = s.feedRec f := by unfold modRoute; split <;> rfl
@[simp] theorem modRoute_feedParams (j : Nat) (g : Route → Route) (f : Nat) (s : State) : (modRoute j g s).feedParams f = s.feedParams f := by unfold modRoute; split <;> rfl
@[simp] theorem modRoute_holder (j : Nat) (g : Route → Route) (d : Nat) (s : State) : (modRoute j g s).holder d = s.holder d := by unfold modRoute; split <;> rfl
@[simp] theorem modRoute_grantQueue (j : Nat) (g : Route → Route) (d : Nat) (s : State) : (modRoute j g s).grantQueue d = s.grantQueue d := by unfold modRoute; split <;> rfl
@[simp] theorem modRoute_delivery (j : Nat) (g : Route → Route) (d : Nat) (s : State) : (modRoute j g s).delivery d = s.delivery d := by unfold modRoute; split <;> rfl
@[simp] theorem modRoute_tariff (j : Nat) (g : Route → Route) (i : Nat) (s : State) : (modRoute j g s).tariff i = s.tariff i := by unfold modRoute; split <;> rfl
@[simp] theorem modRoute_ringDef (j : Nat) (g : Route → Route) (f : Nat) (s : State) : (modRoute j g s).ringDef f = s.ringDef f := by unfold modRoute; split <;> rfl
@[simp] theorem modRoute_windowDef (j : Nat) (g : Route → Route) (d : Nat) (s : State) : (modRoute j g s).windowDef d = s.windowDef d := by unfold modRoute; split <;> rfl
@[simp] theorem modRoute_latch (j : Nat) (g : Route → Route) (d : Nat) (s : State) : (modRoute j g s).latch d = s.latch d := by unfold modRoute; split <;> rfl
@[simp] theorem modRoute_foreignWrites (j : Nat) (g : Route → Route) (f : Nat) (s : State) : (modRoute j g s).foreignWrites f = s.foreignWrites f := by unfold modRoute; split <;> rfl
@[simp] theorem modRoute_hold (j : Nat) (g : Route → Route) (d : Nat) (s : State) : (modRoute j g s).hold d = s.hold d := by unfold modRoute; split <;> rfl
@[simp] theorem modRoute_slotData (j : Nat) (g : Route → Route) (n : Nat) (s : State) : (modRoute j g s).slotData n = s.slotData n := by unfold modRoute; split <;> rfl
@[simp] theorem modRoute_ringDepth (j : Nat) (g : Route → Route) (s : State) : (modRoute j g s).ringDepth = s.ringDepth := by unfold modRoute; split <;> rfl
@[simp] theorem modRoute_controlBase (j : Nat) (g : Route → Route) (s : State) : (modRoute j g s).controlBase = s.controlBase := by unfold modRoute; split <;> rfl
@[simp] theorem modRoute_usable (j : Nat) (g : Route → Route) (f : Nat) (s : State) : (modRoute j g s).usable f = s.usable f := by unfold modRoute; split <;> rfl
@[simp] theorem modRoute_lastSlot (j : Nat) (g : Route → Route) (f : Nat) (s : State) : (modRoute j g s).lastSlot f = s.lastSlot f := by unfold modRoute; split <;> rfl
@[simp] theorem modRoute_available (j : Nat) (g : Route → Route) (f q : Nat) (s : State) : (modRoute j g s).available f q = s.available f q := by unfold modRoute; split <;> rfl
@[simp] theorem modRoute_holderEntry (j : Nat) (g : Route → Route) (d : Nat) (s : State) : (modRoute j g s).holderEntry d = s.holderEntry d := by unfold modRoute; split <;> rfl
@[simp] theorem modRoute_selectedFeed (j : Nat) (g : Route → Route) (d : Nat) (s : State) : (modRoute j g s).selectedFeed d = s.selectedFeed d := by unfold modRoute; split <;> rfl
@[simp] theorem modRoute_route_self (j : Nat) (g : Route → Route) (s : State) : (modRoute j g s).route j = (s.route j).map g := by
  unfold modRoute; split <;> simp_all
theorem modRoute_route_of_ne {i j : Nat} (h : i ≠ j) (g : Route → Route) (s : State) : (modRoute j g s).route i = s.route i := by
  unfold modRoute; split
  · rfl
  · exact State.route_setRoute_of_ne s _ h

@[simp] theorem modFeed_lpu (j : Nat) (g : FeedRecord → FeedRecord) (s : State) : (modFeed j g s).lpu = s.lpu := by unfold modFeed; split <;> rfl
@[simp] theorem modFeed_rw (j : Nat) (g : FeedRecord → FeedRecord) (s : State) : (modFeed j g s).rw = s.rw := by unfold modFeed; split <;> rfl
@[simp] theorem modFeed_cu (j : Nat) (g : FeedRecord → FeedRecord) (s : State) : (modFeed j g s).cu = s.cu := by unfold modFeed; split <;> rfl
@[simp] theorem modFeed_tb (j : Nat) (g : FeedRecord → FeedRecord) (s : State) : (modFeed j g s).tb = s.tb := by unfold modFeed; split <;> rfl
@[simp] theorem modFeed_bt (j : Nat) (g : FeedRecord → FeedRecord) (s : State) : (modFeed j g s).bt = s.bt := by unfold modFeed; split <;> rfl
@[simp] theorem modFeed_ga (j : Nat) (g : FeedRecord → FeedRecord) (s : State) : (modFeed j g s).ga = s.ga := by unfold modFeed; split <;> rfl
@[simp] theorem modFeed_ru (j : Nat) (g : FeedRecord → FeedRecord) (s : State) : (modFeed j g s).ru = s.ru := by unfold modFeed; split <;> rfl
@[simp] theorem modFeed_dm (j : Nat) (g : FeedRecord → FeedRecord) (s : State) : (modFeed j g s).dm = s.dm := by unfold modFeed; split <;> rfl
@[simp] theorem modFeed_mu (j : Nat) (g : FeedRecord → FeedRecord) (s : State) : (modFeed j g s).mu = s.mu := by unfold modFeed; split <;> rfl
@[simp] theorem modFeed_pending (j : Nat) (g : FeedRecord → FeedRecord) (s : State) : (modFeed j g s).pending = s.pending := by unfold modFeed; split <;> rfl
@[simp] theorem modFeed_route (j : Nat) (g : FeedRecord → FeedRecord) (d : Nat) (s : State) : (modFeed j g s).route d = s.route d := by unfold modFeed; split <;> rfl
@[simp] theorem modFeed_destParams (j : Nat) (g : FeedRecord → FeedRecord) (d : Nat) (s : State) : (modFeed j g s).destParams d = s.destParams d := by unfold modFeed; split <;> rfl
@[simp] theorem modFeed_entry (j : Nat) (g : FeedRecord → FeedRecord) (e : Nat) (s : State) : (modFeed j g s).entry e = s.entry e := by unfold modFeed; split <;> rfl
@[simp] theorem modFeed_feedParams (j : Nat) (g : FeedRecord → FeedRecord) (f : Nat) (s : State) : (modFeed j g s).feedParams f = s.feedParams f := by unfold modFeed; split <;> rfl
@[simp] theorem modFeed_holder (j : Nat) (g : FeedRecord → FeedRecord) (d : Nat) (s : State) : (modFeed j g s).holder d = s.holder d := by unfold modFeed; split <;> rfl
@[simp] theorem modFeed_grantQueue (j : Nat) (g : FeedRecord → FeedRecord) (d : Nat) (s : State) : (modFeed j g s).grantQueue d = s.grantQueue d := by unfold modFeed; split <;> rfl
@[simp] theorem modFeed_delivery (j : Nat) (g : FeedRecord → FeedRecord) (d : Nat) (s : State) : (modFeed j g s).delivery d = s.delivery d := by unfold modFeed; split <;> rfl
@[simp] theorem modFeed_tariff (j : Nat) (g : FeedRecord → FeedRecord) (i : Nat) (s : State) : (modFeed j g s).tariff i = s.tariff i := by unfold modFeed; split <;> rfl
@[simp] theorem modFeed_ringDef (j : Nat) (g : FeedRecord → FeedRecord) (f : Nat) (s : State) : (modFeed j g s).ringDef f = s.ringDef f := by unfold modFeed; split <;> rfl
@[simp] theorem modFeed_windowDef (j : Nat) (g : FeedRecord → FeedRecord) (d : Nat) (s : State) : (modFeed j g s).windowDef d = s.windowDef d := by unfold modFeed; split <;> rfl
@[simp] theorem modFeed_latch (j : Nat) (g : FeedRecord → FeedRecord) (d : Nat) (s : State) : (modFeed j g s).latch d = s.latch d := by unfold modFeed; split <;> rfl
@[simp] theorem modFeed_foreignWrites (j : Nat) (g : FeedRecord → FeedRecord) (f : Nat) (s : State) : (modFeed j g s).foreignWrites f = s.foreignWrites f := by unfold modFeed; split <;> rfl
@[simp] theorem modFeed_hold (j : Nat) (g : FeedRecord → FeedRecord) (d : Nat) (s : State) : (modFeed j g s).hold d = s.hold d := by unfold modFeed; split <;> rfl
@[simp] theorem modFeed_slotData (j : Nat) (g : FeedRecord → FeedRecord) (n : Nat) (s : State) : (modFeed j g s).slotData n = s.slotData n := by unfold modFeed; split <;> rfl
@[simp] theorem modFeed_ringDepth (j : Nat) (g : FeedRecord → FeedRecord) (s : State) : (modFeed j g s).ringDepth = s.ringDepth := by unfold modFeed; split <;> rfl
@[simp] theorem modFeed_controlBase (j : Nat) (g : FeedRecord → FeedRecord) (s : State) : (modFeed j g s).controlBase = s.controlBase := by unfold modFeed; split <;> rfl
@[simp] theorem modFeed_holderEntry (j : Nat) (g : FeedRecord → FeedRecord) (d : Nat) (s : State) : (modFeed j g s).holderEntry d = s.holderEntry d := by unfold modFeed; split <;> rfl
@[simp] theorem modFeed_selectedFeed (j : Nat) (g : FeedRecord → FeedRecord) (d : Nat) (s : State) : (modFeed j g s).selectedFeed d = s.selectedFeed d := by unfold modFeed; split <;> rfl
@[simp] theorem modFeed_feedRec_self (j : Nat) (g : FeedRecord → FeedRecord) (s : State) : (modFeed j g s).feedRec j = (s.feedRec j).map g := by
  unfold modFeed; split <;> simp_all
theorem modFeed_feedRec_of_ne {i j : Nat} (h : i ≠ j) (g : FeedRecord → FeedRecord) (s : State) : (modFeed j g s).feedRec i = s.feedRec i := by
  unfold modFeed; split
  · rfl
  · exact State.feedRec_setFeedRec_of_ne s _ h

end Sys2Proof.Machine
end

