-- ==== Sys2Proof/Laws/Operations.lean ====
section
/-! SUPPORT. What the operations of the blocks leave unchanged, one lemma per operation and field or object. -/

set_option linter.unusedSimpArgs false
set_option linter.unusedTactic false
set_option linter.unnecessarySeqFocus false
set_option linter.unreachableTactic false

namespace Sys2Proof.Machine

@[simp] theorem btStateEvent_cu (e ref : Nat) (o nw : BookingState) (w3 : Nat) (s : State) : (btStateEvent e ref o nw w3 s).cu = s.cu := by
  unfold btStateEvent; (repeat' split) <;> simp [modEntry, modDelivery]
@[simp] theorem btStateEvent_tb (e ref : Nat) (o nw : BookingState) (w3 : Nat) (s : State) : (btStateEvent e ref o nw w3 s).tb = s.tb := by
  unfold btStateEvent; (repeat' split) <;> simp [modEntry, modDelivery]
@[simp] theorem btStateEvent_fm (e ref : Nat) (o nw : BookingState) (w3 : Nat) (s : State) : (btStateEvent e ref o nw w3 s).fm = s.fm := by
  unfold btStateEvent; (repeat' split) <;> simp [modEntry, modDelivery]
@[simp] theorem btStateEvent_bt (e ref : Nat) (o nw : BookingState) (w3 : Nat) (s : State) : (btStateEvent e ref o nw w3 s).bt = s.bt := by
  unfold btStateEvent; (repeat' split) <;> simp [modEntry, modDelivery]
@[simp] theorem btStateEvent_ga (e ref : Nat) (o nw : BookingState) (w3 : Nat) (s : State) : (btStateEvent e ref o nw w3 s).ga = s.ga := by
  unfold btStateEvent; (repeat' split) <;> simp [modEntry, modDelivery]
@[simp] theorem btStateEvent_ru (e ref : Nat) (o nw : BookingState) (w3 : Nat) (s : State) : (btStateEvent e ref o nw w3 s).ru = s.ru := by
  unfold btStateEvent; (repeat' split) <;> simp [modEntry, modDelivery]
@[simp] theorem btStateEvent_dm (e ref : Nat) (o nw : BookingState) (w3 : Nat) (s : State) : (btStateEvent e ref o nw w3 s).dm = s.dm := by
  unfold btStateEvent; (repeat' split) <;> simp [modEntry, modDelivery]
@[simp] theorem btStateEvent_mu (e ref : Nat) (o nw : BookingState) (w3 : Nat) (s : State) : (btStateEvent e ref o nw w3 s).mu = s.mu := by
  unfold btStateEvent; (repeat' split) <;> simp [modEntry, modDelivery]
@[simp] theorem btStateEvent_pending (e ref : Nat) (o nw : BookingState) (w3 : Nat) (s : State) : (btStateEvent e ref o nw w3 s).pending = s.pending := by
  unfold btStateEvent; (repeat' split) <;> simp [modEntry, modDelivery]
@[simp] theorem btStateEvent_lpu_mode (e ref : Nat) (o nw : BookingState) (w3 : Nat) (s : State) : (btStateEvent e ref o nw w3 s).lpu.mode = s.lpu.mode := by
  unfold btStateEvent; (repeat' split) <;> simp [modEntry, modDelivery]
@[simp] theorem btStateEvent_lpu_depth (e ref : Nat) (o nw : BookingState) (w3 : Nat) (s : State) : (btStateEvent e ref o nw w3 s).lpu.depth = s.lpu.depth := by
  unfold btStateEvent; (repeat' split) <;> simp [modEntry, modDelivery]
@[simp] theorem btStateEvent_lpu_rings (e ref : Nat) (o nw : BookingState) (w3 : Nat) (s : State) : (btStateEvent e ref o nw w3 s).lpu.rings = s.lpu.rings := by
  unfold btStateEvent; (repeat' split) <;> simp [modEntry, modDelivery]
@[simp] theorem btStateEvent_lpu_windows (e ref : Nat) (o nw : BookingState) (w3 : Nat) (s : State) : (btStateEvent e ref o nw w3 s).lpu.windows = s.lpu.windows := by
  unfold btStateEvent; (repeat' split) <;> simp [modEntry, modDelivery]
@[simp] theorem btStateEvent_lpu_latches (e ref : Nat) (o nw : BookingState) (w3 : Nat) (s : State) : (btStateEvent e ref o nw w3 s).lpu.latches = s.lpu.latches := by
  unfold btStateEvent; (repeat' split) <;> simp [modEntry, modDelivery]
@[simp] theorem btStateEvent_lpu_holds (e ref : Nat) (o nw : BookingState) (w3 : Nat) (s : State) : (btStateEvent e ref o nw w3 s).lpu.holds = s.lpu.holds := by
  unfold btStateEvent; (repeat' split) <;> simp [modEntry, modDelivery]
@[simp] theorem btStateEvent_lpu_forwarding (e ref : Nat) (o nw : BookingState) (w3 : Nat) (s : State) : (btStateEvent e ref o nw w3 s).lpu.forwarding = s.lpu.forwarding := by
  unfold btStateEvent; (repeat' split) <;> simp [modEntry, modDelivery]
@[simp] theorem btStateEvent_lpu_decidedReads (e ref : Nat) (o nw : BookingState) (w3 : Nat) (s : State) : (btStateEvent e ref o nw w3 s).lpu.decidedReads = s.lpu.decidedReads := by
  unfold btStateEvent; (repeat' split) <;> simp [modEntry, modDelivery]
@[simp] theorem btStateEvent_lpu_resetAsserted (e ref : Nat) (o nw : BookingState) (w3 : Nat) (s : State) : (btStateEvent e ref o nw w3 s).lpu.resetAsserted = s.lpu.resetAsserted := by
  unfold btStateEvent; (repeat' split) <;> simp [modEntry, modDelivery]
@[simp] theorem btStateEvent_rw_pendingBilling (e ref : Nat) (o nw : BookingState) (w3 : Nat) (s : State) : (btStateEvent e ref o nw w3 s).rw.pendingBilling = s.rw.pendingBilling := by
  unfold btStateEvent; (repeat' split) <;> simp [modEntry, modDelivery]
@[simp] theorem btStateEvent_route (e ref : Nat) (o nw : BookingState) (w3 : Nat) (i : Nat) (s : State) : (btStateEvent e ref o nw w3 s).route i = s.route i := by
  unfold btStateEvent; (repeat' split) <;> simp [modEntry, modDelivery]
@[simp] theorem btStateEvent_destParams (e ref : Nat) (o nw : BookingState) (w3 : Nat) (i : Nat) (s : State) : (btStateEvent e ref o nw w3 s).destParams i = s.destParams i := by
  unfold btStateEvent; (repeat' split) <;> simp [modEntry, modDelivery]
@[simp] theorem btStateEvent_entry (e ref : Nat) (o nw : BookingState) (w3 : Nat) (i : Nat) (s : State) : (btStateEvent e ref o nw w3 s).entry i = s.entry i := by
  unfold btStateEvent; (repeat' split) <;> simp [modEntry, modDelivery]
@[simp] theorem btStateEvent_feedRec (e ref : Nat) (o nw : BookingState) (w3 : Nat) (i : Nat) (s : State) : (btStateEvent e ref o nw w3 s).feedRec i = s.feedRec i := by
  unfold btStateEvent; (repeat' split) <;> simp [modEntry, modDelivery]
@[simp] theorem btStateEvent_feedParams (e ref : Nat) (o nw : BookingState) (w3 : Nat) (i : Nat) (s : State) : (btStateEvent e ref o nw w3 s).feedParams i = s.feedParams i := by
  unfold btStateEvent; (repeat' split) <;> simp [modEntry, modDelivery]
@[simp] theorem btStateEvent_holder (e ref : Nat) (o nw : BookingState) (w3 : Nat) (i : Nat) (s : State) : (btStateEvent e ref o nw w3 s).holder i = s.holder i := by
  unfold btStateEvent; (repeat' split) <;> simp [modEntry, modDelivery]
@[simp] theorem btStateEvent_grantQueue (e ref : Nat) (o nw : BookingState) (w3 : Nat) (i : Nat) (s : State) : (btStateEvent e ref o nw w3 s).grantQueue i = s.grantQueue i := by
  unfold btStateEvent; (repeat' split) <;> simp [modEntry, modDelivery]
@[simp] theorem btStateEvent_delivery (e ref : Nat) (o nw : BookingState) (w3 : Nat) (i : Nat) (s : State) : (btStateEvent e ref o nw w3 s).delivery i = s.delivery i := by
  unfold btStateEvent; (repeat' split) <;> simp [modEntry, modDelivery]
@[simp] theorem btStateEvent_tariff (e ref : Nat) (o nw : BookingState) (w3 : Nat) (i : Nat) (s : State) : (btStateEvent e ref o nw w3 s).tariff i = s.tariff i := by
  unfold btStateEvent; (repeat' split) <;> simp [modEntry, modDelivery]
@[simp] theorem btStateEvent_ringDef (e ref : Nat) (o nw : BookingState) (w3 : Nat) (i : Nat) (s : State) : (btStateEvent e ref o nw w3 s).ringDef i = s.ringDef i := by
  unfold btStateEvent; (repeat' split) <;> simp [modEntry, modDelivery]
@[simp] theorem btStateEvent_windowDef (e ref : Nat) (o nw : BookingState) (w3 : Nat) (i : Nat) (s : State) : (btStateEvent e ref o nw w3 s).windowDef i = s.windowDef i := by
  unfold btStateEvent; (repeat' split) <;> simp [modEntry, modDelivery]
@[simp] theorem btStateEvent_ringDepth (e ref : Nat) (o nw : BookingState) (w3 : Nat)  (s : State) : (btStateEvent e ref o nw w3 s).ringDepth = s.ringDepth := by
  unfold btStateEvent; (repeat' split) <;> simp [modEntry, modDelivery]
@[simp] theorem btStateEvent_usable (e ref : Nat) (o nw : BookingState) (w3 : Nat) (i : Nat) (s : State) : (btStateEvent e ref o nw w3 s).usable i = s.usable i := by
  unfold btStateEvent; (repeat' split) <;> simp [modEntry, modDelivery]
@[simp] theorem btStateEvent_lastSlot (e ref : Nat) (o nw : BookingState) (w3 : Nat) (i : Nat) (s : State) : (btStateEvent e ref o nw w3 s).lastSlot i = s.lastSlot i := by
  unfold btStateEvent; (repeat' split) <;> simp [modEntry, modDelivery]

@[simp] theorem dmReclass_cu (d : Nat) (s : State) : (dmReclass d s).cu = s.cu := by
  unfold dmReclass; (repeat' split) <;> simp [modEntry, modDelivery]
@[simp] theorem dmReclass_tb (d : Nat) (s : State) : (dmReclass d s).tb = s.tb := by
  unfold dmReclass; (repeat' split) <;> simp [modEntry, modDelivery]
@[simp] theorem dmReclass_fm (d : Nat) (s : State) : (dmReclass d s).fm = s.fm := by
  unfold dmReclass; (repeat' split) <;> simp [modEntry, modDelivery]
@[simp] theorem dmReclass_bt (d : Nat) (s : State) : (dmReclass d s).bt = s.bt := by
  unfold dmReclass; (repeat' split) <;> simp [modEntry, modDelivery]
@[simp] theorem dmReclass_ga (d : Nat) (s : State) : (dmReclass d s).ga = s.ga := by
  unfold dmReclass; (repeat' split) <;> simp [modEntry, modDelivery]
@[simp] theorem dmReclass_ru (d : Nat) (s : State) : (dmReclass d s).ru = s.ru := by
  unfold dmReclass; (repeat' split) <;> simp [modEntry, modDelivery]
@[simp] theorem dmReclass_mu (d : Nat) (s : State) : (dmReclass d s).mu = s.mu := by
  unfold dmReclass; (repeat' split) <;> simp [modEntry, modDelivery]
@[simp] theorem dmReclass_pending (d : Nat) (s : State) : (dmReclass d s).pending = s.pending := by
  unfold dmReclass; (repeat' split) <;> simp [modEntry, modDelivery]
@[simp] theorem dmReclass_lpu_mode (d : Nat) (s : State) : (dmReclass d s).lpu.mode = s.lpu.mode := by
  unfold dmReclass; (repeat' split) <;> simp [modEntry, modDelivery]
@[simp] theorem dmReclass_lpu_depth (d : Nat) (s : State) : (dmReclass d s).lpu.depth = s.lpu.depth := by
  unfold dmReclass; (repeat' split) <;> simp [modEntry, modDelivery]
@[simp] theorem dmReclass_lpu_rings (d : Nat) (s : State) : (dmReclass d s).lpu.rings = s.lpu.rings := by
  unfold dmReclass; (repeat' split) <;> simp [modEntry, modDelivery]
@[simp] theorem dmReclass_lpu_windows (d : Nat) (s : State) : (dmReclass d s).lpu.windows = s.lpu.windows := by
  unfold dmReclass; (repeat' split) <;> simp [modEntry, modDelivery]
@[simp] theorem dmReclass_lpu_latches (d : Nat) (s : State) : (dmReclass d s).lpu.latches = s.lpu.latches := by
  unfold dmReclass; (repeat' split) <;> simp [modEntry, modDelivery]
@[simp] theorem dmReclass_lpu_holds (d : Nat) (s : State) : (dmReclass d s).lpu.holds = s.lpu.holds := by
  unfold dmReclass; (repeat' split) <;> simp [modEntry, modDelivery]
@[simp] theorem dmReclass_lpu_forwarding (d : Nat) (s : State) : (dmReclass d s).lpu.forwarding = s.lpu.forwarding := by
  unfold dmReclass; (repeat' split) <;> simp [modEntry, modDelivery]
@[simp] theorem dmReclass_lpu_decidedReads (d : Nat) (s : State) : (dmReclass d s).lpu.decidedReads = s.lpu.decidedReads := by
  unfold dmReclass; (repeat' split) <;> simp [modEntry, modDelivery]
@[simp] theorem dmReclass_lpu_resetAsserted (d : Nat) (s : State) : (dmReclass d s).lpu.resetAsserted = s.lpu.resetAsserted := by
  unfold dmReclass; (repeat' split) <;> simp [modEntry, modDelivery]
@[simp] theorem dmReclass_rw_pendingBilling (d : Nat) (s : State) : (dmReclass d s).rw.pendingBilling = s.rw.pendingBilling := by
  unfold dmReclass; (repeat' split) <;> simp [modEntry, modDelivery]
@[simp] theorem dmReclass_route (d : Nat) (i : Nat) (s : State) : (dmReclass d s).route i = s.route i := by
  unfold dmReclass; (repeat' split) <;> simp [modEntry, modDelivery]
@[simp] theorem dmReclass_destParams (d : Nat) (i : Nat) (s : State) : (dmReclass d s).destParams i = s.destParams i := by
  unfold dmReclass; (repeat' split) <;> simp [modEntry, modDelivery]
@[simp] theorem dmReclass_entry (d : Nat) (i : Nat) (s : State) : (dmReclass d s).entry i = s.entry i := by
  unfold dmReclass; (repeat' split) <;> simp [modEntry, modDelivery]
@[simp] theorem dmReclass_feedRec (d : Nat) (i : Nat) (s : State) : (dmReclass d s).feedRec i = s.feedRec i := by
  unfold dmReclass; (repeat' split) <;> simp [modEntry, modDelivery]
@[simp] theorem dmReclass_feedParams (d : Nat) (i : Nat) (s : State) : (dmReclass d s).feedParams i = s.feedParams i := by
  unfold dmReclass; (repeat' split) <;> simp [modEntry, modDelivery]
@[simp] theorem dmReclass_holder (d : Nat) (i : Nat) (s : State) : (dmReclass d s).holder i = s.holder i := by
  unfold dmReclass; (repeat' split) <;> simp [modEntry, modDelivery]
@[simp] theorem dmReclass_grantQueue (d : Nat) (i : Nat) (s : State) : (dmReclass d s).grantQueue i = s.grantQueue i := by
  unfold dmReclass; (repeat' split) <;> simp [modEntry, modDelivery]
@[simp] theorem dmReclass_tariff (d : Nat) (i : Nat) (s : State) : (dmReclass d s).tariff i = s.tariff i := by
  unfold dmReclass; (repeat' split) <;> simp [modEntry, modDelivery]
@[simp] theorem dmReclass_ringDef (d : Nat) (i : Nat) (s : State) : (dmReclass d s).ringDef i = s.ringDef i := by
  unfold dmReclass; (repeat' split) <;> simp [modEntry, modDelivery]
@[simp] theorem dmReclass_windowDef (d : Nat) (i : Nat) (s : State) : (dmReclass d s).windowDef i = s.windowDef i := by
  unfold dmReclass; (repeat' split) <;> simp [modEntry, modDelivery]
@[simp] theorem dmReclass_ringDepth (d : Nat)  (s : State) : (dmReclass d s).ringDepth = s.ringDepth := by
  unfold dmReclass; (repeat' split) <;> simp [modEntry, modDelivery]
@[simp] theorem dmReclass_usable (d : Nat) (i : Nat) (s : State) : (dmReclass d s).usable i = s.usable i := by
  unfold dmReclass; (repeat' split) <;> simp [modEntry, modDelivery]
@[simp] theorem dmReclass_lastSlot (d : Nat) (i : Nat) (s : State) : (dmReclass d s).lastSlot i = s.lastSlot i := by
  unfold dmReclass; (repeat' split) <;> simp [modEntry, modDelivery]

@[simp] theorem dmImpair_cu (d : Nat) (s : State) : (dmImpair d s).cu = s.cu := by
  unfold dmImpair; (repeat' split) <;> simp [modEntry, modDelivery]
@[simp] theorem dmImpair_tb (d : Nat) (s : State) : (dmImpair d s).tb = s.tb := by
  unfold dmImpair; (repeat' split) <;> simp [modEntry, modDelivery]
@[simp] theorem dmImpair_fm (d : Nat) (s : State) : (dmImpair d s).fm = s.fm := by
  unfold dmImpair; (repeat' split) <;> simp [modEntry, modDelivery]
@[simp] theorem dmImpair_bt (d : Nat) (s : State) : (dmImpair d s).bt = s.bt := by
  unfold dmImpair; (repeat' split) <;> simp [modEntry, modDelivery]
@[simp] theorem dmImpair_ga (d : Nat) (s : State) : (dmImpair d s).ga = s.ga := by
  unfold dmImpair; (repeat' split) <;> simp [modEntry, modDelivery]
@[simp] theorem dmImpair_ru (d : Nat) (s : State) : (dmImpair d s).ru = s.ru := by
  unfold dmImpair; (repeat' split) <;> simp [modEntry, modDelivery]
@[simp] theorem dmImpair_mu (d : Nat) (s : State) : (dmImpair d s).mu = s.mu := by
  unfold dmImpair; (repeat' split) <;> simp [modEntry, modDelivery]
@[simp] theorem dmImpair_pending (d : Nat) (s : State) : (dmImpair d s).pending = s.pending := by
  unfold dmImpair; (repeat' split) <;> simp [modEntry, modDelivery]
@[simp] theorem dmImpair_lpu_mode (d : Nat) (s : State) : (dmImpair d s).lpu.mode = s.lpu.mode := by
  unfold dmImpair; (repeat' split) <;> simp [modEntry, modDelivery]
@[simp] theorem dmImpair_lpu_depth (d : Nat) (s : State) : (dmImpair d s).lpu.depth = s.lpu.depth := by
  unfold dmImpair; (repeat' split) <;> simp [modEntry, modDelivery]
@[simp] theorem dmImpair_lpu_rings (d : Nat) (s : State) : (dmImpair d s).lpu.rings = s.lpu.rings := by
  unfold dmImpair; (repeat' split) <;> simp [modEntry, modDelivery]
@[simp] theorem dmImpair_lpu_windows (d : Nat) (s : State) : (dmImpair d s).lpu.windows = s.lpu.windows := by
  unfold dmImpair; (repeat' split) <;> simp [modEntry, modDelivery]
@[simp] theorem dmImpair_lpu_latches (d : Nat) (s : State) : (dmImpair d s).lpu.latches = s.lpu.latches := by
  unfold dmImpair; (repeat' split) <;> simp [modEntry, modDelivery]
@[simp] theorem dmImpair_lpu_holds (d : Nat) (s : State) : (dmImpair d s).lpu.holds = s.lpu.holds := by
  unfold dmImpair; (repeat' split) <;> simp [modEntry, modDelivery]
@[simp] theorem dmImpair_lpu_forwarding (d : Nat) (s : State) : (dmImpair d s).lpu.forwarding = s.lpu.forwarding := by
  unfold dmImpair; (repeat' split) <;> simp [modEntry, modDelivery]
@[simp] theorem dmImpair_lpu_decidedReads (d : Nat) (s : State) : (dmImpair d s).lpu.decidedReads = s.lpu.decidedReads := by
  unfold dmImpair; (repeat' split) <;> simp [modEntry, modDelivery]
@[simp] theorem dmImpair_lpu_resetAsserted (d : Nat) (s : State) : (dmImpair d s).lpu.resetAsserted = s.lpu.resetAsserted := by
  unfold dmImpair; (repeat' split) <;> simp [modEntry, modDelivery]
@[simp] theorem dmImpair_rw_pendingBilling (d : Nat) (s : State) : (dmImpair d s).rw.pendingBilling = s.rw.pendingBilling := by
  unfold dmImpair; (repeat' split) <;> simp [modEntry, modDelivery]
@[simp] theorem dmImpair_route (d : Nat) (i : Nat) (s : State) : (dmImpair d s).route i = s.route i := by
  unfold dmImpair; (repeat' split) <;> simp [modEntry, modDelivery]
@[simp] theorem dmImpair_destParams (d : Nat) (i : Nat) (s : State) : (dmImpair d s).destParams i = s.destParams i := by
  unfold dmImpair; (repeat' split) <;> simp [modEntry, modDelivery]
@[simp] theorem dmImpair_entry (d : Nat) (i : Nat) (s : State) : (dmImpair d s).entry i = s.entry i := by
  unfold dmImpair; (repeat' split) <;> simp [modEntry, modDelivery]
@[simp] theorem dmImpair_feedRec (d : Nat) (i : Nat) (s : State) : (dmImpair d s).feedRec i = s.feedRec i := by
  unfold dmImpair; (repeat' split) <;> simp [modEntry, modDelivery]
@[simp] theorem dmImpair_feedParams (d : Nat) (i : Nat) (s : State) : (dmImpair d s).feedParams i = s.feedParams i := by
  unfold dmImpair; (repeat' split) <;> simp [modEntry, modDelivery]
@[simp] theorem dmImpair_holder (d : Nat) (i : Nat) (s : State) : (dmImpair d s).holder i = s.holder i := by
  unfold dmImpair; (repeat' split) <;> simp [modEntry, modDelivery]
@[simp] theorem dmImpair_grantQueue (d : Nat) (i : Nat) (s : State) : (dmImpair d s).grantQueue i = s.grantQueue i := by
  unfold dmImpair; (repeat' split) <;> simp [modEntry, modDelivery]
@[simp] theorem dmImpair_tariff (d : Nat) (i : Nat) (s : State) : (dmImpair d s).tariff i = s.tariff i := by
  unfold dmImpair; (repeat' split) <;> simp [modEntry, modDelivery]
@[simp] theorem dmImpair_ringDef (d : Nat) (i : Nat) (s : State) : (dmImpair d s).ringDef i = s.ringDef i := by
  unfold dmImpair; (repeat' split) <;> simp [modEntry, modDelivery]
@[simp] theorem dmImpair_windowDef (d : Nat) (i : Nat) (s : State) : (dmImpair d s).windowDef i = s.windowDef i := by
  unfold dmImpair; (repeat' split) <;> simp [modEntry, modDelivery]
@[simp] theorem dmImpair_ringDepth (d : Nat)  (s : State) : (dmImpair d s).ringDepth = s.ringDepth := by
  unfold dmImpair; (repeat' split) <;> simp [modEntry, modDelivery]
@[simp] theorem dmImpair_usable (d : Nat) (i : Nat) (s : State) : (dmImpair d s).usable i = s.usable i := by
  unfold dmImpair; (repeat' split) <;> simp [modEntry, modDelivery]
@[simp] theorem dmImpair_lastSlot (d : Nat) (i : Nat) (s : State) : (dmImpair d s).lastSlot i = s.lastSlot i := by
  unfold dmImpair; (repeat' split) <;> simp [modEntry, modDelivery]

@[simp] theorem dmClearImpairment_cu (d : Nat) (s : State) : (dmClearImpairment d s).cu = s.cu := by
  unfold dmClearImpairment; (repeat' split) <;> simp [modEntry, modDelivery]
@[simp] theorem dmClearImpairment_tb (d : Nat) (s : State) : (dmClearImpairment d s).tb = s.tb := by
  unfold dmClearImpairment; (repeat' split) <;> simp [modEntry, modDelivery]
@[simp] theorem dmClearImpairment_fm (d : Nat) (s : State) : (dmClearImpairment d s).fm = s.fm := by
  unfold dmClearImpairment; (repeat' split) <;> simp [modEntry, modDelivery]
@[simp] theorem dmClearImpairment_bt (d : Nat) (s : State) : (dmClearImpairment d s).bt = s.bt := by
  unfold dmClearImpairment; (repeat' split) <;> simp [modEntry, modDelivery]
@[simp] theorem dmClearImpairment_ga (d : Nat) (s : State) : (dmClearImpairment d s).ga = s.ga := by
  unfold dmClearImpairment; (repeat' split) <;> simp [modEntry, modDelivery]
@[simp] theorem dmClearImpairment_ru (d : Nat) (s : State) : (dmClearImpairment d s).ru = s.ru := by
  unfold dmClearImpairment; (repeat' split) <;> simp [modEntry, modDelivery]
@[simp] theorem dmClearImpairment_mu (d : Nat) (s : State) : (dmClearImpairment d s).mu = s.mu := by
  unfold dmClearImpairment; (repeat' split) <;> simp [modEntry, modDelivery]
@[simp] theorem dmClearImpairment_pending (d : Nat) (s : State) : (dmClearImpairment d s).pending = s.pending := by
  unfold dmClearImpairment; (repeat' split) <;> simp [modEntry, modDelivery]
@[simp] theorem dmClearImpairment_lpu_mode (d : Nat) (s : State) : (dmClearImpairment d s).lpu.mode = s.lpu.mode := by
  unfold dmClearImpairment; (repeat' split) <;> simp [modEntry, modDelivery]
@[simp] theorem dmClearImpairment_lpu_depth (d : Nat) (s : State) : (dmClearImpairment d s).lpu.depth = s.lpu.depth := by
  unfold dmClearImpairment; (repeat' split) <;> simp [modEntry, modDelivery]
@[simp] theorem dmClearImpairment_lpu_rings (d : Nat) (s : State) : (dmClearImpairment d s).lpu.rings = s.lpu.rings := by
  unfold dmClearImpairment; (repeat' split) <;> simp [modEntry, modDelivery]
@[simp] theorem dmClearImpairment_lpu_windows (d : Nat) (s : State) : (dmClearImpairment d s).lpu.windows = s.lpu.windows := by
  unfold dmClearImpairment; (repeat' split) <;> simp [modEntry, modDelivery]
@[simp] theorem dmClearImpairment_lpu_latches (d : Nat) (s : State) : (dmClearImpairment d s).lpu.latches = s.lpu.latches := by
  unfold dmClearImpairment; (repeat' split) <;> simp [modEntry, modDelivery]
@[simp] theorem dmClearImpairment_lpu_holds (d : Nat) (s : State) : (dmClearImpairment d s).lpu.holds = s.lpu.holds := by
  unfold dmClearImpairment; (repeat' split) <;> simp [modEntry, modDelivery]
@[simp] theorem dmClearImpairment_lpu_forwarding (d : Nat) (s : State) : (dmClearImpairment d s).lpu.forwarding = s.lpu.forwarding := by
  unfold dmClearImpairment; (repeat' split) <;> simp [modEntry, modDelivery]
@[simp] theorem dmClearImpairment_lpu_decidedReads (d : Nat) (s : State) : (dmClearImpairment d s).lpu.decidedReads = s.lpu.decidedReads := by
  unfold dmClearImpairment; (repeat' split) <;> simp [modEntry, modDelivery]
@[simp] theorem dmClearImpairment_lpu_resetAsserted (d : Nat) (s : State) : (dmClearImpairment d s).lpu.resetAsserted = s.lpu.resetAsserted := by
  unfold dmClearImpairment; (repeat' split) <;> simp [modEntry, modDelivery]
@[simp] theorem dmClearImpairment_rw_pendingBilling (d : Nat) (s : State) : (dmClearImpairment d s).rw.pendingBilling = s.rw.pendingBilling := by
  unfold dmClearImpairment; (repeat' split) <;> simp [modEntry, modDelivery]
@[simp] theorem dmClearImpairment_route (d : Nat) (i : Nat) (s : State) : (dmClearImpairment d s).route i = s.route i := by
  unfold dmClearImpairment; (repeat' split) <;> simp [modEntry, modDelivery]
@[simp] theorem dmClearImpairment_destParams (d : Nat) (i : Nat) (s : State) : (dmClearImpairment d s).destParams i = s.destParams i := by
  unfold dmClearImpairment; (repeat' split) <;> simp [modEntry, modDelivery]
@[simp] theorem dmClearImpairment_entry (d : Nat) (i : Nat) (s : State) : (dmClearImpairment d s).entry i = s.entry i := by
  unfold dmClearImpairment; (repeat' split) <;> simp [modEntry, modDelivery]
@[simp] theorem dmClearImpairment_feedRec (d : Nat) (i : Nat) (s : State) : (dmClearImpairment d s).feedRec i = s.feedRec i := by
  unfold dmClearImpairment; (repeat' split) <;> simp [modEntry, modDelivery]
@[simp] theorem dmClearImpairment_feedParams (d : Nat) (i : Nat) (s : State) : (dmClearImpairment d s).feedParams i = s.feedParams i := by
  unfold dmClearImpairment; (repeat' split) <;> simp [modEntry, modDelivery]
@[simp] theorem dmClearImpairment_holder (d : Nat) (i : Nat) (s : State) : (dmClearImpairment d s).holder i = s.holder i := by
  unfold dmClearImpairment; (repeat' split) <;> simp [modEntry, modDelivery]
@[simp] theorem dmClearImpairment_grantQueue (d : Nat) (i : Nat) (s : State) : (dmClearImpairment d s).grantQueue i = s.grantQueue i := by
  unfold dmClearImpairment; (repeat' split) <;> simp [modEntry, modDelivery]
@[simp] theorem dmClearImpairment_tariff (d : Nat) (i : Nat) (s : State) : (dmClearImpairment d s).tariff i = s.tariff i := by
  unfold dmClearImpairment; (repeat' split) <;> simp [modEntry, modDelivery]
@[simp] theorem dmClearImpairment_ringDef (d : Nat) (i : Nat) (s : State) : (dmClearImpairment d s).ringDef i = s.ringDef i := by
  unfold dmClearImpairment; (repeat' split) <;> simp [modEntry, modDelivery]
@[simp] theorem dmClearImpairment_windowDef (d : Nat) (i : Nat) (s : State) : (dmClearImpairment d s).windowDef i = s.windowDef i := by
  unfold dmClearImpairment; (repeat' split) <;> simp [modEntry, modDelivery]
@[simp] theorem dmClearImpairment_ringDepth (d : Nat)  (s : State) : (dmClearImpairment d s).ringDepth = s.ringDepth := by
  unfold dmClearImpairment; (repeat' split) <;> simp [modEntry, modDelivery]
@[simp] theorem dmClearImpairment_usable (d : Nat) (i : Nat) (s : State) : (dmClearImpairment d s).usable i = s.usable i := by
  unfold dmClearImpairment; (repeat' split) <;> simp [modEntry, modDelivery]
@[simp] theorem dmClearImpairment_lastSlot (d : Nat) (i : Nat) (s : State) : (dmClearImpairment d s).lastSlot i = s.lastSlot i := by
  unfold dmClearImpairment; (repeat' split) <;> simp [modEntry, modDelivery]

@[simp] theorem btCountSlip_cu (d : Nat) (s : State) : (btCountSlip d s).cu = s.cu := by
  unfold btCountSlip; (repeat' split) <;> simp [modEntry, modDelivery]
@[simp] theorem btCountSlip_tb (d : Nat) (s : State) : (btCountSlip d s).tb = s.tb := by
  unfold btCountSlip; (repeat' split) <;> simp [modEntry, modDelivery]
@[simp] theorem btCountSlip_fm (d : Nat) (s : State) : (btCountSlip d s).fm = s.fm := by
  unfold btCountSlip; (repeat' split) <;> simp [modEntry, modDelivery]
@[simp] theorem btCountSlip_ga (d : Nat) (s : State) : (btCountSlip d s).ga = s.ga := by
  unfold btCountSlip; (repeat' split) <;> simp [modEntry, modDelivery]
@[simp] theorem btCountSlip_ru (d : Nat) (s : State) : (btCountSlip d s).ru = s.ru := by
  unfold btCountSlip; (repeat' split) <;> simp [modEntry, modDelivery]
@[simp] theorem btCountSlip_dm (d : Nat) (s : State) : (btCountSlip d s).dm = s.dm := by
  unfold btCountSlip; (repeat' split) <;> simp [modEntry, modDelivery]
@[simp] theorem btCountSlip_mu (d : Nat) (s : State) : (btCountSlip d s).mu = s.mu := by
  unfold btCountSlip; (repeat' split) <;> simp [modEntry, modDelivery]
@[simp] theorem btCountSlip_pending (d : Nat) (s : State) : (btCountSlip d s).pending = s.pending := by
  unfold btCountSlip; (repeat' split) <;> simp [modEntry, modDelivery]
@[simp] theorem btCountSlip_lpu_mode (d : Nat) (s : State) : (btCountSlip d s).lpu.mode = s.lpu.mode := by
  unfold btCountSlip; (repeat' split) <;> simp [modEntry, modDelivery]
@[simp] theorem btCountSlip_lpu_depth (d : Nat) (s : State) : (btCountSlip d s).lpu.depth = s.lpu.depth := by
  unfold btCountSlip; (repeat' split) <;> simp [modEntry, modDelivery]
@[simp] theorem btCountSlip_lpu_rings (d : Nat) (s : State) : (btCountSlip d s).lpu.rings = s.lpu.rings := by
  unfold btCountSlip; (repeat' split) <;> simp [modEntry, modDelivery]
@[simp] theorem btCountSlip_lpu_windows (d : Nat) (s : State) : (btCountSlip d s).lpu.windows = s.lpu.windows := by
  unfold btCountSlip; (repeat' split) <;> simp [modEntry, modDelivery]
@[simp] theorem btCountSlip_lpu_latches (d : Nat) (s : State) : (btCountSlip d s).lpu.latches = s.lpu.latches := by
  unfold btCountSlip; (repeat' split) <;> simp [modEntry, modDelivery]
@[simp] theorem btCountSlip_lpu_holds (d : Nat) (s : State) : (btCountSlip d s).lpu.holds = s.lpu.holds := by
  unfold btCountSlip; (repeat' split) <;> simp [modEntry, modDelivery]
@[simp] theorem btCountSlip_lpu_forwarding (d : Nat) (s : State) : (btCountSlip d s).lpu.forwarding = s.lpu.forwarding := by
  unfold btCountSlip; (repeat' split) <;> simp [modEntry, modDelivery]
@[simp] theorem btCountSlip_lpu_decidedReads (d : Nat) (s : State) : (btCountSlip d s).lpu.decidedReads = s.lpu.decidedReads := by
  unfold btCountSlip; (repeat' split) <;> simp [modEntry, modDelivery]
@[simp] theorem btCountSlip_lpu_resetAsserted (d : Nat) (s : State) : (btCountSlip d s).lpu.resetAsserted = s.lpu.resetAsserted := by
  unfold btCountSlip; (repeat' split) <;> simp [modEntry, modDelivery]
@[simp] theorem btCountSlip_rw_pendingBilling (d : Nat) (s : State) : (btCountSlip d s).rw.pendingBilling = s.rw.pendingBilling := by
  unfold btCountSlip; (repeat' split) <;> simp [modEntry, modDelivery]
@[simp] theorem btCountSlip_route (d : Nat) (i : Nat) (s : State) : (btCountSlip d s).route i = s.route i := by
  unfold btCountSlip; (repeat' split) <;> simp [modEntry, modDelivery]
@[simp] theorem btCountSlip_destParams (d : Nat) (i : Nat) (s : State) : (btCountSlip d s).destParams i = s.destParams i := by
  unfold btCountSlip; (repeat' split) <;> simp [modEntry, modDelivery]
@[simp] theorem btCountSlip_feedRec (d : Nat) (i : Nat) (s : State) : (btCountSlip d s).feedRec i = s.feedRec i := by
  unfold btCountSlip; (repeat' split) <;> simp [modEntry, modDelivery]
@[simp] theorem btCountSlip_feedParams (d : Nat) (i : Nat) (s : State) : (btCountSlip d s).feedParams i = s.feedParams i := by
  unfold btCountSlip; (repeat' split) <;> simp [modEntry, modDelivery]
@[simp] theorem btCountSlip_holder (d : Nat) (i : Nat) (s : State) : (btCountSlip d s).holder i = s.holder i := by
  unfold btCountSlip; (repeat' split) <;> simp [modEntry, modDelivery]
@[simp] theorem btCountSlip_grantQueue (d : Nat) (i : Nat) (s : State) : (btCountSlip d s).grantQueue i = s.grantQueue i := by
  unfold btCountSlip; (repeat' split) <;> simp [modEntry, modDelivery]
@[simp] theorem btCountSlip_delivery (d : Nat) (i : Nat) (s : State) : (btCountSlip d s).delivery i = s.delivery i := by
  unfold btCountSlip; (repeat' split) <;> simp [modEntry, modDelivery]
@[simp] theorem btCountSlip_tariff (d : Nat) (i : Nat) (s : State) : (btCountSlip d s).tariff i = s.tariff i := by
  unfold btCountSlip; (repeat' split) <;> simp [modEntry, modDelivery]
@[simp] theorem btCountSlip_ringDef (d : Nat) (i : Nat) (s : State) : (btCountSlip d s).ringDef i = s.ringDef i := by
  unfold btCountSlip; (repeat' split) <;> simp [modEntry, modDelivery]
@[simp] theorem btCountSlip_windowDef (d : Nat) (i : Nat) (s : State) : (btCountSlip d s).windowDef i = s.windowDef i := by
  unfold btCountSlip; (repeat' split) <;> simp [modEntry, modDelivery]
@[simp] theorem btCountSlip_ringDepth (d : Nat)  (s : State) : (btCountSlip d s).ringDepth = s.ringDepth := by
  unfold btCountSlip; (repeat' split) <;> simp [modEntry, modDelivery]
@[simp] theorem btCountSlip_usable (d : Nat) (i : Nat) (s : State) : (btCountSlip d s).usable i = s.usable i := by
  unfold btCountSlip; (repeat' split) <;> simp [modEntry, modDelivery]
@[simp] theorem btCountSlip_lastSlot (d : Nat) (i : Nat) (s : State) : (btCountSlip d s).lastSlot i = s.lastSlot i := by
  unfold btCountSlip; (repeat' split) <;> simp [modEntry, modDelivery]

@[simp] theorem dmRepeatSlip_cu (d k1 k2 k3 : Nat) (s : State) : (dmRepeatSlip d k1 k2 k3 s).cu = s.cu := by
  unfold dmRepeatSlip; (repeat' split) <;> simp [modEntry, modDelivery]
@[simp] theorem dmRepeatSlip_tb (d k1 k2 k3 : Nat) (s : State) : (dmRepeatSlip d k1 k2 k3 s).tb = s.tb := by
  unfold dmRepeatSlip; (repeat' split) <;> simp [modEntry, modDelivery]
@[simp] theorem dmRepeatSlip_fm (d k1 k2 k3 : Nat) (s : State) : (dmRepeatSlip d k1 k2 k3 s).fm = s.fm := by
  unfold dmRepeatSlip; (repeat' split) <;> simp [modEntry, modDelivery]
@[simp] theorem dmRepeatSlip_ga (d k1 k2 k3 : Nat) (s : State) : (dmRepeatSlip d k1 k2 k3 s).ga = s.ga := by
  unfold dmRepeatSlip; (repeat' split) <;> simp [modEntry, modDelivery]
@[simp] theorem dmRepeatSlip_ru (d k1 k2 k3 : Nat) (s : State) : (dmRepeatSlip d k1 k2 k3 s).ru = s.ru := by
  unfold dmRepeatSlip; (repeat' split) <;> simp [modEntry, modDelivery]
@[simp] theorem dmRepeatSlip_mu (d k1 k2 k3 : Nat) (s : State) : (dmRepeatSlip d k1 k2 k3 s).mu = s.mu := by
  unfold dmRepeatSlip; (repeat' split) <;> simp [modEntry, modDelivery]
@[simp] theorem dmRepeatSlip_pending (d k1 k2 k3 : Nat) (s : State) : (dmRepeatSlip d k1 k2 k3 s).pending = s.pending := by
  unfold dmRepeatSlip; (repeat' split) <;> simp [modEntry, modDelivery]
@[simp] theorem dmRepeatSlip_lpu_mode (d k1 k2 k3 : Nat) (s : State) : (dmRepeatSlip d k1 k2 k3 s).lpu.mode = s.lpu.mode := by
  unfold dmRepeatSlip; (repeat' split) <;> simp [modEntry, modDelivery]
@[simp] theorem dmRepeatSlip_lpu_depth (d k1 k2 k3 : Nat) (s : State) : (dmRepeatSlip d k1 k2 k3 s).lpu.depth = s.lpu.depth := by
  unfold dmRepeatSlip; (repeat' split) <;> simp [modEntry, modDelivery]
@[simp] theorem dmRepeatSlip_lpu_rings (d k1 k2 k3 : Nat) (s : State) : (dmRepeatSlip d k1 k2 k3 s).lpu.rings = s.lpu.rings := by
  unfold dmRepeatSlip; (repeat' split) <;> simp [modEntry, modDelivery]
@[simp] theorem dmRepeatSlip_lpu_windows (d k1 k2 k3 : Nat) (s : State) : (dmRepeatSlip d k1 k2 k3 s).lpu.windows = s.lpu.windows := by
  unfold dmRepeatSlip; (repeat' split) <;> simp [modEntry, modDelivery]
@[simp] theorem dmRepeatSlip_lpu_latches (d k1 k2 k3 : Nat) (s : State) : (dmRepeatSlip d k1 k2 k3 s).lpu.latches = s.lpu.latches := by
  unfold dmRepeatSlip; (repeat' split) <;> simp [modEntry, modDelivery]
@[simp] theorem dmRepeatSlip_lpu_holds (d k1 k2 k3 : Nat) (s : State) : (dmRepeatSlip d k1 k2 k3 s).lpu.holds = s.lpu.holds := by
  unfold dmRepeatSlip; (repeat' split) <;> simp [modEntry, modDelivery]
@[simp] theorem dmRepeatSlip_lpu_forwarding (d k1 k2 k3 : Nat) (s : State) : (dmRepeatSlip d k1 k2 k3 s).lpu.forwarding = s.lpu.forwarding := by
  unfold dmRepeatSlip; (repeat' split) <;> simp [modEntry, modDelivery]
@[simp] theorem dmRepeatSlip_lpu_decidedReads (d k1 k2 k3 : Nat) (s : State) : (dmRepeatSlip d k1 k2 k3 s).lpu.decidedReads = s.lpu.decidedReads := by
  unfold dmRepeatSlip; (repeat' split) <;> simp [modEntry, modDelivery]
@[simp] theorem dmRepeatSlip_lpu_resetAsserted (d k1 k2 k3 : Nat) (s : State) : (dmRepeatSlip d k1 k2 k3 s).lpu.resetAsserted = s.lpu.resetAsserted := by
  unfold dmRepeatSlip; (repeat' split) <;> simp [modEntry, modDelivery]
@[simp] theorem dmRepeatSlip_rw_pendingBilling (d k1 k2 k3 : Nat) (s : State) : (dmRepeatSlip d k1 k2 k3 s).rw.pendingBilling = s.rw.pendingBilling := by
  unfold dmRepeatSlip; (repeat' split) <;> simp [modEntry, modDelivery]
@[simp] theorem dmRepeatSlip_route (d k1 k2 k3 : Nat) (i : Nat) (s : State) : (dmRepeatSlip d k1 k2 k3 s).route i = s.route i := by
  unfold dmRepeatSlip; (repeat' split) <;> simp [modEntry, modDelivery]
@[simp] theorem dmRepeatSlip_destParams (d k1 k2 k3 : Nat) (i : Nat) (s : State) : (dmRepeatSlip d k1 k2 k3 s).destParams i = s.destParams i := by
  unfold dmRepeatSlip; (repeat' split) <;> simp [modEntry, modDelivery]
@[simp] theorem dmRepeatSlip_feedRec (d k1 k2 k3 : Nat) (i : Nat) (s : State) : (dmRepeatSlip d k1 k2 k3 s).feedRec i = s.feedRec i := by
  unfold dmRepeatSlip; (repeat' split) <;> simp [modEntry, modDelivery]
@[simp] theorem dmRepeatSlip_feedParams (d k1 k2 k3 : Nat) (i : Nat) (s : State) : (dmRepeatSlip d k1 k2 k3 s).feedParams i = s.feedParams i := by
  unfold dmRepeatSlip; (repeat' split) <;> simp [modEntry, modDelivery]
@[simp] theorem dmRepeatSlip_holder (d k1 k2 k3 : Nat) (i : Nat) (s : State) : (dmRepeatSlip d k1 k2 k3 s).holder i = s.holder i := by
  unfold dmRepeatSlip; (repeat' split) <;> simp [modEntry, modDelivery]
@[simp] theorem dmRepeatSlip_grantQueue (d k1 k2 k3 : Nat) (i : Nat) (s : State) : (dmRepeatSlip d k1 k2 k3 s).grantQueue i = s.grantQueue i := by
  unfold dmRepeatSlip; (repeat' split) <;> simp [modEntry, modDelivery]
@[simp] theorem dmRepeatSlip_tariff (d k1 k2 k3 : Nat) (i : Nat) (s : State) : (dmRepeatSlip d k1 k2 k3 s).tariff i = s.tariff i := by
  unfold dmRepeatSlip; (repeat' split) <;> simp [modEntry, modDelivery]
@[simp] theorem dmRepeatSlip_ringDef (d k1 k2 k3 : Nat) (i : Nat) (s : State) : (dmRepeatSlip d k1 k2 k3 s).ringDef i = s.ringDef i := by
  unfold dmRepeatSlip; (repeat' split) <;> simp [modEntry, modDelivery]
@[simp] theorem dmRepeatSlip_windowDef (d k1 k2 k3 : Nat) (i : Nat) (s : State) : (dmRepeatSlip d k1 k2 k3 s).windowDef i = s.windowDef i := by
  unfold dmRepeatSlip; (repeat' split) <;> simp [modEntry, modDelivery]
@[simp] theorem dmRepeatSlip_ringDepth (d k1 k2 k3 : Nat)  (s : State) : (dmRepeatSlip d k1 k2 k3 s).ringDepth = s.ringDepth := by
  unfold dmRepeatSlip; (repeat' split) <;> simp [modEntry, modDelivery]
@[simp] theorem dmRepeatSlip_usable (d k1 k2 k3 : Nat) (i : Nat) (s : State) : (dmRepeatSlip d k1 k2 k3 s).usable i = s.usable i := by
  unfold dmRepeatSlip; (repeat' split) <;> simp [modEntry, modDelivery]
@[simp] theorem dmRepeatSlip_lastSlot (d k1 k2 k3 : Nat) (i : Nat) (s : State) : (dmRepeatSlip d k1 k2 k3 s).lastSlot i = s.lastSlot i := by
  unfold dmRepeatSlip; (repeat' split) <;> simp [modEntry, modDelivery]

@[simp] theorem dmDropSlip_cu (d k1 k2 k3 : Nat) (s : State) : (dmDropSlip d k1 k2 k3 s).cu = s.cu := by
  unfold dmDropSlip; (repeat' split) <;> simp [modEntry, modDelivery]
@[simp] theorem dmDropSlip_tb (d k1 k2 k3 : Nat) (s : State) : (dmDropSlip d k1 k2 k3 s).tb = s.tb := by
  unfold dmDropSlip; (repeat' split) <;> simp [modEntry, modDelivery]
@[simp] theorem dmDropSlip_fm (d k1 k2 k3 : Nat) (s : State) : (dmDropSlip d k1 k2 k3 s).fm = s.fm := by
  unfold dmDropSlip; (repeat' split) <;> simp [modEntry, modDelivery]
@[simp] theorem dmDropSlip_ga (d k1 k2 k3 : Nat) (s : State) : (dmDropSlip d k1 k2 k3 s).ga = s.ga := by
  unfold dmDropSlip; (repeat' split) <;> simp [modEntry, modDelivery]
@[simp] theorem dmDropSlip_ru (d k1 k2 k3 : Nat) (s : State) : (dmDropSlip d k1 k2 k3 s).ru = s.ru := by
  unfold dmDropSlip; (repeat' split) <;> simp [modEntry, modDelivery]
@[simp] theorem dmDropSlip_mu (d k1 k2 k3 : Nat) (s : State) : (dmDropSlip d k1 k2 k3 s).mu = s.mu := by
  unfold dmDropSlip; (repeat' split) <;> simp [modEntry, modDelivery]
@[simp] theorem dmDropSlip_pending (d k1 k2 k3 : Nat) (s : State) : (dmDropSlip d k1 k2 k3 s).pending = s.pending := by
  unfold dmDropSlip; (repeat' split) <;> simp [modEntry, modDelivery]
@[simp] theorem dmDropSlip_lpu_mode (d k1 k2 k3 : Nat) (s : State) : (dmDropSlip d k1 k2 k3 s).lpu.mode = s.lpu.mode := by
  unfold dmDropSlip; (repeat' split) <;> simp [modEntry, modDelivery]
@[simp] theorem dmDropSlip_lpu_depth (d k1 k2 k3 : Nat) (s : State) : (dmDropSlip d k1 k2 k3 s).lpu.depth = s.lpu.depth := by
  unfold dmDropSlip; (repeat' split) <;> simp [modEntry, modDelivery]
@[simp] theorem dmDropSlip_lpu_rings (d k1 k2 k3 : Nat) (s : State) : (dmDropSlip d k1 k2 k3 s).lpu.rings = s.lpu.rings := by
  unfold dmDropSlip; (repeat' split) <;> simp [modEntry, modDelivery]
@[simp] theorem dmDropSlip_lpu_windows (d k1 k2 k3 : Nat) (s : State) : (dmDropSlip d k1 k2 k3 s).lpu.windows = s.lpu.windows := by
  unfold dmDropSlip; (repeat' split) <;> simp [modEntry, modDelivery]
@[simp] theorem dmDropSlip_lpu_latches (d k1 k2 k3 : Nat) (s : State) : (dmDropSlip d k1 k2 k3 s).lpu.latches = s.lpu.latches := by
  unfold dmDropSlip; (repeat' split) <;> simp [modEntry, modDelivery]
@[simp] theorem dmDropSlip_lpu_holds (d k1 k2 k3 : Nat) (s : State) : (dmDropSlip d k1 k2 k3 s).lpu.holds = s.lpu.holds := by
  unfold dmDropSlip; (repeat' split) <;> simp [modEntry, modDelivery]
@[simp] theorem dmDropSlip_lpu_forwarding (d k1 k2 k3 : Nat) (s : State) : (dmDropSlip d k1 k2 k3 s).lpu.forwarding = s.lpu.forwarding := by
  unfold dmDropSlip; (repeat' split) <;> simp [modEntry, modDelivery]
@[simp] theorem dmDropSlip_lpu_decidedReads (d k1 k2 k3 : Nat) (s : State) : (dmDropSlip d k1 k2 k3 s).lpu.decidedReads = s.lpu.decidedReads := by
  unfold dmDropSlip; (repeat' split) <;> simp [modEntry, modDelivery]
@[simp] theorem dmDropSlip_lpu_resetAsserted (d k1 k2 k3 : Nat) (s : State) : (dmDropSlip d k1 k2 k3 s).lpu.resetAsserted = s.lpu.resetAsserted := by
  unfold dmDropSlip; (repeat' split) <;> simp [modEntry, modDelivery]
@[simp] theorem dmDropSlip_rw_pendingBilling (d k1 k2 k3 : Nat) (s : State) : (dmDropSlip d k1 k2 k3 s).rw.pendingBilling = s.rw.pendingBilling := by
  unfold dmDropSlip; (repeat' split) <;> simp [modEntry, modDelivery]
@[simp] theorem dmDropSlip_route (d k1 k2 k3 : Nat) (i : Nat) (s : State) : (dmDropSlip d k1 k2 k3 s).route i = s.route i := by
  unfold dmDropSlip; (repeat' split) <;> simp [modEntry, modDelivery]
@[simp] theorem dmDropSlip_destParams (d k1 k2 k3 : Nat) (i : Nat) (s : State) : (dmDropSlip d k1 k2 k3 s).destParams i = s.destParams i := by
  unfold dmDropSlip; (repeat' split) <;> simp [modEntry, modDelivery]
@[simp] theorem dmDropSlip_feedRec (d k1 k2 k3 : Nat) (i : Nat) (s : State) : (dmDropSlip d k1 k2 k3 s).feedRec i = s.feedRec i := by
  unfold dmDropSlip; (repeat' split) <;> simp [modEntry, modDelivery]
@[simp] theorem dmDropSlip_feedParams (d k1 k2 k3 : Nat) (i : Nat) (s : State) : (dmDropSlip d k1 k2 k3 s).feedParams i = s.feedParams i := by
  unfold dmDropSlip; (repeat' split) <;> simp [modEntry, modDelivery]
@[simp] theorem dmDropSlip_holder (d k1 k2 k3 : Nat) (i : Nat) (s : State) : (dmDropSlip d k1 k2 k3 s).holder i = s.holder i := by
  unfold dmDropSlip; (repeat' split) <;> simp [modEntry, modDelivery]
@[simp] theorem dmDropSlip_grantQueue (d k1 k2 k3 : Nat) (i : Nat) (s : State) : (dmDropSlip d k1 k2 k3 s).grantQueue i = s.grantQueue i := by
  unfold dmDropSlip; (repeat' split) <;> simp [modEntry, modDelivery]
@[simp] theorem dmDropSlip_tariff (d k1 k2 k3 : Nat) (i : Nat) (s : State) : (dmDropSlip d k1 k2 k3 s).tariff i = s.tariff i := by
  unfold dmDropSlip; (repeat' split) <;> simp [modEntry, modDelivery]
@[simp] theorem dmDropSlip_ringDef (d k1 k2 k3 : Nat) (i : Nat) (s : State) : (dmDropSlip d k1 k2 k3 s).ringDef i = s.ringDef i := by
  unfold dmDropSlip; (repeat' split) <;> simp [modEntry, modDelivery]
@[simp] theorem dmDropSlip_windowDef (d k1 k2 k3 : Nat) (i : Nat) (s : State) : (dmDropSlip d k1 k2 k3 s).windowDef i = s.windowDef i := by
  unfold dmDropSlip; (repeat' split) <;> simp [modEntry, modDelivery]
@[simp] theorem dmDropSlip_ringDepth (d k1 k2 k3 : Nat)  (s : State) : (dmDropSlip d k1 k2 k3 s).ringDepth = s.ringDepth := by
  unfold dmDropSlip; (repeat' split) <;> simp [modEntry, modDelivery]
@[simp] theorem dmDropSlip_usable (d k1 k2 k3 : Nat) (i : Nat) (s : State) : (dmDropSlip d k1 k2 k3 s).usable i = s.usable i := by
  unfold dmDropSlip; (repeat' split) <;> simp [modEntry, modDelivery]
@[simp] theorem dmDropSlip_lastSlot (d k1 k2 k3 : Nat) (i : Nat) (s : State) : (dmDropSlip d k1 k2 k3 s).lastSlot i = s.lastSlot i := by
  unfold dmDropSlip; (repeat' split) <;> simp [modEntry, modDelivery]

@[simp] theorem dmFreezeRepeat_cu (d : Nat) (s : State) : (dmFreezeRepeat d s).cu = s.cu := by
  unfold dmFreezeRepeat; (repeat' split) <;> simp [modEntry, modDelivery]
@[simp] theorem dmFreezeRepeat_tb (d : Nat) (s : State) : (dmFreezeRepeat d s).tb = s.tb := by
  unfold dmFreezeRepeat; (repeat' split) <;> simp [modEntry, modDelivery]
@[simp] theorem dmFreezeRepeat_fm (d : Nat) (s : State) : (dmFreezeRepeat d s).fm = s.fm := by
  unfold dmFreezeRepeat; (repeat' split) <;> simp [modEntry, modDelivery]
@[simp] theorem dmFreezeRepeat_bt (d : Nat) (s : State) : (dmFreezeRepeat d s).bt = s.bt := by
  unfold dmFreezeRepeat; (repeat' split) <;> simp [modEntry, modDelivery]
@[simp] theorem dmFreezeRepeat_ga (d : Nat) (s : State) : (dmFreezeRepeat d s).ga = s.ga := by
  unfold dmFreezeRepeat; (repeat' split) <;> simp [modEntry, modDelivery]
@[simp] theorem dmFreezeRepeat_ru (d : Nat) (s : State) : (dmFreezeRepeat d s).ru = s.ru := by
  unfold dmFreezeRepeat; (repeat' split) <;> simp [modEntry, modDelivery]
@[simp] theorem dmFreezeRepeat_mu (d : Nat) (s : State) : (dmFreezeRepeat d s).mu = s.mu := by
  unfold dmFreezeRepeat; (repeat' split) <;> simp [modEntry, modDelivery]
@[simp] theorem dmFreezeRepeat_pending (d : Nat) (s : State) : (dmFreezeRepeat d s).pending = s.pending := by
  unfold dmFreezeRepeat; (repeat' split) <;> simp [modEntry, modDelivery]
@[simp] theorem dmFreezeRepeat_lpu_mode (d : Nat) (s : State) : (dmFreezeRepeat d s).lpu.mode = s.lpu.mode := by
  unfold dmFreezeRepeat; (repeat' split) <;> simp [modEntry, modDelivery]
@[simp] theorem dmFreezeRepeat_lpu_depth (d : Nat) (s : State) : (dmFreezeRepeat d s).lpu.depth = s.lpu.depth := by
  unfold dmFreezeRepeat; (repeat' split) <;> simp [modEntry, modDelivery]
@[simp] theorem dmFreezeRepeat_lpu_rings (d : Nat) (s : State) : (dmFreezeRepeat d s).lpu.rings = s.lpu.rings := by
  unfold dmFreezeRepeat; (repeat' split) <;> simp [modEntry, modDelivery]
@[simp] theorem dmFreezeRepeat_lpu_windows (d : Nat) (s : State) : (dmFreezeRepeat d s).lpu.windows = s.lpu.windows := by
  unfold dmFreezeRepeat; (repeat' split) <;> simp [modEntry, modDelivery]
@[simp] theorem dmFreezeRepeat_lpu_latches (d : Nat) (s : State) : (dmFreezeRepeat d s).lpu.latches = s.lpu.latches := by
  unfold dmFreezeRepeat; (repeat' split) <;> simp [modEntry, modDelivery]
@[simp] theorem dmFreezeRepeat_lpu_holds (d : Nat) (s : State) : (dmFreezeRepeat d s).lpu.holds = s.lpu.holds := by
  unfold dmFreezeRepeat; (repeat' split) <;> simp [modEntry, modDelivery]
@[simp] theorem dmFreezeRepeat_lpu_forwarding (d : Nat) (s : State) : (dmFreezeRepeat d s).lpu.forwarding = s.lpu.forwarding := by
  unfold dmFreezeRepeat; (repeat' split) <;> simp [modEntry, modDelivery]
@[simp] theorem dmFreezeRepeat_lpu_decidedReads (d : Nat) (s : State) : (dmFreezeRepeat d s).lpu.decidedReads = s.lpu.decidedReads := by
  unfold dmFreezeRepeat; (repeat' split) <;> simp [modEntry, modDelivery]
@[simp] theorem dmFreezeRepeat_lpu_resetAsserted (d : Nat) (s : State) : (dmFreezeRepeat d s).lpu.resetAsserted = s.lpu.resetAsserted := by
  unfold dmFreezeRepeat; (repeat' split) <;> simp [modEntry, modDelivery]
@[simp] theorem dmFreezeRepeat_rw_pendingBilling (d : Nat) (s : State) : (dmFreezeRepeat d s).rw.pendingBilling = s.rw.pendingBilling := by
  unfold dmFreezeRepeat; (repeat' split) <;> simp [modEntry, modDelivery]
@[simp] theorem dmFreezeRepeat_route (d : Nat) (i : Nat) (s : State) : (dmFreezeRepeat d s).route i = s.route i := by
  unfold dmFreezeRepeat; (repeat' split) <;> simp [modEntry, modDelivery]
@[simp] theorem dmFreezeRepeat_destParams (d : Nat) (i : Nat) (s : State) : (dmFreezeRepeat d s).destParams i = s.destParams i := by
  unfold dmFreezeRepeat; (repeat' split) <;> simp [modEntry, modDelivery]
@[simp] theorem dmFreezeRepeat_entry (d : Nat) (i : Nat) (s : State) : (dmFreezeRepeat d s).entry i = s.entry i := by
  unfold dmFreezeRepeat; (repeat' split) <;> simp [modEntry, modDelivery]
@[simp] theorem dmFreezeRepeat_feedRec (d : Nat) (i : Nat) (s : State) : (dmFreezeRepeat d s).feedRec i = s.feedRec i := by
  unfold dmFreezeRepeat; (repeat' split) <;> simp [modEntry, modDelivery]
@[simp] theorem dmFreezeRepeat_feedParams (d : Nat) (i : Nat) (s : State) : (dmFreezeRepeat d s).feedParams i = s.feedParams i := by
  unfold dmFreezeRepeat; (repeat' split) <;> simp [modEntry, modDelivery]
@[simp] theorem dmFreezeRepeat_holder (d : Nat) (i : Nat) (s : State) : (dmFreezeRepeat d s).holder i = s.holder i := by
  unfold dmFreezeRepeat; (repeat' split) <;> simp [modEntry, modDelivery]
@[simp] theorem dmFreezeRepeat_grantQueue (d : Nat) (i : Nat) (s : State) : (dmFreezeRepeat d s).grantQueue i = s.grantQueue i := by
  unfold dmFreezeRepeat; (repeat' split) <;> simp [modEntry, modDelivery]
@[simp] theorem dmFreezeRepeat_tariff (d : Nat) (i : Nat) (s : State) : (dmFreezeRepeat d s).tariff i = s.tariff i := by
  unfold dmFreezeRepeat; (repeat' split) <;> simp [modEntry, modDelivery]
@[simp] theorem dmFreezeRepeat_ringDef (d : Nat) (i : Nat) (s : State) : (dmFreezeRepeat d s).ringDef i = s.ringDef i := by
  unfold dmFreezeRepeat; (repeat' split) <;> simp [modEntry, modDelivery]
@[simp] theorem dmFreezeRepeat_windowDef (d : Nat) (i : Nat) (s : State) : (dmFreezeRepeat d s).windowDef i = s.windowDef i := by
  unfold dmFreezeRepeat; (repeat' split) <;> simp [modEntry, modDelivery]
@[simp] theorem dmFreezeRepeat_ringDepth (d : Nat)  (s : State) : (dmFreezeRepeat d s).ringDepth = s.ringDepth := by
  unfold dmFreezeRepeat; (repeat' split) <;> simp [modEntry, modDelivery]
@[simp] theorem dmFreezeRepeat_usable (d : Nat) (i : Nat) (s : State) : (dmFreezeRepeat d s).usable i = s.usable i := by
  unfold dmFreezeRepeat; (repeat' split) <;> simp [modEntry, modDelivery]
@[simp] theorem dmFreezeRepeat_lastSlot (d : Nat) (i : Nat) (s : State) : (dmFreezeRepeat d s).lastSlot i = s.lastSlot i := by
  unfold dmFreezeRepeat; (repeat' split) <;> simp [modEntry, modDelivery]

@[simp] theorem dmLagAdjusted_cu (d k1 k2 : Nat) (s : State) : (dmLagAdjusted d k1 k2 s).cu = s.cu := by
  unfold dmLagAdjusted; (repeat' split) <;> simp [modEntry, modDelivery]
@[simp] theorem dmLagAdjusted_tb (d k1 k2 : Nat) (s : State) : (dmLagAdjusted d k1 k2 s).tb = s.tb := by
  unfold dmLagAdjusted; (repeat' split) <;> simp [modEntry, modDelivery]
@[simp] theorem dmLagAdjusted_fm (d k1 k2 : Nat) (s : State) : (dmLagAdjusted d k1 k2 s).fm = s.fm := by
  unfold dmLagAdjusted; (repeat' split) <;> simp [modEntry, modDelivery]
@[simp] theorem dmLagAdjusted_bt (d k1 k2 : Nat) (s : State) : (dmLagAdjusted d k1 k2 s).bt = s.bt := by
  unfold dmLagAdjusted; (repeat' split) <;> simp [modEntry, modDelivery]
@[simp] theorem dmLagAdjusted_ga (d k1 k2 : Nat) (s : State) : (dmLagAdjusted d k1 k2 s).ga = s.ga := by
  unfold dmLagAdjusted; (repeat' split) <;> simp [modEntry, modDelivery]
@[simp] theorem dmLagAdjusted_ru (d k1 k2 : Nat) (s : State) : (dmLagAdjusted d k1 k2 s).ru = s.ru := by
  unfold dmLagAdjusted; (repeat' split) <;> simp [modEntry, modDelivery]
@[simp] theorem dmLagAdjusted_mu (d k1 k2 : Nat) (s : State) : (dmLagAdjusted d k1 k2 s).mu = s.mu := by
  unfold dmLagAdjusted; (repeat' split) <;> simp [modEntry, modDelivery]
@[simp] theorem dmLagAdjusted_pending (d k1 k2 : Nat) (s : State) : (dmLagAdjusted d k1 k2 s).pending = s.pending := by
  unfold dmLagAdjusted; (repeat' split) <;> simp [modEntry, modDelivery]
@[simp] theorem dmLagAdjusted_lpu_mode (d k1 k2 : Nat) (s : State) : (dmLagAdjusted d k1 k2 s).lpu.mode = s.lpu.mode := by
  unfold dmLagAdjusted; (repeat' split) <;> simp [modEntry, modDelivery]
@[simp] theorem dmLagAdjusted_lpu_depth (d k1 k2 : Nat) (s : State) : (dmLagAdjusted d k1 k2 s).lpu.depth = s.lpu.depth := by
  unfold dmLagAdjusted; (repeat' split) <;> simp [modEntry, modDelivery]
@[simp] theorem dmLagAdjusted_lpu_rings (d k1 k2 : Nat) (s : State) : (dmLagAdjusted d k1 k2 s).lpu.rings = s.lpu.rings := by
  unfold dmLagAdjusted; (repeat' split) <;> simp [modEntry, modDelivery]
@[simp] theorem dmLagAdjusted_lpu_windows (d k1 k2 : Nat) (s : State) : (dmLagAdjusted d k1 k2 s).lpu.windows = s.lpu.windows := by
  unfold dmLagAdjusted; (repeat' split) <;> simp [modEntry, modDelivery]
@[simp] theorem dmLagAdjusted_lpu_latches (d k1 k2 : Nat) (s : State) : (dmLagAdjusted d k1 k2 s).lpu.latches = s.lpu.latches := by
  unfold dmLagAdjusted; (repeat' split) <;> simp [modEntry, modDelivery]
@[simp] theorem dmLagAdjusted_lpu_holds (d k1 k2 : Nat) (s : State) : (dmLagAdjusted d k1 k2 s).lpu.holds = s.lpu.holds := by
  unfold dmLagAdjusted; (repeat' split) <;> simp [modEntry, modDelivery]
@[simp] theorem dmLagAdjusted_lpu_forwarding (d k1 k2 : Nat) (s : State) : (dmLagAdjusted d k1 k2 s).lpu.forwarding = s.lpu.forwarding := by
  unfold dmLagAdjusted; (repeat' split) <;> simp [modEntry, modDelivery]
@[simp] theorem dmLagAdjusted_lpu_decidedReads (d k1 k2 : Nat) (s : State) : (dmLagAdjusted d k1 k2 s).lpu.decidedReads = s.lpu.decidedReads := by
  unfold dmLagAdjusted; (repeat' split) <;> simp [modEntry, modDelivery]
@[simp] theorem dmLagAdjusted_lpu_resetAsserted (d k1 k2 : Nat) (s : State) : (dmLagAdjusted d k1 k2 s).lpu.resetAsserted = s.lpu.resetAsserted := by
  unfold dmLagAdjusted; (repeat' split) <;> simp [modEntry, modDelivery]
@[simp] theorem dmLagAdjusted_rw_pendingBilling (d k1 k2 : Nat) (s : State) : (dmLagAdjusted d k1 k2 s).rw.pendingBilling = s.rw.pendingBilling := by
  unfold dmLagAdjusted; (repeat' split) <;> simp [modEntry, modDelivery]
@[simp] theorem dmLagAdjusted_route (d k1 k2 : Nat) (i : Nat) (s : State) : (dmLagAdjusted d k1 k2 s).route i = s.route i := by
  unfold dmLagAdjusted; (repeat' split) <;> simp [modEntry, modDelivery]
@[simp] theorem dmLagAdjusted_destParams (d k1 k2 : Nat) (i : Nat) (s : State) : (dmLagAdjusted d k1 k2 s).destParams i = s.destParams i := by
  unfold dmLagAdjusted; (repeat' split) <;> simp [modEntry, modDelivery]
@[simp] theorem dmLagAdjusted_entry (d k1 k2 : Nat) (i : Nat) (s : State) : (dmLagAdjusted d k1 k2 s).entry i = s.entry i := by
  unfold dmLagAdjusted; (repeat' split) <;> simp [modEntry, modDelivery]
@[simp] theorem dmLagAdjusted_feedRec (d k1 k2 : Nat) (i : Nat) (s : State) : (dmLagAdjusted d k1 k2 s).feedRec i = s.feedRec i := by
  unfold dmLagAdjusted; (repeat' split) <;> simp [modEntry, modDelivery]
@[simp] theorem dmLagAdjusted_feedParams (d k1 k2 : Nat) (i : Nat) (s : State) : (dmLagAdjusted d k1 k2 s).feedParams i = s.feedParams i := by
  unfold dmLagAdjusted; (repeat' split) <;> simp [modEntry, modDelivery]
@[simp] theorem dmLagAdjusted_holder (d k1 k2 : Nat) (i : Nat) (s : State) : (dmLagAdjusted d k1 k2 s).holder i = s.holder i := by
  unfold dmLagAdjusted; (repeat' split) <;> simp [modEntry, modDelivery]
@[simp] theorem dmLagAdjusted_grantQueue (d k1 k2 : Nat) (i : Nat) (s : State) : (dmLagAdjusted d k1 k2 s).grantQueue i = s.grantQueue i := by
  unfold dmLagAdjusted; (repeat' split) <;> simp [modEntry, modDelivery]
@[simp] theorem dmLagAdjusted_tariff (d k1 k2 : Nat) (i : Nat) (s : State) : (dmLagAdjusted d k1 k2 s).tariff i = s.tariff i := by
  unfold dmLagAdjusted; (repeat' split) <;> simp [modEntry, modDelivery]
@[simp] theorem dmLagAdjusted_ringDef (d k1 k2 : Nat) (i : Nat) (s : State) : (dmLagAdjusted d k1 k2 s).ringDef i = s.ringDef i := by
  unfold dmLagAdjusted; (repeat' split) <;> simp [modEntry, modDelivery]
@[simp] theorem dmLagAdjusted_windowDef (d k1 k2 : Nat) (i : Nat) (s : State) : (dmLagAdjusted d k1 k2 s).windowDef i = s.windowDef i := by
  unfold dmLagAdjusted; (repeat' split) <;> simp [modEntry, modDelivery]
@[simp] theorem dmLagAdjusted_ringDepth (d k1 k2 : Nat)  (s : State) : (dmLagAdjusted d k1 k2 s).ringDepth = s.ringDepth := by
  unfold dmLagAdjusted; (repeat' split) <;> simp [modEntry, modDelivery]
@[simp] theorem dmLagAdjusted_usable (d k1 k2 : Nat) (i : Nat) (s : State) : (dmLagAdjusted d k1 k2 s).usable i = s.usable i := by
  unfold dmLagAdjusted; (repeat' split) <;> simp [modEntry, modDelivery]
@[simp] theorem dmLagAdjusted_lastSlot (d k1 k2 : Nat) (i : Nat) (s : State) : (dmLagAdjusted d k1 k2 s).lastSlot i = s.lastSlot i := by
  unfold dmLagAdjusted; (repeat' split) <;> simp [modEntry, modDelivery]

@[simp] theorem dmAskLagRepeat_cu (d : Nat) (s : State) : (dmAskLagRepeat d s).cu = s.cu := by
  unfold dmAskLagRepeat; (repeat' split) <;> simp [modEntry, modDelivery]
@[simp] theorem dmAskLagRepeat_tb (d : Nat) (s : State) : (dmAskLagRepeat d s).tb = s.tb := by
  unfold dmAskLagRepeat; (repeat' split) <;> simp [modEntry, modDelivery]
@[simp] theorem dmAskLagRepeat_fm (d : Nat) (s : State) : (dmAskLagRepeat d s).fm = s.fm := by
  unfold dmAskLagRepeat; (repeat' split) <;> simp [modEntry, modDelivery]
@[simp] theorem dmAskLagRepeat_bt (d : Nat) (s : State) : (dmAskLagRepeat d s).bt = s.bt := by
  unfold dmAskLagRepeat; (repeat' split) <;> simp [modEntry, modDelivery]
@[simp] theorem dmAskLagRepeat_ga (d : Nat) (s : State) : (dmAskLagRepeat d s).ga = s.ga := by
  unfold dmAskLagRepeat; (repeat' split) <;> simp [modEntry, modDelivery]
@[simp] theorem dmAskLagRepeat_dm (d : Nat) (s : State) : (dmAskLagRepeat d s).dm = s.dm := by
  unfold dmAskLagRepeat; (repeat' split) <;> simp [modEntry, modDelivery]
@[simp] theorem dmAskLagRepeat_mu (d : Nat) (s : State) : (dmAskLagRepeat d s).mu = s.mu := by
  unfold dmAskLagRepeat; (repeat' split) <;> simp [modEntry, modDelivery]
@[simp] theorem dmAskLagRepeat_pending (d : Nat) (s : State) : (dmAskLagRepeat d s).pending = s.pending := by
  unfold dmAskLagRepeat; (repeat' split) <;> simp [modEntry, modDelivery]
@[simp] theorem dmAskLagRepeat_lpu_mode (d : Nat) (s : State) : (dmAskLagRepeat d s).lpu.mode = s.lpu.mode := by
  unfold dmAskLagRepeat; (repeat' split) <;> simp [modEntry, modDelivery]
@[simp] theorem dmAskLagRepeat_lpu_depth (d : Nat) (s : State) : (dmAskLagRepeat d s).lpu.depth = s.lpu.depth := by
  unfold dmAskLagRepeat; (repeat' split) <;> simp [modEntry, modDelivery]
@[simp] theorem dmAskLagRepeat_lpu_rings (d : Nat) (s : State) : (dmAskLagRepeat d s).lpu.rings = s.lpu.rings := by
  unfold dmAskLagRepeat; (repeat' split) <;> simp [modEntry, modDelivery]
@[simp] theorem dmAskLagRepeat_lpu_windows (d : Nat) (s : State) : (dmAskLagRepeat d s).lpu.windows = s.lpu.windows := by
  unfold dmAskLagRepeat; (repeat' split) <;> simp [modEntry, modDelivery]
@[simp] theorem dmAskLagRepeat_lpu_latches (d : Nat) (s : State) : (dmAskLagRepeat d s).lpu.latches = s.lpu.latches := by
  unfold dmAskLagRepeat; (repeat' split) <;> simp [modEntry, modDelivery]
@[simp] theorem dmAskLagRepeat_lpu_holds (d : Nat) (s : State) : (dmAskLagRepeat d s).lpu.holds = s.lpu.holds := by
  unfold dmAskLagRepeat; (repeat' split) <;> simp [modEntry, modDelivery]
@[simp] theorem dmAskLagRepeat_lpu_forwarding (d : Nat) (s : State) : (dmAskLagRepeat d s).lpu.forwarding = s.lpu.forwarding := by
  unfold dmAskLagRepeat; (repeat' split) <;> simp [modEntry, modDelivery]
@[simp] theorem dmAskLagRepeat_lpu_decidedReads (d : Nat) (s : State) : (dmAskLagRepeat d s).lpu.decidedReads = s.lpu.decidedReads := by
  unfold dmAskLagRepeat; (repeat' split) <;> simp [modEntry, modDelivery]
@[simp] theorem dmAskLagRepeat_lpu_resetAsserted (d : Nat) (s : State) : (dmAskLagRepeat d s).lpu.resetAsserted = s.lpu.resetAsserted := by
  unfold dmAskLagRepeat; (repeat' split) <;> simp [modEntry, modDelivery]
@[simp] theorem dmAskLagRepeat_rw_pendingBilling (d : Nat) (s : State) : (dmAskLagRepeat d s).rw.pendingBilling = s.rw.pendingBilling := by
  unfold dmAskLagRepeat; (repeat' split) <;> simp [modEntry, modDelivery]
@[simp] theorem dmAskLagRepeat_destParams (d : Nat) (i : Nat) (s : State) : (dmAskLagRepeat d s).destParams i = s.destParams i := by
  unfold dmAskLagRepeat; (repeat' split) <;> simp [modEntry, modDelivery]
@[simp] theorem dmAskLagRepeat_entry (d : Nat) (i : Nat) (s : State) : (dmAskLagRepeat d s).entry i = s.entry i := by
  unfold dmAskLagRepeat; (repeat' split) <;> simp [modEntry, modDelivery]
@[simp] theorem dmAskLagRepeat_feedRec (d : Nat) (i : Nat) (s : State) : (dmAskLagRepeat d s).feedRec i = s.feedRec i := by
  unfold dmAskLagRepeat; (repeat' split) <;> simp [modEntry, modDelivery]
@[simp] theorem dmAskLagRepeat_feedParams (d : Nat) (i : Nat) (s : State) : (dmAskLagRepeat d s).feedParams i = s.feedParams i := by
  unfold dmAskLagRepeat; (repeat' split) <;> simp [modEntry, modDelivery]
@[simp] theorem dmAskLagRepeat_holder (d : Nat) (i : Nat) (s : State) : (dmAskLagRepeat d s).holder i = s.holder i := by
  unfold dmAskLagRepeat; (repeat' split) <;> simp [modEntry, modDelivery]
@[simp] theorem dmAskLagRepeat_grantQueue (d : Nat) (i : Nat) (s : State) : (dmAskLagRepeat d s).grantQueue i = s.grantQueue i := by
  unfold dmAskLagRepeat; (repeat' split) <;> simp [modEntry, modDelivery]
@[simp] theorem dmAskLagRepeat_delivery (d : Nat) (i : Nat) (s : State) : (dmAskLagRepeat d s).delivery i = s.delivery i := by
  unfold dmAskLagRepeat; (repeat' split) <;> simp [modEntry, modDelivery]
@[simp] theorem dmAskLagRepeat_tariff (d : Nat) (i : Nat) (s : State) : (dmAskLagRepeat d s).tariff i = s.tariff i := by
  unfold dmAskLagRepeat; (repeat' split) <;> simp [modEntry, modDelivery]
@[simp] theorem dmAskLagRepeat_ringDef (d : Nat) (i : Nat) (s : State) : (dmAskLagRepeat d s).ringDef i = s.ringDef i := by
  unfold dmAskLagRepeat; (repeat' split) <;> simp [modEntry, modDelivery]
@[simp] theorem dmAskLagRepeat_windowDef (d : Nat) (i : Nat) (s : State) : (dmAskLagRepeat d s).windowDef i = s.windowDef i := by
  unfold dmAskLagRepeat; (repeat' split) <;> simp [modEntry, modDelivery]
@[simp] theorem dmAskLagRepeat_ringDepth (d : Nat)  (s : State) : (dmAskLagRepeat d s).ringDepth = s.ringDepth := by
  unfold dmAskLagRepeat; (repeat' split) <;> simp [modEntry, modDelivery]
@[simp] theorem dmAskLagRepeat_usable (d : Nat) (i : Nat) (s : State) : (dmAskLagRepeat d s).usable i = s.usable i := by
  unfold dmAskLagRepeat; (repeat' split) <;> simp [modEntry, modDelivery]
@[simp] theorem dmAskLagRepeat_lastSlot (d : Nat) (i : Nat) (s : State) : (dmAskLagRepeat d s).lastSlot i = s.lastSlot i := by
  unfold dmAskLagRepeat; (repeat' split) <;> simp [modEntry, modDelivery]

@[simp] theorem dmAskLagReset_cu (d : Nat) (s : State) : (dmAskLagReset d s).cu = s.cu := by
  unfold dmAskLagReset; (repeat' split) <;> simp [modEntry, modDelivery]
@[simp] theorem dmAskLagReset_tb (d : Nat) (s : State) : (dmAskLagReset d s).tb = s.tb := by
  unfold dmAskLagReset; (repeat' split) <;> simp [modEntry, modDelivery]
@[simp] theorem dmAskLagReset_fm (d : Nat) (s : State) : (dmAskLagReset d s).fm = s.fm := by
  unfold dmAskLagReset; (repeat' split) <;> simp [modEntry, modDelivery]
@[simp] theorem dmAskLagReset_bt (d : Nat) (s : State) : (dmAskLagReset d s).bt = s.bt := by
  unfold dmAskLagReset; (repeat' split) <;> simp [modEntry, modDelivery]
@[simp] theorem dmAskLagReset_ga (d : Nat) (s : State) : (dmAskLagReset d s).ga = s.ga := by
  unfold dmAskLagReset; (repeat' split) <;> simp [modEntry, modDelivery]
@[simp] theorem dmAskLagReset_dm (d : Nat) (s : State) : (dmAskLagReset d s).dm = s.dm := by
  unfold dmAskLagReset; (repeat' split) <;> simp [modEntry, modDelivery]
@[simp] theorem dmAskLagReset_mu (d : Nat) (s : State) : (dmAskLagReset d s).mu = s.mu := by
  unfold dmAskLagReset; (repeat' split) <;> simp [modEntry, modDelivery]
@[simp] theorem dmAskLagReset_pending (d : Nat) (s : State) : (dmAskLagReset d s).pending = s.pending := by
  unfold dmAskLagReset; (repeat' split) <;> simp [modEntry, modDelivery]
@[simp] theorem dmAskLagReset_lpu_mode (d : Nat) (s : State) : (dmAskLagReset d s).lpu.mode = s.lpu.mode := by
  unfold dmAskLagReset; (repeat' split) <;> simp [modEntry, modDelivery]
@[simp] theorem dmAskLagReset_lpu_depth (d : Nat) (s : State) : (dmAskLagReset d s).lpu.depth = s.lpu.depth := by
  unfold dmAskLagReset; (repeat' split) <;> simp [modEntry, modDelivery]
@[simp] theorem dmAskLagReset_lpu_rings (d : Nat) (s : State) : (dmAskLagReset d s).lpu.rings = s.lpu.rings := by
  unfold dmAskLagReset; (repeat' split) <;> simp [modEntry, modDelivery]
@[simp] theorem dmAskLagReset_lpu_windows (d : Nat) (s : State) : (dmAskLagReset d s).lpu.windows = s.lpu.windows := by
  unfold dmAskLagReset; (repeat' split) <;> simp [modEntry, modDelivery]
@[simp] theorem dmAskLagReset_lpu_latches (d : Nat) (s : State) : (dmAskLagReset d s).lpu.latches = s.lpu.latches := by
  unfold dmAskLagReset; (repeat' split) <;> simp [modEntry, modDelivery]
@[simp] theorem dmAskLagReset_lpu_holds (d : Nat) (s : State) : (dmAskLagReset d s).lpu.holds = s.lpu.holds := by
  unfold dmAskLagReset; (repeat' split) <;> simp [modEntry, modDelivery]
@[simp] theorem dmAskLagReset_lpu_forwarding (d : Nat) (s : State) : (dmAskLagReset d s).lpu.forwarding = s.lpu.forwarding := by
  unfold dmAskLagReset; (repeat' split) <;> simp [modEntry, modDelivery]
@[simp] theorem dmAskLagReset_lpu_decidedReads (d : Nat) (s : State) : (dmAskLagReset d s).lpu.decidedReads = s.lpu.decidedReads := by
  unfold dmAskLagReset; (repeat' split) <;> simp [modEntry, modDelivery]
@[simp] theorem dmAskLagReset_lpu_resetAsserted (d : Nat) (s : State) : (dmAskLagReset d s).lpu.resetAsserted = s.lpu.resetAsserted := by
  unfold dmAskLagReset; (repeat' split) <;> simp [modEntry, modDelivery]
@[simp] theorem dmAskLagReset_rw_pendingBilling (d : Nat) (s : State) : (dmAskLagReset d s).rw.pendingBilling = s.rw.pendingBilling := by
  unfold dmAskLagReset; (repeat' split) <;> simp [modEntry, modDelivery]
@[simp] theorem dmAskLagReset_destParams (d : Nat) (i : Nat) (s : State) : (dmAskLagReset d s).destParams i = s.destParams i := by
  unfold dmAskLagReset; (repeat' split) <;> simp [modEntry, modDelivery]
@[simp] theorem dmAskLagReset_entry (d : Nat) (i : Nat) (s : State) : (dmAskLagReset d s).entry i = s.entry i := by
  unfold dmAskLagReset; (repeat' split) <;> simp [modEntry, modDelivery]
@[simp] theorem dmAskLagReset_feedRec (d : Nat) (i : Nat) (s : State) : (dmAskLagReset d s).feedRec i = s.feedRec i := by
  unfold dmAskLagReset; (repeat' split) <;> simp [modEntry, modDelivery]
@[simp] theorem dmAskLagReset_feedParams (d : Nat) (i : Nat) (s : State) : (dmAskLagReset d s).feedParams i = s.feedParams i := by
  unfold dmAskLagReset; (repeat' split) <;> simp [modEntry, modDelivery]
@[simp] theorem dmAskLagReset_holder (d : Nat) (i : Nat) (s : State) : (dmAskLagReset d s).holder i = s.holder i := by
  unfold dmAskLagReset; (repeat' split) <;> simp [modEntry, modDelivery]
@[simp] theorem dmAskLagReset_grantQueue (d : Nat) (i : Nat) (s : State) : (dmAskLagReset d s).grantQueue i = s.grantQueue i := by
  unfold dmAskLagReset; (repeat' split) <;> simp [modEntry, modDelivery]
@[simp] theorem dmAskLagReset_delivery (d : Nat) (i : Nat) (s : State) : (dmAskLagReset d s).delivery i = s.delivery i := by
  unfold dmAskLagReset; (repeat' split) <;> simp [modEntry, modDelivery]
@[simp] theorem dmAskLagReset_tariff (d : Nat) (i : Nat) (s : State) : (dmAskLagReset d s).tariff i = s.tariff i := by
  unfold dmAskLagReset; (repeat' split) <;> simp [modEntry, modDelivery]
@[simp] theorem dmAskLagReset_ringDef (d : Nat) (i : Nat) (s : State) : (dmAskLagReset d s).ringDef i = s.ringDef i := by
  unfold dmAskLagReset; (repeat' split) <;> simp [modEntry, modDelivery]
@[simp] theorem dmAskLagReset_windowDef (d : Nat) (i : Nat) (s : State) : (dmAskLagReset d s).windowDef i = s.windowDef i := by
  unfold dmAskLagReset; (repeat' split) <;> simp [modEntry, modDelivery]
@[simp] theorem dmAskLagReset_ringDepth (d : Nat)  (s : State) : (dmAskLagReset d s).ringDepth = s.ringDepth := by
  unfold dmAskLagReset; (repeat' split) <;> simp [modEntry, modDelivery]
@[simp] theorem dmAskLagReset_usable (d : Nat) (i : Nat) (s : State) : (dmAskLagReset d s).usable i = s.usable i := by
  unfold dmAskLagReset; (repeat' split) <;> simp [modEntry, modDelivery]
@[simp] theorem dmAskLagReset_lastSlot (d : Nat) (i : Nat) (s : State) : (dmAskLagReset d s).lastSlot i = s.lastSlot i := by
  unfold dmAskLagReset; (repeat' split) <;> simp [modEntry, modDelivery]

@[simp] theorem ruRequestTake_cu (d t : Nat) (r : TakeReason) (s : State) : (ruRequestTake d t r s).cu = s.cu := by
  unfold ruRequestTake; (repeat' split) <;> simp [modEntry, modDelivery]
@[simp] theorem ruRequestTake_tb (d t : Nat) (r : TakeReason) (s : State) : (ruRequestTake d t r s).tb = s.tb := by
  unfold ruRequestTake; (repeat' split) <;> simp [modEntry, modDelivery]
@[simp] theorem ruRequestTake_fm (d t : Nat) (r : TakeReason) (s : State) : (ruRequestTake d t r s).fm = s.fm := by
  unfold ruRequestTake; (repeat' split) <;> simp [modEntry, modDelivery]
@[simp] theorem ruRequestTake_bt (d t : Nat) (r : TakeReason) (s : State) : (ruRequestTake d t r s).bt = s.bt := by
  unfold ruRequestTake; (repeat' split) <;> simp [modEntry, modDelivery]
@[simp] theorem ruRequestTake_ga (d t : Nat) (r : TakeReason) (s : State) : (ruRequestTake d t r s).ga = s.ga := by
  unfold ruRequestTake; (repeat' split) <;> simp [modEntry, modDelivery]
@[simp] theorem ruRequestTake_dm (d t : Nat) (r : TakeReason) (s : State) : (ruRequestTake d t r s).dm = s.dm := by
  unfold ruRequestTake; (repeat' split) <;> simp [modEntry, modDelivery]
@[simp] theorem ruRequestTake_mu (d t : Nat) (r : TakeReason) (s : State) : (ruRequestTake d t r s).mu = s.mu := by
  unfold ruRequestTake; (repeat' split) <;> simp [modEntry, modDelivery]
@[simp] theorem ruRequestTake_pending (d t : Nat) (r : TakeReason) (s : State) : (ruRequestTake d t r s).pending = s.pending := by
  unfold ruRequestTake; (repeat' split) <;> simp [modEntry, modDelivery]
@[simp] theorem ruRequestTake_lpu_mode (d t : Nat) (r : TakeReason) (s : State) : (ruRequestTake d t r s).lpu.mode = s.lpu.mode := by
  unfold ruRequestTake; (repeat' split) <;> simp [modEntry, modDelivery]
@[simp] theorem ruRequestTake_lpu_depth (d t : Nat) (r : TakeReason) (s : State) : (ruRequestTake d t r s).lpu.depth = s.lpu.depth := by
  unfold ruRequestTake; (repeat' split) <;> simp [modEntry, modDelivery]
@[simp] theorem ruRequestTake_lpu_rings (d t : Nat) (r : TakeReason) (s : State) : (ruRequestTake d t r s).lpu.rings = s.lpu.rings := by
  unfold ruRequestTake; (repeat' split) <;> simp [modEntry, modDelivery]
@[simp] theorem ruRequestTake_lpu_windows (d t : Nat) (r : TakeReason) (s : State) : (ruRequestTake d t r s).lpu.windows = s.lpu.windows := by
  unfold ruRequestTake; (repeat' split) <;> simp [modEntry, modDelivery]
@[simp] theorem ruRequestTake_lpu_latches (d t : Nat) (r : TakeReason) (s : State) : (ruRequestTake d t r s).lpu.latches = s.lpu.latches := by
  unfold ruRequestTake; (repeat' split) <;> simp [modEntry, modDelivery]
@[simp] theorem ruRequestTake_lpu_holds (d t : Nat) (r : TakeReason) (s : State) : (ruRequestTake d t r s).lpu.holds = s.lpu.holds := by
  unfold ruRequestTake; (repeat' split) <;> simp [modEntry, modDelivery]
@[simp] theorem ruRequestTake_lpu_forwarding (d t : Nat) (r : TakeReason) (s : State) : (ruRequestTake d t r s).lpu.forwarding = s.lpu.forwarding := by
  unfold ruRequestTake; (repeat' split) <;> simp [modEntry, modDelivery]
@[simp] theorem ruRequestTake_lpu_decidedReads (d t : Nat) (r : TakeReason) (s : State) : (ruRequestTake d t r s).lpu.decidedReads = s.lpu.decidedReads := by
  unfold ruRequestTake; (repeat' split) <;> simp [modEntry, modDelivery]
@[simp] theorem ruRequestTake_lpu_resetAsserted (d t : Nat) (r : TakeReason) (s : State) : (ruRequestTake d t r s).lpu.resetAsserted = s.lpu.resetAsserted := by
  unfold ruRequestTake; (repeat' split) <;> simp [modEntry, modDelivery]
@[simp] theorem ruRequestTake_rw_pendingBilling (d t : Nat) (r : TakeReason) (s : State) : (ruRequestTake d t r s).rw.pendingBilling = s.rw.pendingBilling := by
  unfold ruRequestTake; (repeat' split) <;> simp [modEntry, modDelivery]
@[simp] theorem ruRequestTake_destParams (d t : Nat) (r : TakeReason) (i : Nat) (s : State) : (ruRequestTake d t r s).destParams i = s.destParams i := by
  unfold ruRequestTake; (repeat' split) <;> simp [modEntry, modDelivery]
@[simp] theorem ruRequestTake_entry (d t : Nat) (r : TakeReason) (i : Nat) (s : State) : (ruRequestTake d t r s).entry i = s.entry i := by
  unfold ruRequestTake; (repeat' split) <;> simp [modEntry, modDelivery]
@[simp] theorem ruRequestTake_feedRec (d t : Nat) (r : TakeReason) (i : Nat) (s : State) : (ruRequestTake d t r s).feedRec i = s.feedRec i := by
  unfold ruRequestTake; (repeat' split) <;> simp [modEntry, modDelivery]
@[simp] theorem ruRequestTake_feedParams (d t : Nat) (r : TakeReason) (i : Nat) (s : State) : (ruRequestTake d t r s).feedParams i = s.feedParams i := by
  unfold ruRequestTake; (repeat' split) <;> simp [modEntry, modDelivery]
@[simp] theorem ruRequestTake_holder (d t : Nat) (r : TakeReason) (i : Nat) (s : State) : (ruRequestTake d t r s).holder i = s.holder i := by
  unfold ruRequestTake; (repeat' split) <;> simp [modEntry, modDelivery]
@[simp] theorem ruRequestTake_grantQueue (d t : Nat) (r : TakeReason) (i : Nat) (s : State) : (ruRequestTake d t r s).grantQueue i = s.grantQueue i := by
  unfold ruRequestTake; (repeat' split) <;> simp [modEntry, modDelivery]
@[simp] theorem ruRequestTake_delivery (d t : Nat) (r : TakeReason) (i : Nat) (s : State) : (ruRequestTake d t r s).delivery i = s.delivery i := by
  unfold ruRequestTake; (repeat' split) <;> simp [modEntry, modDelivery]
@[simp] theorem ruRequestTake_tariff (d t : Nat) (r : TakeReason) (i : Nat) (s : State) : (ruRequestTake d t r s).tariff i = s.tariff i := by
  unfold ruRequestTake; (repeat' split) <;> simp [modEntry, modDelivery]
@[simp] theorem ruRequestTake_ringDef (d t : Nat) (r : TakeReason) (i : Nat) (s : State) : (ruRequestTake d t r s).ringDef i = s.ringDef i := by
  unfold ruRequestTake; (repeat' split) <;> simp [modEntry, modDelivery]
@[simp] theorem ruRequestTake_windowDef (d t : Nat) (r : TakeReason) (i : Nat) (s : State) : (ruRequestTake d t r s).windowDef i = s.windowDef i := by
  unfold ruRequestTake; (repeat' split) <;> simp [modEntry, modDelivery]
@[simp] theorem ruRequestTake_ringDepth (d t : Nat) (r : TakeReason)  (s : State) : (ruRequestTake d t r s).ringDepth = s.ringDepth := by
  unfold ruRequestTake; (repeat' split) <;> simp [modEntry, modDelivery]
@[simp] theorem ruRequestTake_usable (d t : Nat) (r : TakeReason) (i : Nat) (s : State) : (ruRequestTake d t r s).usable i = s.usable i := by
  unfold ruRequestTake; (repeat' split) <;> simp [modEntry, modDelivery]
@[simp] theorem ruRequestTake_lastSlot (d t : Nat) (r : TakeReason) (i : Nat) (s : State) : (ruRequestTake d t r s).lastSlot i = s.lastSlot i := by
  unfold ruRequestTake; (repeat' split) <;> simp [modEntry, modDelivery]

@[simp] theorem ruRestore_cu (d : Nat) (s : State) : (ruRestore d s).cu = s.cu := by
  unfold ruRestore; (repeat' split) <;> simp [modEntry, modDelivery]
@[simp] theorem ruRestore_tb (d : Nat) (s : State) : (ruRestore d s).tb = s.tb := by
  unfold ruRestore; (repeat' split) <;> simp [modEntry, modDelivery]
@[simp] theorem ruRestore_fm (d : Nat) (s : State) : (ruRestore d s).fm = s.fm := by
  unfold ruRestore; (repeat' split) <;> simp [modEntry, modDelivery]
@[simp] theorem ruRestore_bt (d : Nat) (s : State) : (ruRestore d s).bt = s.bt := by
  unfold ruRestore; (repeat' split) <;> simp [modEntry, modDelivery]
@[simp] theorem ruRestore_ga (d : Nat) (s : State) : (ruRestore d s).ga = s.ga := by
  unfold ruRestore; (repeat' split) <;> simp [modEntry, modDelivery]
@[simp] theorem ruRestore_dm (d : Nat) (s : State) : (ruRestore d s).dm = s.dm := by
  unfold ruRestore; (repeat' split) <;> simp [modEntry, modDelivery]
@[simp] theorem ruRestore_mu (d : Nat) (s : State) : (ruRestore d s).mu = s.mu := by
  unfold ruRestore; (repeat' split) <;> simp [modEntry, modDelivery]
@[simp] theorem ruRestore_pending (d : Nat) (s : State) : (ruRestore d s).pending = s.pending := by
  unfold ruRestore; (repeat' split) <;> simp [modEntry, modDelivery]
@[simp] theorem ruRestore_lpu_mode (d : Nat) (s : State) : (ruRestore d s).lpu.mode = s.lpu.mode := by
  unfold ruRestore; (repeat' split) <;> simp [modEntry, modDelivery]
@[simp] theorem ruRestore_lpu_depth (d : Nat) (s : State) : (ruRestore d s).lpu.depth = s.lpu.depth := by
  unfold ruRestore; (repeat' split) <;> simp [modEntry, modDelivery]
@[simp] theorem ruRestore_lpu_rings (d : Nat) (s : State) : (ruRestore d s).lpu.rings = s.lpu.rings := by
  unfold ruRestore; (repeat' split) <;> simp [modEntry, modDelivery]
@[simp] theorem ruRestore_lpu_windows (d : Nat) (s : State) : (ruRestore d s).lpu.windows = s.lpu.windows := by
  unfold ruRestore; (repeat' split) <;> simp [modEntry, modDelivery]
@[simp] theorem ruRestore_lpu_latches (d : Nat) (s : State) : (ruRestore d s).lpu.latches = s.lpu.latches := by
  unfold ruRestore; (repeat' split) <;> simp [modEntry, modDelivery]
@[simp] theorem ruRestore_lpu_holds (d : Nat) (s : State) : (ruRestore d s).lpu.holds = s.lpu.holds := by
  unfold ruRestore; (repeat' split) <;> simp [modEntry, modDelivery]
@[simp] theorem ruRestore_lpu_forwarding (d : Nat) (s : State) : (ruRestore d s).lpu.forwarding = s.lpu.forwarding := by
  unfold ruRestore; (repeat' split) <;> simp [modEntry, modDelivery]
@[simp] theorem ruRestore_lpu_decidedReads (d : Nat) (s : State) : (ruRestore d s).lpu.decidedReads = s.lpu.decidedReads := by
  unfold ruRestore; (repeat' split) <;> simp [modEntry, modDelivery]
@[simp] theorem ruRestore_lpu_resetAsserted (d : Nat) (s : State) : (ruRestore d s).lpu.resetAsserted = s.lpu.resetAsserted := by
  unfold ruRestore; (repeat' split) <;> simp [modEntry, modDelivery]
@[simp] theorem ruRestore_rw_pendingBilling (d : Nat) (s : State) : (ruRestore d s).rw.pendingBilling = s.rw.pendingBilling := by
  unfold ruRestore; (repeat' split) <;> simp [modEntry, modDelivery]
@[simp] theorem ruRestore_destParams (d : Nat) (i : Nat) (s : State) : (ruRestore d s).destParams i = s.destParams i := by
  unfold ruRestore; (repeat' split) <;> simp [modEntry, modDelivery]
@[simp] theorem ruRestore_entry (d : Nat) (i : Nat) (s : State) : (ruRestore d s).entry i = s.entry i := by
  unfold ruRestore; (repeat' split) <;> simp [modEntry, modDelivery]
@[simp] theorem ruRestore_feedRec (d : Nat) (i : Nat) (s : State) : (ruRestore d s).feedRec i = s.feedRec i := by
  unfold ruRestore; (repeat' split) <;> simp [modEntry, modDelivery]
@[simp] theorem ruRestore_feedParams (d : Nat) (i : Nat) (s : State) : (ruRestore d s).feedParams i = s.feedParams i := by
  unfold ruRestore; (repeat' split) <;> simp [modEntry, modDelivery]
@[simp] theorem ruRestore_holder (d : Nat) (i : Nat) (s : State) : (ruRestore d s).holder i = s.holder i := by
  unfold ruRestore; (repeat' split) <;> simp [modEntry, modDelivery]
@[simp] theorem ruRestore_grantQueue (d : Nat) (i : Nat) (s : State) : (ruRestore d s).grantQueue i = s.grantQueue i := by
  unfold ruRestore; (repeat' split) <;> simp [modEntry, modDelivery]
@[simp] theorem ruRestore_delivery (d : Nat) (i : Nat) (s : State) : (ruRestore d s).delivery i = s.delivery i := by
  unfold ruRestore; (repeat' split) <;> simp [modEntry, modDelivery]
@[simp] theorem ruRestore_tariff (d : Nat) (i : Nat) (s : State) : (ruRestore d s).tariff i = s.tariff i := by
  unfold ruRestore; (repeat' split) <;> simp [modEntry, modDelivery]
@[simp] theorem ruRestore_ringDef (d : Nat) (i : Nat) (s : State) : (ruRestore d s).ringDef i = s.ringDef i := by
  unfold ruRestore; (repeat' split) <;> simp [modEntry, modDelivery]
@[simp] theorem ruRestore_windowDef (d : Nat) (i : Nat) (s : State) : (ruRestore d s).windowDef i = s.windowDef i := by
  unfold ruRestore; (repeat' split) <;> simp [modEntry, modDelivery]
@[simp] theorem ruRestore_ringDepth (d : Nat)  (s : State) : (ruRestore d s).ringDepth = s.ringDepth := by
  unfold ruRestore; (repeat' split) <;> simp [modEntry, modDelivery]
@[simp] theorem ruRestore_usable (d : Nat) (i : Nat) (s : State) : (ruRestore d s).usable i = s.usable i := by
  unfold ruRestore; (repeat' split) <;> simp [modEntry, modDelivery]
@[simp] theorem ruRestore_lastSlot (d : Nat) (i : Nat) (s : State) : (ruRestore d s).lastSlot i = s.lastSlot i := by
  unfold ruRestore; (repeat' split) <;> simp [modEntry, modDelivery]

@[simp] theorem ruFailoverTake_cu (d h t : Nat) (s : State) : (ruFailoverTake d h t s).cu = s.cu := by
  unfold ruFailoverTake; (repeat' split) <;> simp [modEntry, modDelivery]
@[simp] theorem ruFailoverTake_tb (d h t : Nat) (s : State) : (ruFailoverTake d h t s).tb = s.tb := by
  unfold ruFailoverTake; (repeat' split) <;> simp [modEntry, modDelivery]
@[simp] theorem ruFailoverTake_fm (d h t : Nat) (s : State) : (ruFailoverTake d h t s).fm = s.fm := by
  unfold ruFailoverTake; (repeat' split) <;> simp [modEntry, modDelivery]
@[simp] theorem ruFailoverTake_ga (d h t : Nat) (s : State) : (ruFailoverTake d h t s).ga = s.ga := by
  unfold ruFailoverTake; (repeat' split) <;> simp [modEntry, modDelivery]
@[simp] theorem ruFailoverTake_dm (d h t : Nat) (s : State) : (ruFailoverTake d h t s).dm = s.dm := by
  unfold ruFailoverTake; (repeat' split) <;> simp [modEntry, modDelivery]
@[simp] theorem ruFailoverTake_mu (d h t : Nat) (s : State) : (ruFailoverTake d h t s).mu = s.mu := by
  unfold ruFailoverTake; (repeat' split) <;> simp [modEntry, modDelivery]
@[simp] theorem ruFailoverTake_pending (d h t : Nat) (s : State) : (ruFailoverTake d h t s).pending = s.pending := by
  unfold ruFailoverTake; (repeat' split) <;> simp [modEntry, modDelivery]
@[simp] theorem ruFailoverTake_lpu_mode (d h t : Nat) (s : State) : (ruFailoverTake d h t s).lpu.mode = s.lpu.mode := by
  unfold ruFailoverTake; (repeat' split) <;> simp [modEntry, modDelivery]
@[simp] theorem ruFailoverTake_lpu_depth (d h t : Nat) (s : State) : (ruFailoverTake d h t s).lpu.depth = s.lpu.depth := by
  unfold ruFailoverTake; (repeat' split) <;> simp [modEntry, modDelivery]
@[simp] theorem ruFailoverTake_lpu_rings (d h t : Nat) (s : State) : (ruFailoverTake d h t s).lpu.rings = s.lpu.rings := by
  unfold ruFailoverTake; (repeat' split) <;> simp [modEntry, modDelivery]
@[simp] theorem ruFailoverTake_lpu_windows (d h t : Nat) (s : State) : (ruFailoverTake d h t s).lpu.windows = s.lpu.windows := by
  unfold ruFailoverTake; (repeat' split) <;> simp [modEntry, modDelivery]
@[simp] theorem ruFailoverTake_lpu_latches (d h t : Nat) (s : State) : (ruFailoverTake d h t s).lpu.latches = s.lpu.latches := by
  unfold ruFailoverTake; (repeat' split) <;> simp [modEntry, modDelivery]
@[simp] theorem ruFailoverTake_lpu_holds (d h t : Nat) (s : State) : (ruFailoverTake d h t s).lpu.holds = s.lpu.holds := by
  unfold ruFailoverTake; (repeat' split) <;> simp [modEntry, modDelivery]
@[simp] theorem ruFailoverTake_lpu_forwarding (d h t : Nat) (s : State) : (ruFailoverTake d h t s).lpu.forwarding = s.lpu.forwarding := by
  unfold ruFailoverTake; (repeat' split) <;> simp [modEntry, modDelivery]
@[simp] theorem ruFailoverTake_lpu_decidedReads (d h t : Nat) (s : State) : (ruFailoverTake d h t s).lpu.decidedReads = s.lpu.decidedReads := by
  unfold ruFailoverTake; (repeat' split) <;> simp [modEntry, modDelivery]
@[simp] theorem ruFailoverTake_lpu_resetAsserted (d h t : Nat) (s : State) : (ruFailoverTake d h t s).lpu.resetAsserted = s.lpu.resetAsserted := by
  unfold ruFailoverTake; (repeat' split) <;> simp [modEntry, modDelivery]
@[simp] theorem ruFailoverTake_rw_pendingBilling (d h t : Nat) (s : State) : (ruFailoverTake d h t s).rw.pendingBilling = s.rw.pendingBilling := by
  unfold ruFailoverTake; (repeat' split) <;> simp [modEntry, modDelivery]
@[simp] theorem ruFailoverTake_destParams (d h t : Nat) (i : Nat) (s : State) : (ruFailoverTake d h t s).destParams i = s.destParams i := by
  unfold ruFailoverTake; (repeat' split) <;> simp [modEntry, modDelivery]
@[simp] theorem ruFailoverTake_feedRec (d h t : Nat) (i : Nat) (s : State) : (ruFailoverTake d h t s).feedRec i = s.feedRec i := by
  unfold ruFailoverTake; (repeat' split) <;> simp [modEntry, modDelivery]
@[simp] theorem ruFailoverTake_feedParams (d h t : Nat) (i : Nat) (s : State) : (ruFailoverTake d h t s).feedParams i = s.feedParams i := by
  unfold ruFailoverTake; (repeat' split) <;> simp [modEntry, modDelivery]
@[simp] theorem ruFailoverTake_holder (d h t : Nat) (i : Nat) (s : State) : (ruFailoverTake d h t s).holder i = s.holder i := by
  unfold ruFailoverTake; (repeat' split) <;> simp [modEntry, modDelivery]
@[simp] theorem ruFailoverTake_grantQueue (d h t : Nat) (i : Nat) (s : State) : (ruFailoverTake d h t s).grantQueue i = s.grantQueue i := by
  unfold ruFailoverTake; (repeat' split) <;> simp [modEntry, modDelivery]
@[simp] theorem ruFailoverTake_delivery (d h t : Nat) (i : Nat) (s : State) : (ruFailoverTake d h t s).delivery i = s.delivery i := by
  unfold ruFailoverTake; (repeat' split) <;> simp [modEntry, modDelivery]
@[simp] theorem ruFailoverTake_tariff (d h t : Nat) (i : Nat) (s : State) : (ruFailoverTake d h t s).tariff i = s.tariff i := by
  unfold ruFailoverTake; (repeat' split) <;> simp [modEntry, modDelivery]
@[simp] theorem ruFailoverTake_ringDef (d h t : Nat) (i : Nat) (s : State) : (ruFailoverTake d h t s).ringDef i = s.ringDef i := by
  unfold ruFailoverTake; (repeat' split) <;> simp [modEntry, modDelivery]
@[simp] theorem ruFailoverTake_windowDef (d h t : Nat) (i : Nat) (s : State) : (ruFailoverTake d h t s).windowDef i = s.windowDef i := by
  unfold ruFailoverTake; (repeat' split) <;> simp [modEntry, modDelivery]
@[simp] theorem ruFailoverTake_ringDepth (d h t : Nat)  (s : State) : (ruFailoverTake d h t s).ringDepth = s.ringDepth := by
  unfold ruFailoverTake; (repeat' split) <;> simp [modEntry, modDelivery]
@[simp] theorem ruFailoverTake_usable (d h t : Nat) (i : Nat) (s : State) : (ruFailoverTake d h t s).usable i = s.usable i := by
  unfold ruFailoverTake; (repeat' split) <;> simp [modEntry, modDelivery]
@[simp] theorem ruFailoverTake_lastSlot (d h t : Nat) (i : Nat) (s : State) : (ruFailoverTake d h t s).lastSlot i = s.lastSlot i := by
  unfold ruFailoverTake; (repeat' split) <;> simp [modEntry, modDelivery]

@[simp] theorem ruDeferredFailover_cu (d : Nat) (s : State) : (ruDeferredFailover d s).cu = s.cu := by
  unfold ruDeferredFailover; (repeat' split) <;> simp [modEntry, modDelivery]
@[simp] theorem ruDeferredFailover_tb (d : Nat) (s : State) : (ruDeferredFailover d s).tb = s.tb := by
  unfold ruDeferredFailover; (repeat' split) <;> simp [modEntry, modDelivery]
@[simp] theorem ruDeferredFailover_fm (d : Nat) (s : State) : (ruDeferredFailover d s).fm = s.fm := by
  unfold ruDeferredFailover; (repeat' split) <;> simp [modEntry, modDelivery]
@[simp] theorem ruDeferredFailover_ga (d : Nat) (s : State) : (ruDeferredFailover d s).ga = s.ga := by
  unfold ruDeferredFailover; (repeat' split) <;> simp [modEntry, modDelivery]
@[simp] theorem ruDeferredFailover_dm (d : Nat) (s : State) : (ruDeferredFailover d s).dm = s.dm := by
  unfold ruDeferredFailover; (repeat' split) <;> simp [modEntry, modDelivery]
@[simp] theorem ruDeferredFailover_mu (d : Nat) (s : State) : (ruDeferredFailover d s).mu = s.mu := by
  unfold ruDeferredFailover; (repeat' split) <;> simp [modEntry, modDelivery]
@[simp] theorem ruDeferredFailover_pending (d : Nat) (s : State) : (ruDeferredFailover d s).pending = s.pending := by
  unfold ruDeferredFailover; (repeat' split) <;> simp [modEntry, modDelivery]
@[simp] theorem ruDeferredFailover_lpu_mode (d : Nat) (s : State) : (ruDeferredFailover d s).lpu.mode = s.lpu.mode := by
  unfold ruDeferredFailover; (repeat' split) <;> simp [modEntry, modDelivery]
@[simp] theorem ruDeferredFailover_lpu_depth (d : Nat) (s : State) : (ruDeferredFailover d s).lpu.depth = s.lpu.depth := by
  unfold ruDeferredFailover; (repeat' split) <;> simp [modEntry, modDelivery]
@[simp] theorem ruDeferredFailover_lpu_rings (d : Nat) (s : State) : (ruDeferredFailover d s).lpu.rings = s.lpu.rings := by
  unfold ruDeferredFailover; (repeat' split) <;> simp [modEntry, modDelivery]
@[simp] theorem ruDeferredFailover_lpu_windows (d : Nat) (s : State) : (ruDeferredFailover d s).lpu.windows = s.lpu.windows := by
  unfold ruDeferredFailover; (repeat' split) <;> simp [modEntry, modDelivery]
@[simp] theorem ruDeferredFailover_lpu_latches (d : Nat) (s : State) : (ruDeferredFailover d s).lpu.latches = s.lpu.latches := by
  unfold ruDeferredFailover; (repeat' split) <;> simp [modEntry, modDelivery]
@[simp] theorem ruDeferredFailover_lpu_holds (d : Nat) (s : State) : (ruDeferredFailover d s).lpu.holds = s.lpu.holds := by
  unfold ruDeferredFailover; (repeat' split) <;> simp [modEntry, modDelivery]
@[simp] theorem ruDeferredFailover_lpu_forwarding (d : Nat) (s : State) : (ruDeferredFailover d s).lpu.forwarding = s.lpu.forwarding := by
  unfold ruDeferredFailover; (repeat' split) <;> simp [modEntry, modDelivery]
@[simp] theorem ruDeferredFailover_lpu_decidedReads (d : Nat) (s : State) : (ruDeferredFailover d s).lpu.decidedReads = s.lpu.decidedReads := by
  unfold ruDeferredFailover; (repeat' split) <;> simp [modEntry, modDelivery]
@[simp] theorem ruDeferredFailover_lpu_resetAsserted (d : Nat) (s : State) : (ruDeferredFailover d s).lpu.resetAsserted = s.lpu.resetAsserted := by
  unfold ruDeferredFailover; (repeat' split) <;> simp [modEntry, modDelivery]
@[simp] theorem ruDeferredFailover_rw_pendingBilling (d : Nat) (s : State) : (ruDeferredFailover d s).rw.pendingBilling = s.rw.pendingBilling := by
  unfold ruDeferredFailover; (repeat' split) <;> simp [modEntry, modDelivery]
@[simp] theorem ruDeferredFailover_destParams (d : Nat) (i : Nat) (s : State) : (ruDeferredFailover d s).destParams i = s.destParams i := by
  unfold ruDeferredFailover; (repeat' split) <;> simp [modEntry, modDelivery]
@[simp] theorem ruDeferredFailover_feedRec (d : Nat) (i : Nat) (s : State) : (ruDeferredFailover d s).feedRec i = s.feedRec i := by
  unfold ruDeferredFailover; (repeat' split) <;> simp [modEntry, modDelivery]
@[simp] theorem ruDeferredFailover_feedParams (d : Nat) (i : Nat) (s : State) : (ruDeferredFailover d s).feedParams i = s.feedParams i := by
  unfold ruDeferredFailover; (repeat' split) <;> simp [modEntry, modDelivery]
@[simp] theorem ruDeferredFailover_holder (d : Nat) (i : Nat) (s : State) : (ruDeferredFailover d s).holder i = s.holder i := by
  unfold ruDeferredFailover; (repeat' split) <;> simp [modEntry, modDelivery]
@[simp] theorem ruDeferredFailover_grantQueue (d : Nat) (i : Nat) (s : State) : (ruDeferredFailover d s).grantQueue i = s.grantQueue i := by
  unfold ruDeferredFailover; (repeat' split) <;> simp [modEntry, modDelivery]
@[simp] theorem ruDeferredFailover_delivery (d : Nat) (i : Nat) (s : State) : (ruDeferredFailover d s).delivery i = s.delivery i := by
  unfold ruDeferredFailover; (repeat' split) <;> simp [modEntry, modDelivery]
@[simp] theorem ruDeferredFailover_tariff (d : Nat) (i : Nat) (s : State) : (ruDeferredFailover d s).tariff i = s.tariff i := by
  unfold ruDeferredFailover; (repeat' split) <;> simp [modEntry, modDelivery]
@[simp] theorem ruDeferredFailover_ringDef (d : Nat) (i : Nat) (s : State) : (ruDeferredFailover d s).ringDef i = s.ringDef i := by
  unfold ruDeferredFailover; (repeat' split) <;> simp [modEntry, modDelivery]
@[simp] theorem ruDeferredFailover_windowDef (d : Nat) (i : Nat) (s : State) : (ruDeferredFailover d s).windowDef i = s.windowDef i := by
  unfold ruDeferredFailover; (repeat' split) <;> simp [modEntry, modDelivery]
@[simp] theorem ruDeferredFailover_ringDepth (d : Nat)  (s : State) : (ruDeferredFailover d s).ringDepth = s.ringDepth := by
  unfold ruDeferredFailover; (repeat' split) <;> simp [modEntry, modDelivery]
@[simp] theorem ruDeferredFailover_usable (d : Nat) (i : Nat) (s : State) : (ruDeferredFailover d s).usable i = s.usable i := by
  unfold ruDeferredFailover; (repeat' split) <;> simp [modEntry, modDelivery]
@[simp] theorem ruDeferredFailover_lastSlot (d : Nat) (i : Nat) (s : State) : (ruDeferredFailover d s).lastSlot i = s.lastSlot i := by
  unfold ruDeferredFailover; (repeat' split) <;> simp [modEntry, modDelivery]

@[simp] theorem ruRevertCheck_cu (d : Nat) (s : State) : (ruRevertCheck d s).cu = s.cu := by
  unfold ruRevertCheck; (repeat' split) <;> simp [modEntry, modDelivery]
@[simp] theorem ruRevertCheck_tb (d : Nat) (s : State) : (ruRevertCheck d s).tb = s.tb := by
  unfold ruRevertCheck; (repeat' split) <;> simp [modEntry, modDelivery]
@[simp] theorem ruRevertCheck_fm (d : Nat) (s : State) : (ruRevertCheck d s).fm = s.fm := by
  unfold ruRevertCheck; (repeat' split) <;> simp [modEntry, modDelivery]
@[simp] theorem ruRevertCheck_bt (d : Nat) (s : State) : (ruRevertCheck d s).bt = s.bt := by
  unfold ruRevertCheck; (repeat' split) <;> simp [modEntry, modDelivery]
@[simp] theorem ruRevertCheck_ga (d : Nat) (s : State) : (ruRevertCheck d s).ga = s.ga := by
  unfold ruRevertCheck; (repeat' split) <;> simp [modEntry, modDelivery]
@[simp] theorem ruRevertCheck_dm (d : Nat) (s : State) : (ruRevertCheck d s).dm = s.dm := by
  unfold ruRevertCheck; (repeat' split) <;> simp [modEntry, modDelivery]
@[simp] theorem ruRevertCheck_mu (d : Nat) (s : State) : (ruRevertCheck d s).mu = s.mu := by
  unfold ruRevertCheck; (repeat' split) <;> simp [modEntry, modDelivery]
@[simp] theorem ruRevertCheck_pending (d : Nat) (s : State) : (ruRevertCheck d s).pending = s.pending := by
  unfold ruRevertCheck; (repeat' split) <;> simp [modEntry, modDelivery]
@[simp] theorem ruRevertCheck_lpu_mode (d : Nat) (s : State) : (ruRevertCheck d s).lpu.mode = s.lpu.mode := by
  unfold ruRevertCheck; (repeat' split) <;> simp [modEntry, modDelivery]
@[simp] theorem ruRevertCheck_lpu_depth (d : Nat) (s : State) : (ruRevertCheck d s).lpu.depth = s.lpu.depth := by
  unfold ruRevertCheck; (repeat' split) <;> simp [modEntry, modDelivery]
@[simp] theorem ruRevertCheck_lpu_rings (d : Nat) (s : State) : (ruRevertCheck d s).lpu.rings = s.lpu.rings := by
  unfold ruRevertCheck; (repeat' split) <;> simp [modEntry, modDelivery]
@[simp] theorem ruRevertCheck_lpu_windows (d : Nat) (s : State) : (ruRevertCheck d s).lpu.windows = s.lpu.windows := by
  unfold ruRevertCheck; (repeat' split) <;> simp [modEntry, modDelivery]
@[simp] theorem ruRevertCheck_lpu_latches (d : Nat) (s : State) : (ruRevertCheck d s).lpu.latches = s.lpu.latches := by
  unfold ruRevertCheck; (repeat' split) <;> simp [modEntry, modDelivery]
@[simp] theorem ruRevertCheck_lpu_holds (d : Nat) (s : State) : (ruRevertCheck d s).lpu.holds = s.lpu.holds := by
  unfold ruRevertCheck; (repeat' split) <;> simp [modEntry, modDelivery]
@[simp] theorem ruRevertCheck_lpu_forwarding (d : Nat) (s : State) : (ruRevertCheck d s).lpu.forwarding = s.lpu.forwarding := by
  unfold ruRevertCheck; (repeat' split) <;> simp [modEntry, modDelivery]
@[simp] theorem ruRevertCheck_lpu_decidedReads (d : Nat) (s : State) : (ruRevertCheck d s).lpu.decidedReads = s.lpu.decidedReads := by
  unfold ruRevertCheck; (repeat' split) <;> simp [modEntry, modDelivery]
@[simp] theorem ruRevertCheck_lpu_resetAsserted (d : Nat) (s : State) : (ruRevertCheck d s).lpu.resetAsserted = s.lpu.resetAsserted := by
  unfold ruRevertCheck; (repeat' split) <;> simp [modEntry, modDelivery]
@[simp] theorem ruRevertCheck_rw_pendingBilling (d : Nat) (s : State) : (ruRevertCheck d s).rw.pendingBilling = s.rw.pendingBilling := by
  unfold ruRevertCheck; (repeat' split) <;> simp [modEntry, modDelivery]
@[simp] theorem ruRevertCheck_destParams (d : Nat) (i : Nat) (s : State) : (ruRevertCheck d s).destParams i = s.destParams i := by
  unfold ruRevertCheck; (repeat' split) <;> simp [modEntry, modDelivery]
@[simp] theorem ruRevertCheck_entry (d : Nat) (i : Nat) (s : State) : (ruRevertCheck d s).entry i = s.entry i := by
  unfold ruRevertCheck; (repeat' split) <;> simp [modEntry, modDelivery]
@[simp] theorem ruRevertCheck_feedRec (d : Nat) (i : Nat) (s : State) : (ruRevertCheck d s).feedRec i = s.feedRec i := by
  unfold ruRevertCheck; (repeat' split) <;> simp [modEntry, modDelivery]
@[simp] theorem ruRevertCheck_feedParams (d : Nat) (i : Nat) (s : State) : (ruRevertCheck d s).feedParams i = s.feedParams i := by
  unfold ruRevertCheck; (repeat' split) <;> simp [modEntry, modDelivery]
@[simp] theorem ruRevertCheck_holder (d : Nat) (i : Nat) (s : State) : (ruRevertCheck d s).holder i = s.holder i := by
  unfold ruRevertCheck; (repeat' split) <;> simp [modEntry, modDelivery]
@[simp] theorem ruRevertCheck_grantQueue (d : Nat) (i : Nat) (s : State) : (ruRevertCheck d s).grantQueue i = s.grantQueue i := by
  unfold ruRevertCheck; (repeat' split) <;> simp [modEntry, modDelivery]
@[simp] theorem ruRevertCheck_delivery (d : Nat) (i : Nat) (s : State) : (ruRevertCheck d s).delivery i = s.delivery i := by
  unfold ruRevertCheck; (repeat' split) <;> simp [modEntry, modDelivery]
@[simp] theorem ruRevertCheck_tariff (d : Nat) (i : Nat) (s : State) : (ruRevertCheck d s).tariff i = s.tariff i := by
  unfold ruRevertCheck; (repeat' split) <;> simp [modEntry, modDelivery]
@[simp] theorem ruRevertCheck_ringDef (d : Nat) (i : Nat) (s : State) : (ruRevertCheck d s).ringDef i = s.ringDef i := by
  unfold ruRevertCheck; (repeat' split) <;> simp [modEntry, modDelivery]
@[simp] theorem ruRevertCheck_windowDef (d : Nat) (i : Nat) (s : State) : (ruRevertCheck d s).windowDef i = s.windowDef i := by
  unfold ruRevertCheck; (repeat' split) <;> simp [modEntry, modDelivery]
@[simp] theorem ruRevertCheck_ringDepth (d : Nat)  (s : State) : (ruRevertCheck d s).ringDepth = s.ringDepth := by
  unfold ruRevertCheck; (repeat' split) <;> simp [modEntry, modDelivery]
@[simp] theorem ruRevertCheck_usable (d : Nat) (i : Nat) (s : State) : (ruRevertCheck d s).usable i = s.usable i := by
  unfold ruRevertCheck; (repeat' split) <;> simp [modEntry, modDelivery]
@[simp] theorem ruRevertCheck_lastSlot (d : Nat) (i : Nat) (s : State) : (ruRevertCheck d s).lastSlot i = s.lastSlot i := by
  unfold ruRevertCheck; (repeat' split) <;> simp [modEntry, modDelivery]

@[simp] theorem ruFrozen_cu (d f : Nat) (s : State) : (ruFrozen d f s).cu = s.cu := by
  unfold ruFrozen; (repeat' split) <;> simp [modEntry, modDelivery]
@[simp] theorem ruFrozen_tb (d f : Nat) (s : State) : (ruFrozen d f s).tb = s.tb := by
  unfold ruFrozen; (repeat' split) <;> simp [modEntry, modDelivery]
@[simp] theorem ruFrozen_fm (d f : Nat) (s : State) : (ruFrozen d f s).fm = s.fm := by
  unfold ruFrozen; (repeat' split) <;> simp [modEntry, modDelivery]
@[simp] theorem ruFrozen_bt (d f : Nat) (s : State) : (ruFrozen d f s).bt = s.bt := by
  unfold ruFrozen; (repeat' split) <;> simp [modEntry, modDelivery]
@[simp] theorem ruFrozen_ga (d f : Nat) (s : State) : (ruFrozen d f s).ga = s.ga := by
  unfold ruFrozen; (repeat' split) <;> simp [modEntry, modDelivery]
@[simp] theorem ruFrozen_mu (d f : Nat) (s : State) : (ruFrozen d f s).mu = s.mu := by
  unfold ruFrozen; (repeat' split) <;> simp [modEntry, modDelivery]
@[simp] theorem ruFrozen_pending (d f : Nat) (s : State) : (ruFrozen d f s).pending = s.pending := by
  unfold ruFrozen; (repeat' split) <;> simp [modEntry, modDelivery]
@[simp] theorem ruFrozen_lpu_mode (d f : Nat) (s : State) : (ruFrozen d f s).lpu.mode = s.lpu.mode := by
  unfold ruFrozen; (repeat' split) <;> simp [modEntry, modDelivery]
@[simp] theorem ruFrozen_lpu_depth (d f : Nat) (s : State) : (ruFrozen d f s).lpu.depth = s.lpu.depth := by
  unfold ruFrozen; (repeat' split) <;> simp [modEntry, modDelivery]
@[simp] theorem ruFrozen_lpu_rings (d f : Nat) (s : State) : (ruFrozen d f s).lpu.rings = s.lpu.rings := by
  unfold ruFrozen; (repeat' split) <;> simp [modEntry, modDelivery]
@[simp] theorem ruFrozen_lpu_windows (d f : Nat) (s : State) : (ruFrozen d f s).lpu.windows = s.lpu.windows := by
  unfold ruFrozen; (repeat' split) <;> simp [modEntry, modDelivery]
@[simp] theorem ruFrozen_lpu_latches (d f : Nat) (s : State) : (ruFrozen d f s).lpu.latches = s.lpu.latches := by
  unfold ruFrozen; (repeat' split) <;> simp [modEntry, modDelivery]
@[simp] theorem ruFrozen_lpu_holds (d f : Nat) (s : State) : (ruFrozen d f s).lpu.holds = s.lpu.holds := by
  unfold ruFrozen; (repeat' split) <;> simp [modEntry, modDelivery]
@[simp] theorem ruFrozen_lpu_forwarding (d f : Nat) (s : State) : (ruFrozen d f s).lpu.forwarding = s.lpu.forwarding := by
  unfold ruFrozen; (repeat' split) <;> simp [modEntry, modDelivery]
@[simp] theorem ruFrozen_lpu_decidedReads (d f : Nat) (s : State) : (ruFrozen d f s).lpu.decidedReads = s.lpu.decidedReads := by
  unfold ruFrozen; (repeat' split) <;> simp [modEntry, modDelivery]
@[simp] theorem ruFrozen_lpu_resetAsserted (d f : Nat) (s : State) : (ruFrozen d f s).lpu.resetAsserted = s.lpu.resetAsserted := by
  unfold ruFrozen; (repeat' split) <;> simp [modEntry, modDelivery]
@[simp] theorem ruFrozen_rw_pendingBilling (d f : Nat) (s : State) : (ruFrozen d f s).rw.pendingBilling = s.rw.pendingBilling := by
  unfold ruFrozen; (repeat' split) <;> simp [modEntry, modDelivery]
@[simp] theorem ruFrozen_destParams (d f : Nat) (i : Nat) (s : State) : (ruFrozen d f s).destParams i = s.destParams i := by
  unfold ruFrozen; (repeat' split) <;> simp [modEntry, modDelivery]
@[simp] theorem ruFrozen_entry (d f : Nat) (i : Nat) (s : State) : (ruFrozen d f s).entry i = s.entry i := by
  unfold ruFrozen; (repeat' split) <;> simp [modEntry, modDelivery]
@[simp] theorem ruFrozen_feedRec (d f : Nat) (i : Nat) (s : State) : (ruFrozen d f s).feedRec i = s.feedRec i := by
  unfold ruFrozen; (repeat' split) <;> simp [modEntry, modDelivery]
@[simp] theorem ruFrozen_feedParams (d f : Nat) (i : Nat) (s : State) : (ruFrozen d f s).feedParams i = s.feedParams i := by
  unfold ruFrozen; (repeat' split) <;> simp [modEntry, modDelivery]
@[simp] theorem ruFrozen_holder (d f : Nat) (i : Nat) (s : State) : (ruFrozen d f s).holder i = s.holder i := by
  unfold ruFrozen; (repeat' split) <;> simp [modEntry, modDelivery]
@[simp] theorem ruFrozen_grantQueue (d f : Nat) (i : Nat) (s : State) : (ruFrozen d f s).grantQueue i = s.grantQueue i := by
  unfold ruFrozen; (repeat' split) <;> simp [modEntry, modDelivery]
@[simp] theorem ruFrozen_tariff (d f : Nat) (i : Nat) (s : State) : (ruFrozen d f s).tariff i = s.tariff i := by
  unfold ruFrozen; (repeat' split) <;> simp [modEntry, modDelivery]
@[simp] theorem ruFrozen_ringDef (d f : Nat) (i : Nat) (s : State) : (ruFrozen d f s).ringDef i = s.ringDef i := by
  unfold ruFrozen; (repeat' split) <;> simp [modEntry, modDelivery]
@[simp] theorem ruFrozen_windowDef (d f : Nat) (i : Nat) (s : State) : (ruFrozen d f s).windowDef i = s.windowDef i := by
  unfold ruFrozen; (repeat' split) <;> simp [modEntry, modDelivery]
@[simp] theorem ruFrozen_ringDepth (d f : Nat)  (s : State) : (ruFrozen d f s).ringDepth = s.ringDepth := by
  unfold ruFrozen; (repeat' split) <;> simp [modEntry, modDelivery]
@[simp] theorem ruFrozen_usable (d f : Nat) (i : Nat) (s : State) : (ruFrozen d f s).usable i = s.usable i := by
  unfold ruFrozen; (repeat' split) <;> simp [modEntry, modDelivery]
@[simp] theorem ruFrozen_lastSlot (d f : Nat) (i : Nat) (s : State) : (ruFrozen d f s).lastSlot i = s.lastSlot i := by
  unfold ruFrozen; (repeat' split) <;> simp [modEntry, modDelivery]

@[simp] theorem ruFreezeTest_cu (d : Nat) (s : State) : (ruFreezeTest d s).cu = s.cu := by
  unfold ruFreezeTest; (repeat' split) <;> simp [modEntry, modDelivery]
@[simp] theorem ruFreezeTest_tb (d : Nat) (s : State) : (ruFreezeTest d s).tb = s.tb := by
  unfold ruFreezeTest; (repeat' split) <;> simp [modEntry, modDelivery]
@[simp] theorem ruFreezeTest_fm (d : Nat) (s : State) : (ruFreezeTest d s).fm = s.fm := by
  unfold ruFreezeTest; (repeat' split) <;> simp [modEntry, modDelivery]
@[simp] theorem ruFreezeTest_bt (d : Nat) (s : State) : (ruFreezeTest d s).bt = s.bt := by
  unfold ruFreezeTest; (repeat' split) <;> simp [modEntry, modDelivery]
@[simp] theorem ruFreezeTest_ga (d : Nat) (s : State) : (ruFreezeTest d s).ga = s.ga := by
  unfold ruFreezeTest; (repeat' split) <;> simp [modEntry, modDelivery]
@[simp] theorem ruFreezeTest_mu (d : Nat) (s : State) : (ruFreezeTest d s).mu = s.mu := by
  unfold ruFreezeTest; (repeat' split) <;> simp [modEntry, modDelivery]
@[simp] theorem ruFreezeTest_pending (d : Nat) (s : State) : (ruFreezeTest d s).pending = s.pending := by
  unfold ruFreezeTest; (repeat' split) <;> simp [modEntry, modDelivery]
@[simp] theorem ruFreezeTest_lpu_mode (d : Nat) (s : State) : (ruFreezeTest d s).lpu.mode = s.lpu.mode := by
  unfold ruFreezeTest; (repeat' split) <;> simp [modEntry, modDelivery]
@[simp] theorem ruFreezeTest_lpu_depth (d : Nat) (s : State) : (ruFreezeTest d s).lpu.depth = s.lpu.depth := by
  unfold ruFreezeTest; (repeat' split) <;> simp [modEntry, modDelivery]
@[simp] theorem ruFreezeTest_lpu_rings (d : Nat) (s : State) : (ruFreezeTest d s).lpu.rings = s.lpu.rings := by
  unfold ruFreezeTest; (repeat' split) <;> simp [modEntry, modDelivery]
@[simp] theorem ruFreezeTest_lpu_windows (d : Nat) (s : State) : (ruFreezeTest d s).lpu.windows = s.lpu.windows := by
  unfold ruFreezeTest; (repeat' split) <;> simp [modEntry, modDelivery]
@[simp] theorem ruFreezeTest_lpu_latches (d : Nat) (s : State) : (ruFreezeTest d s).lpu.latches = s.lpu.latches := by
  unfold ruFreezeTest; (repeat' split) <;> simp [modEntry, modDelivery]
@[simp] theorem ruFreezeTest_lpu_holds (d : Nat) (s : State) : (ruFreezeTest d s).lpu.holds = s.lpu.holds := by
  unfold ruFreezeTest; (repeat' split) <;> simp [modEntry, modDelivery]
@[simp] theorem ruFreezeTest_lpu_forwarding (d : Nat) (s : State) : (ruFreezeTest d s).lpu.forwarding = s.lpu.forwarding := by
  unfold ruFreezeTest; (repeat' split) <;> simp [modEntry, modDelivery]
@[simp] theorem ruFreezeTest_lpu_decidedReads (d : Nat) (s : State) : (ruFreezeTest d s).lpu.decidedReads = s.lpu.decidedReads := by
  unfold ruFreezeTest; (repeat' split) <;> simp [modEntry, modDelivery]
@[simp] theorem ruFreezeTest_lpu_resetAsserted (d : Nat) (s : State) : (ruFreezeTest d s).lpu.resetAsserted = s.lpu.resetAsserted := by
  unfold ruFreezeTest; (repeat' split) <;> simp [modEntry, modDelivery]
@[simp] theorem ruFreezeTest_rw_pendingBilling (d : Nat) (s : State) : (ruFreezeTest d s).rw.pendingBilling = s.rw.pendingBilling := by
  unfold ruFreezeTest; (repeat' split) <;> simp [modEntry, modDelivery]
@[simp] theorem ruFreezeTest_destParams (d : Nat) (i : Nat) (s : State) : (ruFreezeTest d s).destParams i = s.destParams i := by
  unfold ruFreezeTest; (repeat' split) <;> simp [modEntry, modDelivery]
@[simp] theorem ruFreezeTest_entry (d : Nat) (i : Nat) (s : State) : (ruFreezeTest d s).entry i = s.entry i := by
  unfold ruFreezeTest; (repeat' split) <;> simp [modEntry, modDelivery]
@[simp] theorem ruFreezeTest_feedRec (d : Nat) (i : Nat) (s : State) : (ruFreezeTest d s).feedRec i = s.feedRec i := by
  unfold ruFreezeTest; (repeat' split) <;> simp [modEntry, modDelivery]
@[simp] theorem ruFreezeTest_feedParams (d : Nat) (i : Nat) (s : State) : (ruFreezeTest d s).feedParams i = s.feedParams i := by
  unfold ruFreezeTest; (repeat' split) <;> simp [modEntry, modDelivery]
@[simp] theorem ruFreezeTest_holder (d : Nat) (i : Nat) (s : State) : (ruFreezeTest d s).holder i = s.holder i := by
  unfold ruFreezeTest; (repeat' split) <;> simp [modEntry, modDelivery]
@[simp] theorem ruFreezeTest_grantQueue (d : Nat) (i : Nat) (s : State) : (ruFreezeTest d s).grantQueue i = s.grantQueue i := by
  unfold ruFreezeTest; (repeat' split) <;> simp [modEntry, modDelivery]
@[simp] theorem ruFreezeTest_tariff (d : Nat) (i : Nat) (s : State) : (ruFreezeTest d s).tariff i = s.tariff i := by
  unfold ruFreezeTest; (repeat' split) <;> simp [modEntry, modDelivery]
@[simp] theorem ruFreezeTest_ringDef (d : Nat) (i : Nat) (s : State) : (ruFreezeTest d s).ringDef i = s.ringDef i := by
  unfold ruFreezeTest; (repeat' split) <;> simp [modEntry, modDelivery]
@[simp] theorem ruFreezeTest_windowDef (d : Nat) (i : Nat) (s : State) : (ruFreezeTest d s).windowDef i = s.windowDef i := by
  unfold ruFreezeTest; (repeat' split) <;> simp [modEntry, modDelivery]
@[simp] theorem ruFreezeTest_ringDepth (d : Nat)  (s : State) : (ruFreezeTest d s).ringDepth = s.ringDepth := by
  unfold ruFreezeTest; (repeat' split) <;> simp [modEntry, modDelivery]
@[simp] theorem ruFreezeTest_usable (d : Nat) (i : Nat) (s : State) : (ruFreezeTest d s).usable i = s.usable i := by
  unfold ruFreezeTest; (repeat' split) <;> simp [modEntry, modDelivery]
@[simp] theorem ruFreezeTest_lastSlot (d : Nat) (i : Nat) (s : State) : (ruFreezeTest d s).lastSlot i = s.lastSlot i := by
  unfold ruFreezeTest; (repeat' split) <;> simp [modEntry, modDelivery]

@[simp] theorem ruSelect_cu (d f : Nat) (s : State) : (ruSelect d f s).cu = s.cu := by
  unfold ruSelect; (repeat' split) <;> simp [modEntry, modDelivery]
@[simp] theorem ruSelect_tb (d f : Nat) (s : State) : (ruSelect d f s).tb = s.tb := by
  unfold ruSelect; (repeat' split) <;> simp [modEntry, modDelivery]
@[simp] theorem ruSelect_fm (d f : Nat) (s : State) : (ruSelect d f s).fm = s.fm := by
  unfold ruSelect; (repeat' split) <;> simp [modEntry, modDelivery]
@[simp] theorem ruSelect_ga (d f : Nat) (s : State) : (ruSelect d f s).ga = s.ga := by
  unfold ruSelect; (repeat' split) <;> simp [modEntry, modDelivery]
@[simp] theorem ruSelect_dm (d f : Nat) (s : State) : (ruSelect d f s).dm = s.dm := by
  unfold ruSelect; (repeat' split) <;> simp [modEntry, modDelivery]
@[simp] theorem ruSelect_mu (d f : Nat) (s : State) : (ruSelect d f s).mu = s.mu := by
  unfold ruSelect; (repeat' split) <;> simp [modEntry, modDelivery]
@[simp] theorem ruSelect_pending (d f : Nat) (s : State) : (ruSelect d f s).pending = s.pending := by
  unfold ruSelect; (repeat' split) <;> simp [modEntry, modDelivery]
@[simp] theorem ruSelect_lpu_mode (d f : Nat) (s : State) : (ruSelect d f s).lpu.mode = s.lpu.mode := by
  unfold ruSelect; (repeat' split) <;> simp [modEntry, modDelivery]
@[simp] theorem ruSelect_lpu_depth (d f : Nat) (s : State) : (ruSelect d f s).lpu.depth = s.lpu.depth := by
  unfold ruSelect; (repeat' split) <;> simp [modEntry, modDelivery]
@[simp] theorem ruSelect_lpu_rings (d f : Nat) (s : State) : (ruSelect d f s).lpu.rings = s.lpu.rings := by
  unfold ruSelect; (repeat' split) <;> simp [modEntry, modDelivery]
@[simp] theorem ruSelect_lpu_windows (d f : Nat) (s : State) : (ruSelect d f s).lpu.windows = s.lpu.windows := by
  unfold ruSelect; (repeat' split) <;> simp [modEntry, modDelivery]
@[simp] theorem ruSelect_lpu_latches (d f : Nat) (s : State) : (ruSelect d f s).lpu.latches = s.lpu.latches := by
  unfold ruSelect; (repeat' split) <;> simp [modEntry, modDelivery]
@[simp] theorem ruSelect_lpu_holds (d f : Nat) (s : State) : (ruSelect d f s).lpu.holds = s.lpu.holds := by
  unfold ruSelect; (repeat' split) <;> simp [modEntry, modDelivery]
@[simp] theorem ruSelect_lpu_forwarding (d f : Nat) (s : State) : (ruSelect d f s).lpu.forwarding = s.lpu.forwarding := by
  unfold ruSelect; (repeat' split) <;> simp [modEntry, modDelivery]
@[simp] theorem ruSelect_lpu_decidedReads (d f : Nat) (s : State) : (ruSelect d f s).lpu.decidedReads = s.lpu.decidedReads := by
  unfold ruSelect; (repeat' split) <;> simp [modEntry, modDelivery]
@[simp] theorem ruSelect_lpu_resetAsserted (d f : Nat) (s : State) : (ruSelect d f s).lpu.resetAsserted = s.lpu.resetAsserted := by
  unfold ruSelect; (repeat' split) <;> simp [modEntry, modDelivery]
@[simp] theorem ruSelect_rw_pendingBilling (d f : Nat) (s : State) : (ruSelect d f s).rw.pendingBilling = s.rw.pendingBilling := by
  unfold ruSelect; (repeat' split) <;> simp [modEntry, modDelivery]
@[simp] theorem ruSelect_destParams (d f : Nat) (i : Nat) (s : State) : (ruSelect d f s).destParams i = s.destParams i := by
  unfold ruSelect; (repeat' split) <;> simp [modEntry, modDelivery]
@[simp] theorem ruSelect_feedRec (d f : Nat) (i : Nat) (s : State) : (ruSelect d f s).feedRec i = s.feedRec i := by
  unfold ruSelect; (repeat' split) <;> simp [modEntry, modDelivery]
@[simp] theorem ruSelect_feedParams (d f : Nat) (i : Nat) (s : State) : (ruSelect d f s).feedParams i = s.feedParams i := by
  unfold ruSelect; (repeat' split) <;> simp [modEntry, modDelivery]
@[simp] theorem ruSelect_holder (d f : Nat) (i : Nat) (s : State) : (ruSelect d f s).holder i = s.holder i := by
  unfold ruSelect; (repeat' split) <;> simp [modEntry, modDelivery]
@[simp] theorem ruSelect_grantQueue (d f : Nat) (i : Nat) (s : State) : (ruSelect d f s).grantQueue i = s.grantQueue i := by
  unfold ruSelect; (repeat' split) <;> simp [modEntry, modDelivery]
@[simp] theorem ruSelect_delivery (d f : Nat) (i : Nat) (s : State) : (ruSelect d f s).delivery i = s.delivery i := by
  unfold ruSelect; (repeat' split) <;> simp [modEntry, modDelivery]
@[simp] theorem ruSelect_tariff (d f : Nat) (i : Nat) (s : State) : (ruSelect d f s).tariff i = s.tariff i := by
  unfold ruSelect; (repeat' split) <;> simp [modEntry, modDelivery]
@[simp] theorem ruSelect_ringDef (d f : Nat) (i : Nat) (s : State) : (ruSelect d f s).ringDef i = s.ringDef i := by
  unfold ruSelect; (repeat' split) <;> simp [modEntry, modDelivery]
@[simp] theorem ruSelect_windowDef (d f : Nat) (i : Nat) (s : State) : (ruSelect d f s).windowDef i = s.windowDef i := by
  unfold ruSelect; (repeat' split) <;> simp [modEntry, modDelivery]
@[simp] theorem ruSelect_ringDepth (d f : Nat)  (s : State) : (ruSelect d f s).ringDepth = s.ringDepth := by
  unfold ruSelect; (repeat' split) <;> simp [modEntry, modDelivery]
@[simp] theorem ruSelect_usable (d f : Nat) (i : Nat) (s : State) : (ruSelect d f s).usable i = s.usable i := by
  unfold ruSelect; (repeat' split) <;> simp [modEntry, modDelivery]
@[simp] theorem ruSelect_lastSlot (d f : Nat) (i : Nat) (s : State) : (ruSelect d f s).lastSlot i = s.lastSlot i := by
  unfold ruSelect; (repeat' split) <;> simp [modEntry, modDelivery]

@[simp] theorem ruToSlate_cu (d : Nat) (s : State) : (ruToSlate d s).cu = s.cu := by
  unfold ruToSlate; (repeat' split) <;> simp [modEntry, modDelivery]
@[simp] theorem ruToSlate_tb (d : Nat) (s : State) : (ruToSlate d s).tb = s.tb := by
  unfold ruToSlate; (repeat' split) <;> simp [modEntry, modDelivery]
@[simp] theorem ruToSlate_fm (d : Nat) (s : State) : (ruToSlate d s).fm = s.fm := by
  unfold ruToSlate; (repeat' split) <;> simp [modEntry, modDelivery]
@[simp] theorem ruToSlate_bt (d : Nat) (s : State) : (ruToSlate d s).bt = s.bt := by
  unfold ruToSlate; (repeat' split) <;> simp [modEntry, modDelivery]
@[simp] theorem ruToSlate_ga (d : Nat) (s : State) : (ruToSlate d s).ga = s.ga := by
  unfold ruToSlate; (repeat' split) <;> simp [modEntry, modDelivery]
@[simp] theorem ruToSlate_mu (d : Nat) (s : State) : (ruToSlate d s).mu = s.mu := by
  unfold ruToSlate; (repeat' split) <;> simp [modEntry, modDelivery]
@[simp] theorem ruToSlate_pending (d : Nat) (s : State) : (ruToSlate d s).pending = s.pending := by
  unfold ruToSlate; (repeat' split) <;> simp [modEntry, modDelivery]
@[simp] theorem ruToSlate_lpu_mode (d : Nat) (s : State) : (ruToSlate d s).lpu.mode = s.lpu.mode := by
  unfold ruToSlate; (repeat' split) <;> simp [modEntry, modDelivery]
@[simp] theorem ruToSlate_lpu_depth (d : Nat) (s : State) : (ruToSlate d s).lpu.depth = s.lpu.depth := by
  unfold ruToSlate; (repeat' split) <;> simp [modEntry, modDelivery]
@[simp] theorem ruToSlate_lpu_rings (d : Nat) (s : State) : (ruToSlate d s).lpu.rings = s.lpu.rings := by
  unfold ruToSlate; (repeat' split) <;> simp [modEntry, modDelivery]
@[simp] theorem ruToSlate_lpu_windows (d : Nat) (s : State) : (ruToSlate d s).lpu.windows = s.lpu.windows := by
  unfold ruToSlate; (repeat' split) <;> simp [modEntry, modDelivery]
@[simp] theorem ruToSlate_lpu_latches (d : Nat) (s : State) : (ruToSlate d s).lpu.latches = s.lpu.latches := by
  unfold ruToSlate; (repeat' split) <;> simp [modEntry, modDelivery]
@[simp] theorem ruToSlate_lpu_holds (d : Nat) (s : State) : (ruToSlate d s).lpu.holds = s.lpu.holds := by
  unfold ruToSlate; (repeat' split) <;> simp [modEntry, modDelivery]
@[simp] theorem ruToSlate_lpu_forwarding (d : Nat) (s : State) : (ruToSlate d s).lpu.forwarding = s.lpu.forwarding := by
  unfold ruToSlate; (repeat' split) <;> simp [modEntry, modDelivery]
@[simp] theorem ruToSlate_lpu_decidedReads (d : Nat) (s : State) : (ruToSlate d s).lpu.decidedReads = s.lpu.decidedReads := by
  unfold ruToSlate; (repeat' split) <;> simp [modEntry, modDelivery]
@[simp] theorem ruToSlate_lpu_resetAsserted (d : Nat) (s : State) : (ruToSlate d s).lpu.resetAsserted = s.lpu.resetAsserted := by
  unfold ruToSlate; (repeat' split) <;> simp [modEntry, modDelivery]
@[simp] theorem ruToSlate_rw_pendingBilling (d : Nat) (s : State) : (ruToSlate d s).rw.pendingBilling = s.rw.pendingBilling := by
  unfold ruToSlate; (repeat' split) <;> simp [modEntry, modDelivery]
@[simp] theorem ruToSlate_destParams (d : Nat) (i : Nat) (s : State) : (ruToSlate d s).destParams i = s.destParams i := by
  unfold ruToSlate; (repeat' split) <;> simp [modEntry, modDelivery]
@[simp] theorem ruToSlate_entry (d : Nat) (i : Nat) (s : State) : (ruToSlate d s).entry i = s.entry i := by
  unfold ruToSlate; (repeat' split) <;> simp [modEntry, modDelivery]
@[simp] theorem ruToSlate_feedRec (d : Nat) (i : Nat) (s : State) : (ruToSlate d s).feedRec i = s.feedRec i := by
  unfold ruToSlate; (repeat' split) <;> simp [modEntry, modDelivery]
@[simp] theorem ruToSlate_feedParams (d : Nat) (i : Nat) (s : State) : (ruToSlate d s).feedParams i = s.feedParams i := by
  unfold ruToSlate; (repeat' split) <;> simp [modEntry, modDelivery]
@[simp] theorem ruToSlate_holder (d : Nat) (i : Nat) (s : State) : (ruToSlate d s).holder i = s.holder i := by
  unfold ruToSlate; (repeat' split) <;> simp [modEntry, modDelivery]
@[simp] theorem ruToSlate_grantQueue (d : Nat) (i : Nat) (s : State) : (ruToSlate d s).grantQueue i = s.grantQueue i := by
  unfold ruToSlate; (repeat' split) <;> simp [modEntry, modDelivery]
@[simp] theorem ruToSlate_tariff (d : Nat) (i : Nat) (s : State) : (ruToSlate d s).tariff i = s.tariff i := by
  unfold ruToSlate; (repeat' split) <;> simp [modEntry, modDelivery]
@[simp] theorem ruToSlate_ringDef (d : Nat) (i : Nat) (s : State) : (ruToSlate d s).ringDef i = s.ringDef i := by
  unfold ruToSlate; (repeat' split) <;> simp [modEntry, modDelivery]
@[simp] theorem ruToSlate_windowDef (d : Nat) (i : Nat) (s : State) : (ruToSlate d s).windowDef i = s.windowDef i := by
  unfold ruToSlate; (repeat' split) <;> simp [modEntry, modDelivery]
@[simp] theorem ruToSlate_ringDepth (d : Nat)  (s : State) : (ruToSlate d s).ringDepth = s.ringDepth := by
  unfold ruToSlate; (repeat' split) <;> simp [modEntry, modDelivery]
@[simp] theorem ruToSlate_usable (d : Nat) (i : Nat) (s : State) : (ruToSlate d s).usable i = s.usable i := by
  unfold ruToSlate; (repeat' split) <;> simp [modEntry, modDelivery]
@[simp] theorem ruToSlate_lastSlot (d : Nat) (i : Nat) (s : State) : (ruToSlate d s).lastSlot i = s.lastSlot i := by
  unfold ruToSlate; (repeat' split) <;> simp [modEntry, modDelivery]

@[simp] theorem ruPhaseBack_cu (d : Nat) (s : State) : (ruPhaseBack d s).cu = s.cu := by
  unfold ruPhaseBack; (repeat' split) <;> simp [modEntry, modDelivery]
@[simp] theorem ruPhaseBack_tb (d : Nat) (s : State) : (ruPhaseBack d s).tb = s.tb := by
  unfold ruPhaseBack; (repeat' split) <;> simp [modEntry, modDelivery]
@[simp] theorem ruPhaseBack_fm (d : Nat) (s : State) : (ruPhaseBack d s).fm = s.fm := by
  unfold ruPhaseBack; (repeat' split) <;> simp [modEntry, modDelivery]
@[simp] theorem ruPhaseBack_bt (d : Nat) (s : State) : (ruPhaseBack d s).bt = s.bt := by
  unfold ruPhaseBack; (repeat' split) <;> simp [modEntry, modDelivery]
@[simp] theorem ruPhaseBack_ga (d : Nat) (s : State) : (ruPhaseBack d s).ga = s.ga := by
  unfold ruPhaseBack; (repeat' split) <;> simp [modEntry, modDelivery]
@[simp] theorem ruPhaseBack_dm (d : Nat) (s : State) : (ruPhaseBack d s).dm = s.dm := by
  unfold ruPhaseBack; (repeat' split) <;> simp [modEntry, modDelivery]
@[simp] theorem ruPhaseBack_mu (d : Nat) (s : State) : (ruPhaseBack d s).mu = s.mu := by
  unfold ruPhaseBack; (repeat' split) <;> simp [modEntry, modDelivery]
@[simp] theorem ruPhaseBack_pending (d : Nat) (s : State) : (ruPhaseBack d s).pending = s.pending := by
  unfold ruPhaseBack; (repeat' split) <;> simp [modEntry, modDelivery]
@[simp] theorem ruPhaseBack_lpu_mode (d : Nat) (s : State) : (ruPhaseBack d s).lpu.mode = s.lpu.mode := by
  unfold ruPhaseBack; (repeat' split) <;> simp [modEntry, modDelivery]
@[simp] theorem ruPhaseBack_lpu_depth (d : Nat) (s : State) : (ruPhaseBack d s).lpu.depth = s.lpu.depth := by
  unfold ruPhaseBack; (repeat' split) <;> simp [modEntry, modDelivery]
@[simp] theorem ruPhaseBack_lpu_rings (d : Nat) (s : State) : (ruPhaseBack d s).lpu.rings = s.lpu.rings := by
  unfold ruPhaseBack; (repeat' split) <;> simp [modEntry, modDelivery]
@[simp] theorem ruPhaseBack_lpu_windows (d : Nat) (s : State) : (ruPhaseBack d s).lpu.windows = s.lpu.windows := by
  unfold ruPhaseBack; (repeat' split) <;> simp [modEntry, modDelivery]
@[simp] theorem ruPhaseBack_lpu_latches (d : Nat) (s : State) : (ruPhaseBack d s).lpu.latches = s.lpu.latches := by
  unfold ruPhaseBack; (repeat' split) <;> simp [modEntry, modDelivery]
@[simp] theorem ruPhaseBack_lpu_holds (d : Nat) (s : State) : (ruPhaseBack d s).lpu.holds = s.lpu.holds := by
  unfold ruPhaseBack; (repeat' split) <;> simp [modEntry, modDelivery]
@[simp] theorem ruPhaseBack_lpu_forwarding (d : Nat) (s : State) : (ruPhaseBack d s).lpu.forwarding = s.lpu.forwarding := by
  unfold ruPhaseBack; (repeat' split) <;> simp [modEntry, modDelivery]
@[simp] theorem ruPhaseBack_lpu_decidedReads (d : Nat) (s : State) : (ruPhaseBack d s).lpu.decidedReads = s.lpu.decidedReads := by
  unfold ruPhaseBack; (repeat' split) <;> simp [modEntry, modDelivery]
@[simp] theorem ruPhaseBack_lpu_resetAsserted (d : Nat) (s : State) : (ruPhaseBack d s).lpu.resetAsserted = s.lpu.resetAsserted := by
  unfold ruPhaseBack; (repeat' split) <;> simp [modEntry, modDelivery]
@[simp] theorem ruPhaseBack_rw_pendingBilling (d : Nat) (s : State) : (ruPhaseBack d s).rw.pendingBilling = s.rw.pendingBilling := by
  unfold ruPhaseBack; (repeat' split) <;> simp [modEntry, modDelivery]
@[simp] theorem ruPhaseBack_destParams (d : Nat) (i : Nat) (s : State) : (ruPhaseBack d s).destParams i = s.destParams i := by
  unfold ruPhaseBack; (repeat' split) <;> simp [modEntry, modDelivery]
@[simp] theorem ruPhaseBack_entry (d : Nat) (i : Nat) (s : State) : (ruPhaseBack d s).entry i = s.entry i := by
  unfold ruPhaseBack; (repeat' split) <;> simp [modEntry, modDelivery]
@[simp] theorem ruPhaseBack_feedRec (d : Nat) (i : Nat) (s : State) : (ruPhaseBack d s).feedRec i = s.feedRec i := by
  unfold ruPhaseBack; (repeat' split) <;> simp [modEntry, modDelivery]
@[simp] theorem ruPhaseBack_feedParams (d : Nat) (i : Nat) (s : State) : (ruPhaseBack d s).feedParams i = s.feedParams i := by
  unfold ruPhaseBack; (repeat' split) <;> simp [modEntry, modDelivery]
@[simp] theorem ruPhaseBack_holder (d : Nat) (i : Nat) (s : State) : (ruPhaseBack d s).holder i = s.holder i := by
  unfold ruPhaseBack; (repeat' split) <;> simp [modEntry, modDelivery]
@[simp] theorem ruPhaseBack_grantQueue (d : Nat) (i : Nat) (s : State) : (ruPhaseBack d s).grantQueue i = s.grantQueue i := by
  unfold ruPhaseBack; (repeat' split) <;> simp [modEntry, modDelivery]
@[simp] theorem ruPhaseBack_delivery (d : Nat) (i : Nat) (s : State) : (ruPhaseBack d s).delivery i = s.delivery i := by
  unfold ruPhaseBack; (repeat' split) <;> simp [modEntry, modDelivery]
@[simp] theorem ruPhaseBack_tariff (d : Nat) (i : Nat) (s : State) : (ruPhaseBack d s).tariff i = s.tariff i := by
  unfold ruPhaseBack; (repeat' split) <;> simp [modEntry, modDelivery]
@[simp] theorem ruPhaseBack_ringDef (d : Nat) (i : Nat) (s : State) : (ruPhaseBack d s).ringDef i = s.ringDef i := by
  unfold ruPhaseBack; (repeat' split) <;> simp [modEntry, modDelivery]
@[simp] theorem ruPhaseBack_windowDef (d : Nat) (i : Nat) (s : State) : (ruPhaseBack d s).windowDef i = s.windowDef i := by
  unfold ruPhaseBack; (repeat' split) <;> simp [modEntry, modDelivery]
@[simp] theorem ruPhaseBack_ringDepth (d : Nat)  (s : State) : (ruPhaseBack d s).ringDepth = s.ringDepth := by
  unfold ruPhaseBack; (repeat' split) <;> simp [modEntry, modDelivery]
@[simp] theorem ruPhaseBack_usable (d : Nat) (i : Nat) (s : State) : (ruPhaseBack d s).usable i = s.usable i := by
  unfold ruPhaseBack; (repeat' split) <;> simp [modEntry, modDelivery]
@[simp] theorem ruPhaseBack_lastSlot (d : Nat) (i : Nat) (s : State) : (ruPhaseBack d s).lastSlot i = s.lastSlot i := by
  unfold ruPhaseBack; (repeat' split) <;> simp [modEntry, modDelivery]

@[simp] theorem ruPhaseToLag_cu (d f k : Nat) (s : State) : (ruPhaseToLag d f k s).cu = s.cu := by
  unfold ruPhaseToLag; (repeat' split) <;> simp [modEntry, modDelivery]
@[simp] theorem ruPhaseToLag_tb (d f k : Nat) (s : State) : (ruPhaseToLag d f k s).tb = s.tb := by
  unfold ruPhaseToLag; (repeat' split) <;> simp [modEntry, modDelivery]
@[simp] theorem ruPhaseToLag_fm (d f k : Nat) (s : State) : (ruPhaseToLag d f k s).fm = s.fm := by
  unfold ruPhaseToLag; (repeat' split) <;> simp [modEntry, modDelivery]
@[simp] theorem ruPhaseToLag_bt (d f k : Nat) (s : State) : (ruPhaseToLag d f k s).bt = s.bt := by
  unfold ruPhaseToLag; (repeat' split) <;> simp [modEntry, modDelivery]
@[simp] theorem ruPhaseToLag_ga (d f k : Nat) (s : State) : (ruPhaseToLag d f k s).ga = s.ga := by
  unfold ruPhaseToLag; (repeat' split) <;> simp [modEntry, modDelivery]
@[simp] theorem ruPhaseToLag_dm (d f k : Nat) (s : State) : (ruPhaseToLag d f k s).dm = s.dm := by
  unfold ruPhaseToLag; (repeat' split) <;> simp [modEntry, modDelivery]
@[simp] theorem ruPhaseToLag_mu (d f k : Nat) (s : State) : (ruPhaseToLag d f k s).mu = s.mu := by
  unfold ruPhaseToLag; (repeat' split) <;> simp [modEntry, modDelivery]
@[simp] theorem ruPhaseToLag_pending (d f k : Nat) (s : State) : (ruPhaseToLag d f k s).pending = s.pending := by
  unfold ruPhaseToLag; (repeat' split) <;> simp [modEntry, modDelivery]
@[simp] theorem ruPhaseToLag_lpu_mode (d f k : Nat) (s : State) : (ruPhaseToLag d f k s).lpu.mode = s.lpu.mode := by
  unfold ruPhaseToLag; (repeat' split) <;> simp [modEntry, modDelivery]
@[simp] theorem ruPhaseToLag_lpu_depth (d f k : Nat) (s : State) : (ruPhaseToLag d f k s).lpu.depth = s.lpu.depth := by
  unfold ruPhaseToLag; (repeat' split) <;> simp [modEntry, modDelivery]
@[simp] theorem ruPhaseToLag_lpu_rings (d f k : Nat) (s : State) : (ruPhaseToLag d f k s).lpu.rings = s.lpu.rings := by
  unfold ruPhaseToLag; (repeat' split) <;> simp [modEntry, modDelivery]
@[simp] theorem ruPhaseToLag_lpu_windows (d f k : Nat) (s : State) : (ruPhaseToLag d f k s).lpu.windows = s.lpu.windows := by
  unfold ruPhaseToLag; (repeat' split) <;> simp [modEntry, modDelivery]
@[simp] theorem ruPhaseToLag_lpu_latches (d f k : Nat) (s : State) : (ruPhaseToLag d f k s).lpu.latches = s.lpu.latches := by
  unfold ruPhaseToLag; (repeat' split) <;> simp [modEntry, modDelivery]
@[simp] theorem ruPhaseToLag_lpu_holds (d f k : Nat) (s : State) : (ruPhaseToLag d f k s).lpu.holds = s.lpu.holds := by
  unfold ruPhaseToLag; (repeat' split) <;> simp [modEntry, modDelivery]
@[simp] theorem ruPhaseToLag_lpu_forwarding (d f k : Nat) (s : State) : (ruPhaseToLag d f k s).lpu.forwarding = s.lpu.forwarding := by
  unfold ruPhaseToLag; (repeat' split) <;> simp [modEntry, modDelivery]
@[simp] theorem ruPhaseToLag_lpu_decidedReads (d f k : Nat) (s : State) : (ruPhaseToLag d f k s).lpu.decidedReads = s.lpu.decidedReads := by
  unfold ruPhaseToLag; (repeat' split) <;> simp [modEntry, modDelivery]
@[simp] theorem ruPhaseToLag_lpu_resetAsserted (d f k : Nat) (s : State) : (ruPhaseToLag d f k s).lpu.resetAsserted = s.lpu.resetAsserted := by
  unfold ruPhaseToLag; (repeat' split) <;> simp [modEntry, modDelivery]
@[simp] theorem ruPhaseToLag_rw_pendingBilling (d f k : Nat) (s : State) : (ruPhaseToLag d f k s).rw.pendingBilling = s.rw.pendingBilling := by
  unfold ruPhaseToLag; (repeat' split) <;> simp [modEntry, modDelivery]
@[simp] theorem ruPhaseToLag_destParams (d f k : Nat) (i : Nat) (s : State) : (ruPhaseToLag d f k s).destParams i = s.destParams i := by
  unfold ruPhaseToLag; (repeat' split) <;> simp [modEntry, modDelivery]
@[simp] theorem ruPhaseToLag_entry (d f k : Nat) (i : Nat) (s : State) : (ruPhaseToLag d f k s).entry i = s.entry i := by
  unfold ruPhaseToLag; (repeat' split) <;> simp [modEntry, modDelivery]
@[simp] theorem ruPhaseToLag_feedRec (d f k : Nat) (i : Nat) (s : State) : (ruPhaseToLag d f k s).feedRec i = s.feedRec i := by
  unfold ruPhaseToLag; (repeat' split) <;> simp [modEntry, modDelivery]
@[simp] theorem ruPhaseToLag_feedParams (d f k : Nat) (i : Nat) (s : State) : (ruPhaseToLag d f k s).feedParams i = s.feedParams i := by
  unfold ruPhaseToLag; (repeat' split) <;> simp [modEntry, modDelivery]
@[simp] theorem ruPhaseToLag_holder (d f k : Nat) (i : Nat) (s : State) : (ruPhaseToLag d f k s).holder i = s.holder i := by
  unfold ruPhaseToLag; (repeat' split) <;> simp [modEntry, modDelivery]
@[simp] theorem ruPhaseToLag_grantQueue (d f k : Nat) (i : Nat) (s : State) : (ruPhaseToLag d f k s).grantQueue i = s.grantQueue i := by
  unfold ruPhaseToLag; (repeat' split) <;> simp [modEntry, modDelivery]
@[simp] theorem ruPhaseToLag_delivery (d f k : Nat) (i : Nat) (s : State) : (ruPhaseToLag d f k s).delivery i = s.delivery i := by
  unfold ruPhaseToLag; (repeat' split) <;> simp [modEntry, modDelivery]
@[simp] theorem ruPhaseToLag_tariff (d f k : Nat) (i : Nat) (s : State) : (ruPhaseToLag d f k s).tariff i = s.tariff i := by
  unfold ruPhaseToLag; (repeat' split) <;> simp [modEntry, modDelivery]
@[simp] theorem ruPhaseToLag_ringDef (d f k : Nat) (i : Nat) (s : State) : (ruPhaseToLag d f k s).ringDef i = s.ringDef i := by
  unfold ruPhaseToLag; (repeat' split) <;> simp [modEntry, modDelivery]
@[simp] theorem ruPhaseToLag_windowDef (d f k : Nat) (i : Nat) (s : State) : (ruPhaseToLag d f k s).windowDef i = s.windowDef i := by
  unfold ruPhaseToLag; (repeat' split) <;> simp [modEntry, modDelivery]
@[simp] theorem ruPhaseToLag_ringDepth (d f k : Nat)  (s : State) : (ruPhaseToLag d f k s).ringDepth = s.ringDepth := by
  unfold ruPhaseToLag; (repeat' split) <;> simp [modEntry, modDelivery]
@[simp] theorem ruPhaseToLag_usable (d f k : Nat) (i : Nat) (s : State) : (ruPhaseToLag d f k s).usable i = s.usable i := by
  unfold ruPhaseToLag; (repeat' split) <;> simp [modEntry, modDelivery]
@[simp] theorem ruPhaseToLag_lastSlot (d f k : Nat) (i : Nat) (s : State) : (ruPhaseToLag d f k s).lastSlot i = s.lastSlot i := by
  unfold ruPhaseToLag; (repeat' split) <;> simp [modEntry, modDelivery]

@[simp] theorem lpuForward_cu (x : Forward) (s : State) : (lpuForward x s).cu = s.cu := by
  unfold lpuForward; (repeat' split) <;> simp [modEntry, modDelivery]
@[simp] theorem lpuForward_tb (x : Forward) (s : State) : (lpuForward x s).tb = s.tb := by
  unfold lpuForward; (repeat' split) <;> simp [modEntry, modDelivery]
@[simp] theorem lpuForward_fm (x : Forward) (s : State) : (lpuForward x s).fm = s.fm := by
  unfold lpuForward; (repeat' split) <;> simp [modEntry, modDelivery]
@[simp] theorem lpuForward_bt (x : Forward) (s : State) : (lpuForward x s).bt = s.bt := by
  unfold lpuForward; (repeat' split) <;> simp [modEntry, modDelivery]
@[simp] theorem lpuForward_ga (x : Forward) (s : State) : (lpuForward x s).ga = s.ga := by
  unfold lpuForward; (repeat' split) <;> simp [modEntry, modDelivery]
@[simp] theorem lpuForward_ru (x : Forward) (s : State) : (lpuForward x s).ru = s.ru := by
  unfold lpuForward; (repeat' split) <;> simp [modEntry, modDelivery]
@[simp] theorem lpuForward_dm (x : Forward) (s : State) : (lpuForward x s).dm = s.dm := by
  unfold lpuForward; (repeat' split) <;> simp [modEntry, modDelivery]
@[simp] theorem lpuForward_mu (x : Forward) (s : State) : (lpuForward x s).mu = s.mu := by
  unfold lpuForward; (repeat' split) <;> simp [modEntry, modDelivery]
@[simp] theorem lpuForward_pending (x : Forward) (s : State) : (lpuForward x s).pending = s.pending := by
  unfold lpuForward; (repeat' split) <;> simp [modEntry, modDelivery]
@[simp] theorem lpuForward_lpu_mode (x : Forward) (s : State) : (lpuForward x s).lpu.mode = s.lpu.mode := by
  unfold lpuForward; (repeat' split) <;> simp [modEntry, modDelivery]
@[simp] theorem lpuForward_lpu_depth (x : Forward) (s : State) : (lpuForward x s).lpu.depth = s.lpu.depth := by
  unfold lpuForward; (repeat' split) <;> simp [modEntry, modDelivery]
@[simp] theorem lpuForward_lpu_rings (x : Forward) (s : State) : (lpuForward x s).lpu.rings = s.lpu.rings := by
  unfold lpuForward; (repeat' split) <;> simp [modEntry, modDelivery]
@[simp] theorem lpuForward_lpu_windows (x : Forward) (s : State) : (lpuForward x s).lpu.windows = s.lpu.windows := by
  unfold lpuForward; (repeat' split) <;> simp [modEntry, modDelivery]
@[simp] theorem lpuForward_lpu_latches (x : Forward) (s : State) : (lpuForward x s).lpu.latches = s.lpu.latches := by
  unfold lpuForward; (repeat' split) <;> simp [modEntry, modDelivery]
@[simp] theorem lpuForward_lpu_holds (x : Forward) (s : State) : (lpuForward x s).lpu.holds = s.lpu.holds := by
  unfold lpuForward; (repeat' split) <;> simp [modEntry, modDelivery]
@[simp] theorem lpuForward_lpu_resetAsserted (x : Forward) (s : State) : (lpuForward x s).lpu.resetAsserted = s.lpu.resetAsserted := by
  unfold lpuForward; (repeat' split) <;> simp [modEntry, modDelivery]
@[simp] theorem lpuForward_rw_pendingBilling (x : Forward) (s : State) : (lpuForward x s).rw.pendingBilling = s.rw.pendingBilling := by
  unfold lpuForward; (repeat' split) <;> simp [modEntry, modDelivery]

@[simp] theorem lpuServe_cu (d : Nat) (r : Request) (x : Served) (s : State) : (lpuServe d r x s).cu = s.cu := by
  unfold lpuServe; (repeat' split) <;> simp [modEntry, modDelivery]
@[simp] theorem lpuServe_tb (d : Nat) (r : Request) (x : Served) (s : State) : (lpuServe d r x s).tb = s.tb := by
  unfold lpuServe; (repeat' split) <;> simp [modEntry, modDelivery]
@[simp] theorem lpuServe_fm (d : Nat) (r : Request) (x : Served) (s : State) : (lpuServe d r x s).fm = s.fm := by
  unfold lpuServe; (repeat' split) <;> simp [modEntry, modDelivery]
@[simp] theorem lpuServe_bt (d : Nat) (r : Request) (x : Served) (s : State) : (lpuServe d r x s).bt = s.bt := by
  unfold lpuServe; (repeat' split) <;> simp [modEntry, modDelivery]
@[simp] theorem lpuServe_ga (d : Nat) (r : Request) (x : Served) (s : State) : (lpuServe d r x s).ga = s.ga := by
  unfold lpuServe; (repeat' split) <;> simp [modEntry, modDelivery]
@[simp] theorem lpuServe_ru (d : Nat) (r : Request) (x : Served) (s : State) : (lpuServe d r x s).ru = s.ru := by
  unfold lpuServe; (repeat' split) <;> simp [modEntry, modDelivery]
@[simp] theorem lpuServe_dm (d : Nat) (r : Request) (x : Served) (s : State) : (lpuServe d r x s).dm = s.dm := by
  unfold lpuServe; (repeat' split) <;> simp [modEntry, modDelivery]
@[simp] theorem lpuServe_mu (d : Nat) (r : Request) (x : Served) (s : State) : (lpuServe d r x s).mu = s.mu := by
  unfold lpuServe; (repeat' split) <;> simp [modEntry, modDelivery]
@[simp] theorem lpuServe_pending (d : Nat) (r : Request) (x : Served) (s : State) : (lpuServe d r x s).pending = s.pending := by
  unfold lpuServe; (repeat' split) <;> simp [modEntry, modDelivery]
@[simp] theorem lpuServe_lpu_mode (d : Nat) (r : Request) (x : Served) (s : State) : (lpuServe d r x s).lpu.mode = s.lpu.mode := by
  unfold lpuServe; (repeat' split) <;> simp [modEntry, modDelivery]
@[simp] theorem lpuServe_lpu_depth (d : Nat) (r : Request) (x : Served) (s : State) : (lpuServe d r x s).lpu.depth = s.lpu.depth := by
  unfold lpuServe; (repeat' split) <;> simp [modEntry, modDelivery]
@[simp] theorem lpuServe_lpu_rings (d : Nat) (r : Request) (x : Served) (s : State) : (lpuServe d r x s).lpu.rings = s.lpu.rings := by
  unfold lpuServe; (repeat' split) <;> simp [modEntry, modDelivery]
@[simp] theorem lpuServe_lpu_windows (d : Nat) (r : Request) (x : Served) (s : State) : (lpuServe d r x s).lpu.windows = s.lpu.windows := by
  unfold lpuServe; (repeat' split) <;> simp [modEntry, modDelivery]
@[simp] theorem lpuServe_lpu_latches (d : Nat) (r : Request) (x : Served) (s : State) : (lpuServe d r x s).lpu.latches = s.lpu.latches := by
  unfold lpuServe; (repeat' split) <;> simp [modEntry, modDelivery]
@[simp] theorem lpuServe_lpu_holds (d : Nat) (r : Request) (x : Served) (s : State) : (lpuServe d r x s).lpu.holds = s.lpu.holds := by
  unfold lpuServe; (repeat' split) <;> simp [modEntry, modDelivery]
@[simp] theorem lpuServe_lpu_resetAsserted (d : Nat) (r : Request) (x : Served) (s : State) : (lpuServe d r x s).lpu.resetAsserted = s.lpu.resetAsserted := by
  unfold lpuServe; (repeat' split) <;> simp [modEntry, modDelivery]
@[simp] theorem lpuServe_rw_pendingBilling (d : Nat) (r : Request) (x : Served) (s : State) : (lpuServe d r x s).rw.pendingBilling = s.rw.pendingBilling := by
  unfold lpuServe; (repeat' split) <;> simp [modEntry, modDelivery]

@[simp] theorem lpuHold_cu (d f q k : Nat) (r : Request) (s : State) : (lpuHold d f q k r s).cu = s.cu := by
  unfold lpuHold; (repeat' split) <;> simp [modEntry, modDelivery]
@[simp] theorem lpuHold_tb (d f q k : Nat) (r : Request) (s : State) : (lpuHold d f q k r s).tb = s.tb := by
  unfold lpuHold; (repeat' split) <;> simp [modEntry, modDelivery]
@[simp] theorem lpuHold_fm (d f q k : Nat) (r : Request) (s : State) : (lpuHold d f q k r s).fm = s.fm := by
  unfold lpuHold; (repeat' split) <;> simp [modEntry, modDelivery]
@[simp] theorem lpuHold_bt (d f q k : Nat) (r : Request) (s : State) : (lpuHold d f q k r s).bt = s.bt := by
  unfold lpuHold; (repeat' split) <;> simp [modEntry, modDelivery]
@[simp] theorem lpuHold_ga (d f q k : Nat) (r : Request) (s : State) : (lpuHold d f q k r s).ga = s.ga := by
  unfold lpuHold; (repeat' split) <;> simp [modEntry, modDelivery]
@[simp] theorem lpuHold_ru (d f q k : Nat) (r : Request) (s : State) : (lpuHold d f q k r s).ru = s.ru := by
  unfold lpuHold; (repeat' split) <;> simp [modEntry, modDelivery]
@[simp] theorem lpuHold_dm (d f q k : Nat) (r : Request) (s : State) : (lpuHold d f q k r s).dm = s.dm := by
  unfold lpuHold; (repeat' split) <;> simp [modEntry, modDelivery]
@[simp] theorem lpuHold_mu (d f q k : Nat) (r : Request) (s : State) : (lpuHold d f q k r s).mu = s.mu := by
  unfold lpuHold; (repeat' split) <;> simp [modEntry, modDelivery]
@[simp] theorem lpuHold_pending (d f q k : Nat) (r : Request) (s : State) : (lpuHold d f q k r s).pending = s.pending := by
  unfold lpuHold; (repeat' split) <;> simp [modEntry, modDelivery]
@[simp] theorem lpuHold_lpu_mode (d f q k : Nat) (r : Request) (s : State) : (lpuHold d f q k r s).lpu.mode = s.lpu.mode := by
  unfold lpuHold; (repeat' split) <;> simp [modEntry, modDelivery]
@[simp] theorem lpuHold_lpu_depth (d f q k : Nat) (r : Request) (s : State) : (lpuHold d f q k r s).lpu.depth = s.lpu.depth := by
  unfold lpuHold; (repeat' split) <;> simp [modEntry, modDelivery]
@[simp] theorem lpuHold_lpu_rings (d f q k : Nat) (r : Request) (s : State) : (lpuHold d f q k r s).lpu.rings = s.lpu.rings := by
  unfold lpuHold; (repeat' split) <;> simp [modEntry, modDelivery]
@[simp] theorem lpuHold_lpu_windows (d f q k : Nat) (r : Request) (s : State) : (lpuHold d f q k r s).lpu.windows = s.lpu.windows := by
  unfold lpuHold; (repeat' split) <;> simp [modEntry, modDelivery]
@[simp] theorem lpuHold_lpu_latches (d f q k : Nat) (r : Request) (s : State) : (lpuHold d f q k r s).lpu.latches = s.lpu.latches := by
  unfold lpuHold; (repeat' split) <;> simp [modEntry, modDelivery]
@[simp] theorem lpuHold_lpu_forwarding (d f q k : Nat) (r : Request) (s : State) : (lpuHold d f q k r s).lpu.forwarding = s.lpu.forwarding := by
  unfold lpuHold; (repeat' split) <;> simp [modEntry, modDelivery]
@[simp] theorem lpuHold_lpu_decidedReads (d f q k : Nat) (r : Request) (s : State) : (lpuHold d f q k r s).lpu.decidedReads = s.lpu.decidedReads := by
  unfold lpuHold; (repeat' split) <;> simp [modEntry, modDelivery]
@[simp] theorem lpuHold_lpu_resetAsserted (d f q k : Nat) (r : Request) (s : State) : (lpuHold d f q k r s).lpu.resetAsserted = s.lpu.resetAsserted := by
  unfold lpuHold; (repeat' split) <;> simp [modEntry, modDelivery]
@[simp] theorem lpuHold_rw_pendingBilling (d f q k : Nat) (r : Request) (s : State) : (lpuHold d f q k r s).rw.pendingBilling = s.rw.pendingBilling := by
  unfold lpuHold; (repeat' split) <;> simp [modEntry, modDelivery]

@[simp] theorem holdJoin_cu (d : Nat) (rs : List Request) (s : State) : (holdJoin d rs s).cu = s.cu := by
  unfold holdJoin; (repeat' split) <;> simp [modEntry, modDelivery]
@[simp] theorem holdJoin_tb (d : Nat) (rs : List Request) (s : State) : (holdJoin d rs s).tb = s.tb := by
  unfold holdJoin; (repeat' split) <;> simp [modEntry, modDelivery]
@[simp] theorem holdJoin_fm (d : Nat) (rs : List Request) (s : State) : (holdJoin d rs s).fm = s.fm := by
  unfold holdJoin; (repeat' split) <;> simp [modEntry, modDelivery]
@[simp] theorem holdJoin_bt (d : Nat) (rs : List Request) (s : State) : (holdJoin d rs s).bt = s.bt := by
  unfold holdJoin; (repeat' split) <;> simp [modEntry, modDelivery]
@[simp] theorem holdJoin_ga (d : Nat) (rs : List Request) (s : State) : (holdJoin d rs s).ga = s.ga := by
  unfold holdJoin; (repeat' split) <;> simp [modEntry, modDelivery]
@[simp] theorem holdJoin_ru (d : Nat) (rs : List Request) (s : State) : (holdJoin d rs s).ru = s.ru := by
  unfold holdJoin; (repeat' split) <;> simp [modEntry, modDelivery]
@[simp] theorem holdJoin_dm (d : Nat) (rs : List Request) (s : State) : (holdJoin d rs s).dm = s.dm := by
  unfold holdJoin; (repeat' split) <;> simp [modEntry, modDelivery]
@[simp] theorem holdJoin_mu (d : Nat) (rs : List Request) (s : State) : (holdJoin d rs s).mu = s.mu := by
  unfold holdJoin; (repeat' split) <;> simp [modEntry, modDelivery]
@[simp] theorem holdJoin_pending (d : Nat) (rs : List Request) (s : State) : (holdJoin d rs s).pending = s.pending := by
  unfold holdJoin; (repeat' split) <;> simp [modEntry, modDelivery]
@[simp] theorem holdJoin_lpu_mode (d : Nat) (rs : List Request) (s : State) : (holdJoin d rs s).lpu.mode = s.lpu.mode := by
  unfold holdJoin; (repeat' split) <;> simp [modEntry, modDelivery]
@[simp] theorem holdJoin_lpu_depth (d : Nat) (rs : List Request) (s : State) : (holdJoin d rs s).lpu.depth = s.lpu.depth := by
  unfold holdJoin; (repeat' split) <;> simp [modEntry, modDelivery]
@[simp] theorem holdJoin_lpu_rings (d : Nat) (rs : List Request) (s : State) : (holdJoin d rs s).lpu.rings = s.lpu.rings := by
  unfold holdJoin; (repeat' split) <;> simp [modEntry, modDelivery]
@[simp] theorem holdJoin_lpu_windows (d : Nat) (rs : List Request) (s : State) : (holdJoin d rs s).lpu.windows = s.lpu.windows := by
  unfold holdJoin; (repeat' split) <;> simp [modEntry, modDelivery]
@[simp] theorem holdJoin_lpu_latches (d : Nat) (rs : List Request) (s : State) : (holdJoin d rs s).lpu.latches = s.lpu.latches := by
  unfold holdJoin; (repeat' split) <;> simp [modEntry, modDelivery]
@[simp] theorem holdJoin_lpu_forwarding (d : Nat) (rs : List Request) (s : State) : (holdJoin d rs s).lpu.forwarding = s.lpu.forwarding := by
  unfold holdJoin; (repeat' split) <;> simp [modEntry, modDelivery]
@[simp] theorem holdJoin_lpu_decidedReads (d : Nat) (rs : List Request) (s : State) : (holdJoin d rs s).lpu.decidedReads = s.lpu.decidedReads := by
  unfold holdJoin; (repeat' split) <;> simp [modEntry, modDelivery]
@[simp] theorem holdJoin_lpu_resetAsserted (d : Nat) (rs : List Request) (s : State) : (holdJoin d rs s).lpu.resetAsserted = s.lpu.resetAsserted := by
  unfold holdJoin; (repeat' split) <;> simp [modEntry, modDelivery]
@[simp] theorem holdJoin_rw_pendingBilling (d : Nat) (rs : List Request) (s : State) : (holdJoin d rs s).rw.pendingBilling = s.rw.pendingBilling := by
  unfold holdJoin; (repeat' split) <;> simp [modEntry, modDelivery]

@[simp] theorem holdFree_cu (d : Nat) (s : State) : (holdFree d s).cu = s.cu := by
  unfold holdFree; (repeat' split) <;> simp [modEntry, modDelivery]
@[simp] theorem holdFree_tb (d : Nat) (s : State) : (holdFree d s).tb = s.tb := by
  unfold holdFree; (repeat' split) <;> simp [modEntry, modDelivery]
@[simp] theorem holdFree_fm (d : Nat) (s : State) : (holdFree d s).fm = s.fm := by
  unfold holdFree; (repeat' split) <;> simp [modEntry, modDelivery]
@[simp] theorem holdFree_bt (d : Nat) (s : State) : (holdFree d s).bt = s.bt := by
  unfold holdFree; (repeat' split) <;> simp [modEntry, modDelivery]
@[simp] theorem holdFree_ga (d : Nat) (s : State) : (holdFree d s).ga = s.ga := by
  unfold holdFree; (repeat' split) <;> simp [modEntry, modDelivery]
@[simp] theorem holdFree_ru (d : Nat) (s : State) : (holdFree d s).ru = s.ru := by
  unfold holdFree; (repeat' split) <;> simp [modEntry, modDelivery]
@[simp] theorem holdFree_dm (d : Nat) (s : State) : (holdFree d s).dm = s.dm := by
  unfold holdFree; (repeat' split) <;> simp [modEntry, modDelivery]
@[simp] theorem holdFree_mu (d : Nat) (s : State) : (holdFree d s).mu = s.mu := by
  unfold holdFree; (repeat' split) <;> simp [modEntry, modDelivery]
@[simp] theorem holdFree_pending (d : Nat) (s : State) : (holdFree d s).pending = s.pending := by
  unfold holdFree; (repeat' split) <;> simp [modEntry, modDelivery]
@[simp] theorem holdFree_lpu_mode (d : Nat) (s : State) : (holdFree d s).lpu.mode = s.lpu.mode := by
  unfold holdFree; (repeat' split) <;> simp [modEntry, modDelivery]
@[simp] theorem holdFree_lpu_depth (d : Nat) (s : State) : (holdFree d s).lpu.depth = s.lpu.depth := by
  unfold holdFree; (repeat' split) <;> simp [modEntry, modDelivery]
@[simp] theorem holdFree_lpu_rings (d : Nat) (s : State) : (holdFree d s).lpu.rings = s.lpu.rings := by
  unfold holdFree; (repeat' split) <;> simp [modEntry, modDelivery]
@[simp] theorem holdFree_lpu_windows (d : Nat) (s : State) : (holdFree d s).lpu.windows = s.lpu.windows := by
  unfold holdFree; (repeat' split) <;> simp [modEntry, modDelivery]
@[simp] theorem holdFree_lpu_latches (d : Nat) (s : State) : (holdFree d s).lpu.latches = s.lpu.latches := by
  unfold holdFree; (repeat' split) <;> simp [modEntry, modDelivery]
@[simp] theorem holdFree_lpu_forwarding (d : Nat) (s : State) : (holdFree d s).lpu.forwarding = s.lpu.forwarding := by
  unfold holdFree; (repeat' split) <;> simp [modEntry, modDelivery]
@[simp] theorem holdFree_lpu_decidedReads (d : Nat) (s : State) : (holdFree d s).lpu.decidedReads = s.lpu.decidedReads := by
  unfold holdFree; (repeat' split) <;> simp [modEntry, modDelivery]
@[simp] theorem holdFree_lpu_resetAsserted (d : Nat) (s : State) : (holdFree d s).lpu.resetAsserted = s.lpu.resetAsserted := by
  unfold holdFree; (repeat' split) <;> simp [modEntry, modDelivery]
@[simp] theorem holdFree_rw_pendingBilling (d : Nat) (s : State) : (holdFree d s).rw.pendingBilling = s.rw.pendingBilling := by
  unfold holdFree; (repeat' split) <;> simp [modEntry, modDelivery]

@[simp] theorem ruCancelTake_cu (d : Nat) (h : Option Nat) (s : State) : (ruCancelTake d h s).cu = s.cu := by
  unfold ruCancelTake; (repeat' split) <;> simp [modEntry, modDelivery]
@[simp] theorem ruCancelTake_tb (d : Nat) (h : Option Nat) (s : State) : (ruCancelTake d h s).tb = s.tb := by
  unfold ruCancelTake; (repeat' split) <;> simp [modEntry, modDelivery]
@[simp] theorem ruCancelTake_fm (d : Nat) (h : Option Nat) (s : State) : (ruCancelTake d h s).fm = s.fm := by
  unfold ruCancelTake; (repeat' split) <;> simp [modEntry, modDelivery]
@[simp] theorem ruCancelTake_bt (d : Nat) (h : Option Nat) (s : State) : (ruCancelTake d h s).bt = s.bt := by
  unfold ruCancelTake; (repeat' split) <;> simp [modEntry, modDelivery]
@[simp] theorem ruCancelTake_ga (d : Nat) (h : Option Nat) (s : State) : (ruCancelTake d h s).ga = s.ga := by
  unfold ruCancelTake; (repeat' split) <;> simp [modEntry, modDelivery]
@[simp] theorem ruCancelTake_dm (d : Nat) (h : Option Nat) (s : State) : (ruCancelTake d h s).dm = s.dm := by
  unfold ruCancelTake; (repeat' split) <;> simp [modEntry, modDelivery]
@[simp] theorem ruCancelTake_mu (d : Nat) (h : Option Nat) (s : State) : (ruCancelTake d h s).mu = s.mu := by
  unfold ruCancelTake; (repeat' split) <;> simp [modEntry, modDelivery]
@[simp] theorem ruCancelTake_pending (d : Nat) (h : Option Nat) (s : State) : (ruCancelTake d h s).pending = s.pending := by
  unfold ruCancelTake; (repeat' split) <;> simp [modEntry, modDelivery]
@[simp] theorem ruCancelTake_lpu_mode (d : Nat) (h : Option Nat) (s : State) : (ruCancelTake d h s).lpu.mode = s.lpu.mode := by
  unfold ruCancelTake; (repeat' split) <;> simp [modEntry, modDelivery]
@[simp] theorem ruCancelTake_lpu_depth (d : Nat) (h : Option Nat) (s : State) : (ruCancelTake d h s).lpu.depth = s.lpu.depth := by
  unfold ruCancelTake; (repeat' split) <;> simp [modEntry, modDelivery]
@[simp] theorem ruCancelTake_lpu_rings (d : Nat) (h : Option Nat) (s : State) : (ruCancelTake d h s).lpu.rings = s.lpu.rings := by
  unfold ruCancelTake; (repeat' split) <;> simp [modEntry, modDelivery]
@[simp] theorem ruCancelTake_lpu_windows (d : Nat) (h : Option Nat) (s : State) : (ruCancelTake d h s).lpu.windows = s.lpu.windows := by
  unfold ruCancelTake; (repeat' split) <;> simp [modEntry, modDelivery]
@[simp] theorem ruCancelTake_lpu_latches (d : Nat) (h : Option Nat) (s : State) : (ruCancelTake d h s).lpu.latches = s.lpu.latches := by
  unfold ruCancelTake; (repeat' split) <;> simp [modEntry, modDelivery]
@[simp] theorem ruCancelTake_lpu_holds (d : Nat) (h : Option Nat) (s : State) : (ruCancelTake d h s).lpu.holds = s.lpu.holds := by
  unfold ruCancelTake; (repeat' split) <;> simp [modEntry, modDelivery]
@[simp] theorem ruCancelTake_lpu_forwarding (d : Nat) (h : Option Nat) (s : State) : (ruCancelTake d h s).lpu.forwarding = s.lpu.forwarding := by
  unfold ruCancelTake; (repeat' split) <;> simp [modEntry, modDelivery]
@[simp] theorem ruCancelTake_lpu_decidedReads (d : Nat) (h : Option Nat) (s : State) : (ruCancelTake d h s).lpu.decidedReads = s.lpu.decidedReads := by
  unfold ruCancelTake; (repeat' split) <;> simp [modEntry, modDelivery]
@[simp] theorem ruCancelTake_lpu_resetAsserted (d : Nat) (h : Option Nat) (s : State) : (ruCancelTake d h s).lpu.resetAsserted = s.lpu.resetAsserted := by
  unfold ruCancelTake; (repeat' split) <;> simp [modEntry, modDelivery]
@[simp] theorem ruCancelTake_rw_pendingBilling (d : Nat) (h : Option Nat) (s : State) : (ruCancelTake d h s).rw.pendingBilling = s.rw.pendingBilling := by
  unfold ruCancelTake; (repeat' split) <;> simp [modEntry, modDelivery]
@[simp] theorem ruCancelTake_destParams (d : Nat) (h : Option Nat) (i : Nat) (s : State) : (ruCancelTake d h s).destParams i = s.destParams i := by
  unfold ruCancelTake; (repeat' split) <;> simp [modEntry, modDelivery]
@[simp] theorem ruCancelTake_entry (d : Nat) (h : Option Nat) (i : Nat) (s : State) : (ruCancelTake d h s).entry i = s.entry i := by
  unfold ruCancelTake; (repeat' split) <;> simp [modEntry, modDelivery]
@[simp] theorem ruCancelTake_feedRec (d : Nat) (h : Option Nat) (i : Nat) (s : State) : (ruCancelTake d h s).feedRec i = s.feedRec i := by
  unfold ruCancelTake; (repeat' split) <;> simp [modEntry, modDelivery]
@[simp] theorem ruCancelTake_feedParams (d : Nat) (h : Option Nat) (i : Nat) (s : State) : (ruCancelTake d h s).feedParams i = s.feedParams i := by
  unfold ruCancelTake; (repeat' split) <;> simp [modEntry, modDelivery]
@[simp] theorem ruCancelTake_holder (d : Nat) (h : Option Nat) (i : Nat) (s : State) : (ruCancelTake d h s).holder i = s.holder i := by
  unfold ruCancelTake; (repeat' split) <;> simp [modEntry, modDelivery]
@[simp] theorem ruCancelTake_grantQueue (d : Nat) (h : Option Nat) (i : Nat) (s : State) : (ruCancelTake d h s).grantQueue i = s.grantQueue i := by
  unfold ruCancelTake; (repeat' split) <;> simp [modEntry, modDelivery]
@[simp] theorem ruCancelTake_delivery (d : Nat) (h : Option Nat) (i : Nat) (s : State) : (ruCancelTake d h s).delivery i = s.delivery i := by
  unfold ruCancelTake; (repeat' split) <;> simp [modEntry, modDelivery]
@[simp] theorem ruCancelTake_tariff (d : Nat) (h : Option Nat) (i : Nat) (s : State) : (ruCancelTake d h s).tariff i = s.tariff i := by
  unfold ruCancelTake; (repeat' split) <;> simp [modEntry, modDelivery]
@[simp] theorem ruCancelTake_ringDef (d : Nat) (h : Option Nat) (i : Nat) (s : State) : (ruCancelTake d h s).ringDef i = s.ringDef i := by
  unfold ruCancelTake; (repeat' split) <;> simp [modEntry, modDelivery]
@[simp] theorem ruCancelTake_windowDef (d : Nat) (h : Option Nat) (i : Nat) (s : State) : (ruCancelTake d h s).windowDef i = s.windowDef i := by
  unfold ruCancelTake; (repeat' split) <;> simp [modEntry, modDelivery]
@[simp] theorem ruCancelTake_ringDepth (d : Nat) (h : Option Nat)  (s : State) : (ruCancelTake d h s).ringDepth = s.ringDepth := by
  unfold ruCancelTake; (repeat' split) <;> simp [modEntry, modDelivery]
@[simp] theorem ruCancelTake_usable (d : Nat) (h : Option Nat) (i : Nat) (s : State) : (ruCancelTake d h s).usable i = s.usable i := by
  unfold ruCancelTake; (repeat' split) <;> simp [modEntry, modDelivery]
@[simp] theorem ruCancelTake_lastSlot (d : Nat) (h : Option Nat) (i : Nat) (s : State) : (ruCancelTake d h s).lastSlot i = s.lastSlot i := by
  unfold ruCancelTake; (repeat' split) <;> simp [modEntry, modDelivery]

@[simp] theorem ruNewHolder_cu (d : Nat) (s : State) : (ruNewHolder d s).cu = s.cu := by
  unfold ruNewHolder; (repeat' split) <;> simp [modEntry, modDelivery]
@[simp] theorem ruNewHolder_tb (d : Nat) (s : State) : (ruNewHolder d s).tb = s.tb := by
  unfold ruNewHolder; (repeat' split) <;> simp [modEntry, modDelivery]
@[simp] theorem ruNewHolder_fm (d : Nat) (s : State) : (ruNewHolder d s).fm = s.fm := by
  unfold ruNewHolder; (repeat' split) <;> simp [modEntry, modDelivery]
@[simp] theorem ruNewHolder_bt (d : Nat) (s : State) : (ruNewHolder d s).bt = s.bt := by
  unfold ruNewHolder; (repeat' split) <;> simp [modEntry, modDelivery]
@[simp] theorem ruNewHolder_ga (d : Nat) (s : State) : (ruNewHolder d s).ga = s.ga := by
  unfold ruNewHolder; (repeat' split) <;> simp [modEntry, modDelivery]
@[simp] theorem ruNewHolder_dm (d : Nat) (s : State) : (ruNewHolder d s).dm = s.dm := by
  unfold ruNewHolder; (repeat' split) <;> simp [modEntry, modDelivery]
@[simp] theorem ruNewHolder_mu (d : Nat) (s : State) : (ruNewHolder d s).mu = s.mu := by
  unfold ruNewHolder; (repeat' split) <;> simp [modEntry, modDelivery]
@[simp] theorem ruNewHolder_pending (d : Nat) (s : State) : (ruNewHolder d s).pending = s.pending := by
  unfold ruNewHolder; (repeat' split) <;> simp [modEntry, modDelivery]
@[simp] theorem ruNewHolder_lpu_mode (d : Nat) (s : State) : (ruNewHolder d s).lpu.mode = s.lpu.mode := by
  unfold ruNewHolder; (repeat' split) <;> simp [modEntry, modDelivery]
@[simp] theorem ruNewHolder_lpu_depth (d : Nat) (s : State) : (ruNewHolder d s).lpu.depth = s.lpu.depth := by
  unfold ruNewHolder; (repeat' split) <;> simp [modEntry, modDelivery]
@[simp] theorem ruNewHolder_lpu_rings (d : Nat) (s : State) : (ruNewHolder d s).lpu.rings = s.lpu.rings := by
  unfold ruNewHolder; (repeat' split) <;> simp [modEntry, modDelivery]
@[simp] theorem ruNewHolder_lpu_windows (d : Nat) (s : State) : (ruNewHolder d s).lpu.windows = s.lpu.windows := by
  unfold ruNewHolder; (repeat' split) <;> simp [modEntry, modDelivery]
@[simp] theorem ruNewHolder_lpu_latches (d : Nat) (s : State) : (ruNewHolder d s).lpu.latches = s.lpu.latches := by
  unfold ruNewHolder; (repeat' split) <;> simp [modEntry, modDelivery]
@[simp] theorem ruNewHolder_lpu_holds (d : Nat) (s : State) : (ruNewHolder d s).lpu.holds = s.lpu.holds := by
  unfold ruNewHolder; (repeat' split) <;> simp [modEntry, modDelivery]
@[simp] theorem ruNewHolder_lpu_forwarding (d : Nat) (s : State) : (ruNewHolder d s).lpu.forwarding = s.lpu.forwarding := by
  unfold ruNewHolder; (repeat' split) <;> simp [modEntry, modDelivery]
@[simp] theorem ruNewHolder_lpu_decidedReads (d : Nat) (s : State) : (ruNewHolder d s).lpu.decidedReads = s.lpu.decidedReads := by
  unfold ruNewHolder; (repeat' split) <;> simp [modEntry, modDelivery]
@[simp] theorem ruNewHolder_lpu_resetAsserted (d : Nat) (s : State) : (ruNewHolder d s).lpu.resetAsserted = s.lpu.resetAsserted := by
  unfold ruNewHolder; (repeat' split) <;> simp [modEntry, modDelivery]
@[simp] theorem ruNewHolder_rw_pendingBilling (d : Nat) (s : State) : (ruNewHolder d s).rw.pendingBilling = s.rw.pendingBilling := by
  unfold ruNewHolder; (repeat' split) <;> simp [modEntry, modDelivery]
@[simp] theorem ruNewHolder_destParams (d : Nat) (i : Nat) (s : State) : (ruNewHolder d s).destParams i = s.destParams i := by
  unfold ruNewHolder; (repeat' split) <;> simp [modEntry, modDelivery]
@[simp] theorem ruNewHolder_entry (d : Nat) (i : Nat) (s : State) : (ruNewHolder d s).entry i = s.entry i := by
  unfold ruNewHolder; (repeat' split) <;> simp [modEntry, modDelivery]
@[simp] theorem ruNewHolder_feedRec (d : Nat) (i : Nat) (s : State) : (ruNewHolder d s).feedRec i = s.feedRec i := by
  unfold ruNewHolder; (repeat' split) <;> simp [modEntry, modDelivery]
@[simp] theorem ruNewHolder_feedParams (d : Nat) (i : Nat) (s : State) : (ruNewHolder d s).feedParams i = s.feedParams i := by
  unfold ruNewHolder; (repeat' split) <;> simp [modEntry, modDelivery]
@[simp] theorem ruNewHolder_holder (d : Nat) (i : Nat) (s : State) : (ruNewHolder d s).holder i = s.holder i := by
  unfold ruNewHolder; (repeat' split) <;> simp [modEntry, modDelivery]
@[simp] theorem ruNewHolder_grantQueue (d : Nat) (i : Nat) (s : State) : (ruNewHolder d s).grantQueue i = s.grantQueue i := by
  unfold ruNewHolder; (repeat' split) <;> simp [modEntry, modDelivery]
@[simp] theorem ruNewHolder_delivery (d : Nat) (i : Nat) (s : State) : (ruNewHolder d s).delivery i = s.delivery i := by
  unfold ruNewHolder; (repeat' split) <;> simp [modEntry, modDelivery]
@[simp] theorem ruNewHolder_tariff (d : Nat) (i : Nat) (s : State) : (ruNewHolder d s).tariff i = s.tariff i := by
  unfold ruNewHolder; (repeat' split) <;> simp [modEntry, modDelivery]
@[simp] theorem ruNewHolder_ringDef (d : Nat) (i : Nat) (s : State) : (ruNewHolder d s).ringDef i = s.ringDef i := by
  unfold ruNewHolder; (repeat' split) <;> simp [modEntry, modDelivery]
@[simp] theorem ruNewHolder_windowDef (d : Nat) (i : Nat) (s : State) : (ruNewHolder d s).windowDef i = s.windowDef i := by
  unfold ruNewHolder; (repeat' split) <;> simp [modEntry, modDelivery]
@[simp] theorem ruNewHolder_ringDepth (d : Nat)  (s : State) : (ruNewHolder d s).ringDepth = s.ringDepth := by
  unfold ruNewHolder; (repeat' split) <;> simp [modEntry, modDelivery]
@[simp] theorem ruNewHolder_usable (d : Nat) (i : Nat) (s : State) : (ruNewHolder d s).usable i = s.usable i := by
  unfold ruNewHolder; (repeat' split) <;> simp [modEntry, modDelivery]
@[simp] theorem ruNewHolder_lastSlot (d : Nat) (i : Nat) (s : State) : (ruNewHolder d s).lastSlot i = s.lastSlot i := by
  unfold ruNewHolder; (repeat' split) <;> simp [modEntry, modDelivery]

@[simp] theorem btGranted_cu (e : Nat) (s : State) : (btGranted e s).cu = s.cu := by
  unfold btGranted; (repeat' split) <;> simp [modEntry, modDelivery]
@[simp] theorem btGranted_tb (e : Nat) (s : State) : (btGranted e s).tb = s.tb := by
  unfold btGranted; (repeat' split) <;> simp [modEntry, modDelivery]
@[simp] theorem btGranted_fm (e : Nat) (s : State) : (btGranted e s).fm = s.fm := by
  unfold btGranted; (repeat' split) <;> simp [modEntry, modDelivery]
@[simp] theorem btGranted_ga (e : Nat) (s : State) : (btGranted e s).ga = s.ga := by
  unfold btGranted; (repeat' split) <;> simp [modEntry, modDelivery]
@[simp] theorem btGranted_ru (e : Nat) (s : State) : (btGranted e s).ru = s.ru := by
  unfold btGranted; (repeat' split) <;> simp [modEntry, modDelivery]
@[simp] theorem btGranted_dm (e : Nat) (s : State) : (btGranted e s).dm = s.dm := by
  unfold btGranted; (repeat' split) <;> simp [modEntry, modDelivery]
@[simp] theorem btGranted_mu (e : Nat) (s : State) : (btGranted e s).mu = s.mu := by
  unfold btGranted; (repeat' split) <;> simp [modEntry, modDelivery]
@[simp] theorem btGranted_pending (e : Nat) (s : State) : (btGranted e s).pending = s.pending := by
  unfold btGranted; (repeat' split) <;> simp [modEntry, modDelivery]
@[simp] theorem btGranted_lpu_mode (e : Nat) (s : State) : (btGranted e s).lpu.mode = s.lpu.mode := by
  unfold btGranted; (repeat' split) <;> simp [modEntry, modDelivery]
@[simp] theorem btGranted_lpu_depth (e : Nat) (s : State) : (btGranted e s).lpu.depth = s.lpu.depth := by
  unfold btGranted; (repeat' split) <;> simp [modEntry, modDelivery]
@[simp] theorem btGranted_lpu_rings (e : Nat) (s : State) : (btGranted e s).lpu.rings = s.lpu.rings := by
  unfold btGranted; (repeat' split) <;> simp [modEntry, modDelivery]
@[simp] theorem btGranted_lpu_windows (e : Nat) (s : State) : (btGranted e s).lpu.windows = s.lpu.windows := by
  unfold btGranted; (repeat' split) <;> simp [modEntry, modDelivery]
@[simp] theorem btGranted_lpu_latches (e : Nat) (s : State) : (btGranted e s).lpu.latches = s.lpu.latches := by
  unfold btGranted; (repeat' split) <;> simp [modEntry, modDelivery]
@[simp] theorem btGranted_lpu_holds (e : Nat) (s : State) : (btGranted e s).lpu.holds = s.lpu.holds := by
  unfold btGranted; (repeat' split) <;> simp [modEntry, modDelivery]
@[simp] theorem btGranted_lpu_forwarding (e : Nat) (s : State) : (btGranted e s).lpu.forwarding = s.lpu.forwarding := by
  unfold btGranted; (repeat' split) <;> simp [modEntry, modDelivery]
@[simp] theorem btGranted_lpu_decidedReads (e : Nat) (s : State) : (btGranted e s).lpu.decidedReads = s.lpu.decidedReads := by
  unfold btGranted; (repeat' split) <;> simp [modEntry, modDelivery]
@[simp] theorem btGranted_lpu_resetAsserted (e : Nat) (s : State) : (btGranted e s).lpu.resetAsserted = s.lpu.resetAsserted := by
  unfold btGranted; (repeat' split) <;> simp [modEntry, modDelivery]
@[simp] theorem btGranted_rw_pendingBilling (e : Nat) (s : State) : (btGranted e s).rw.pendingBilling = s.rw.pendingBilling := by
  unfold btGranted; (repeat' split) <;> simp [modEntry, modDelivery]
@[simp] theorem btGranted_route (e : Nat) (i : Nat) (s : State) : (btGranted e s).route i = s.route i := by
  unfold btGranted; (repeat' split) <;> simp [modEntry, modDelivery]
@[simp] theorem btGranted_destParams (e : Nat) (i : Nat) (s : State) : (btGranted e s).destParams i = s.destParams i := by
  unfold btGranted; (repeat' split) <;> simp [modEntry, modDelivery]
@[simp] theorem btGranted_feedRec (e : Nat) (i : Nat) (s : State) : (btGranted e s).feedRec i = s.feedRec i := by
  unfold btGranted; (repeat' split) <;> simp [modEntry, modDelivery]
@[simp] theorem btGranted_feedParams (e : Nat) (i : Nat) (s : State) : (btGranted e s).feedParams i = s.feedParams i := by
  unfold btGranted; (repeat' split) <;> simp [modEntry, modDelivery]
@[simp] theorem btGranted_holder (e : Nat) (i : Nat) (s : State) : (btGranted e s).holder i = s.holder i := by
  unfold btGranted; (repeat' split) <;> simp [modEntry, modDelivery]
@[simp] theorem btGranted_grantQueue (e : Nat) (i : Nat) (s : State) : (btGranted e s).grantQueue i = s.grantQueue i := by
  unfold btGranted; (repeat' split) <;> simp [modEntry, modDelivery]
@[simp] theorem btGranted_delivery (e : Nat) (i : Nat) (s : State) : (btGranted e s).delivery i = s.delivery i := by
  unfold btGranted; (repeat' split) <;> simp [modEntry, modDelivery]
@[simp] theorem btGranted_tariff (e : Nat) (i : Nat) (s : State) : (btGranted e s).tariff i = s.tariff i := by
  unfold btGranted; (repeat' split) <;> simp [modEntry, modDelivery]
@[simp] theorem btGranted_ringDef (e : Nat) (i : Nat) (s : State) : (btGranted e s).ringDef i = s.ringDef i := by
  unfold btGranted; (repeat' split) <;> simp [modEntry, modDelivery]
@[simp] theorem btGranted_windowDef (e : Nat) (i : Nat) (s : State) : (btGranted e s).windowDef i = s.windowDef i := by
  unfold btGranted; (repeat' split) <;> simp [modEntry, modDelivery]
@[simp] theorem btGranted_ringDepth (e : Nat)  (s : State) : (btGranted e s).ringDepth = s.ringDepth := by
  unfold btGranted; (repeat' split) <;> simp [modEntry, modDelivery]
@[simp] theorem btGranted_usable (e : Nat) (i : Nat) (s : State) : (btGranted e s).usable i = s.usable i := by
  unfold btGranted; (repeat' split) <;> simp [modEntry, modDelivery]
@[simp] theorem btGranted_lastSlot (e : Nat) (i : Nat) (s : State) : (btGranted e s).lastSlot i = s.lastSlot i := by
  unfold btGranted; (repeat' split) <;> simp [modEntry, modDelivery]

@[simp] theorem btQueued_cu (e : Nat) (s : State) : (btQueued e s).cu = s.cu := by
  unfold btQueued; (repeat' split) <;> simp [modEntry, modDelivery]
@[simp] theorem btQueued_tb (e : Nat) (s : State) : (btQueued e s).tb = s.tb := by
  unfold btQueued; (repeat' split) <;> simp [modEntry, modDelivery]
@[simp] theorem btQueued_fm (e : Nat) (s : State) : (btQueued e s).fm = s.fm := by
  unfold btQueued; (repeat' split) <;> simp [modEntry, modDelivery]
@[simp] theorem btQueued_ga (e : Nat) (s : State) : (btQueued e s).ga = s.ga := by
  unfold btQueued; (repeat' split) <;> simp [modEntry, modDelivery]
@[simp] theorem btQueued_ru (e : Nat) (s : State) : (btQueued e s).ru = s.ru := by
  unfold btQueued; (repeat' split) <;> simp [modEntry, modDelivery]
@[simp] theorem btQueued_dm (e : Nat) (s : State) : (btQueued e s).dm = s.dm := by
  unfold btQueued; (repeat' split) <;> simp [modEntry, modDelivery]
@[simp] theorem btQueued_mu (e : Nat) (s : State) : (btQueued e s).mu = s.mu := by
  unfold btQueued; (repeat' split) <;> simp [modEntry, modDelivery]
@[simp] theorem btQueued_pending (e : Nat) (s : State) : (btQueued e s).pending = s.pending := by
  unfold btQueued; (repeat' split) <;> simp [modEntry, modDelivery]
@[simp] theorem btQueued_lpu_mode (e : Nat) (s : State) : (btQueued e s).lpu.mode = s.lpu.mode := by
  unfold btQueued; (repeat' split) <;> simp [modEntry, modDelivery]
@[simp] theorem btQueued_lpu_depth (e : Nat) (s : State) : (btQueued e s).lpu.depth = s.lpu.depth := by
  unfold btQueued; (repeat' split) <;> simp [modEntry, modDelivery]
@[simp] theorem btQueued_lpu_rings (e : Nat) (s : State) : (btQueued e s).lpu.rings = s.lpu.rings := by
  unfold btQueued; (repeat' split) <;> simp [modEntry, modDelivery]
@[simp] theorem btQueued_lpu_windows (e : Nat) (s : State) : (btQueued e s).lpu.windows = s.lpu.windows := by
  unfold btQueued; (repeat' split) <;> simp [modEntry, modDelivery]
@[simp] theorem btQueued_lpu_latches (e : Nat) (s : State) : (btQueued e s).lpu.latches = s.lpu.latches := by
  unfold btQueued; (repeat' split) <;> simp [modEntry, modDelivery]
@[simp] theorem btQueued_lpu_holds (e : Nat) (s : State) : (btQueued e s).lpu.holds = s.lpu.holds := by
  unfold btQueued; (repeat' split) <;> simp [modEntry, modDelivery]
@[simp] theorem btQueued_lpu_forwarding (e : Nat) (s : State) : (btQueued e s).lpu.forwarding = s.lpu.forwarding := by
  unfold btQueued; (repeat' split) <;> simp [modEntry, modDelivery]
@[simp] theorem btQueued_lpu_decidedReads (e : Nat) (s : State) : (btQueued e s).lpu.decidedReads = s.lpu.decidedReads := by
  unfold btQueued; (repeat' split) <;> simp [modEntry, modDelivery]
@[simp] theorem btQueued_lpu_resetAsserted (e : Nat) (s : State) : (btQueued e s).lpu.resetAsserted = s.lpu.resetAsserted := by
  unfold btQueued; (repeat' split) <;> simp [modEntry, modDelivery]
@[simp] theorem btQueued_rw_pendingBilling (e : Nat) (s : State) : (btQueued e s).rw.pendingBilling = s.rw.pendingBilling := by
  unfold btQueued; (repeat' split) <;> simp [modEntry, modDelivery]
@[simp] theorem btQueued_route (e : Nat) (i : Nat) (s : State) : (btQueued e s).route i = s.route i := by
  unfold btQueued; (repeat' split) <;> simp [modEntry, modDelivery]
@[simp] theorem btQueued_destParams (e : Nat) (i : Nat) (s : State) : (btQueued e s).destParams i = s.destParams i := by
  unfold btQueued; (repeat' split) <;> simp [modEntry, modDelivery]
@[simp] theorem btQueued_feedRec (e : Nat) (i : Nat) (s : State) : (btQueued e s).feedRec i = s.feedRec i := by
  unfold btQueued; (repeat' split) <;> simp [modEntry, modDelivery]
@[simp] theorem btQueued_feedParams (e : Nat) (i : Nat) (s : State) : (btQueued e s).feedParams i = s.feedParams i := by
  unfold btQueued; (repeat' split) <;> simp [modEntry, modDelivery]
@[simp] theorem btQueued_holder (e : Nat) (i : Nat) (s : State) : (btQueued e s).holder i = s.holder i := by
  unfold btQueued; (repeat' split) <;> simp [modEntry, modDelivery]
@[simp] theorem btQueued_grantQueue (e : Nat) (i : Nat) (s : State) : (btQueued e s).grantQueue i = s.grantQueue i := by
  unfold btQueued; (repeat' split) <;> simp [modEntry, modDelivery]
@[simp] theorem btQueued_delivery (e : Nat) (i : Nat) (s : State) : (btQueued e s).delivery i = s.delivery i := by
  unfold btQueued; (repeat' split) <;> simp [modEntry, modDelivery]
@[simp] theorem btQueued_tariff (e : Nat) (i : Nat) (s : State) : (btQueued e s).tariff i = s.tariff i := by
  unfold btQueued; (repeat' split) <;> simp [modEntry, modDelivery]
@[simp] theorem btQueued_ringDef (e : Nat) (i : Nat) (s : State) : (btQueued e s).ringDef i = s.ringDef i := by
  unfold btQueued; (repeat' split) <;> simp [modEntry, modDelivery]
@[simp] theorem btQueued_windowDef (e : Nat) (i : Nat) (s : State) : (btQueued e s).windowDef i = s.windowDef i := by
  unfold btQueued; (repeat' split) <;> simp [modEntry, modDelivery]
@[simp] theorem btQueued_ringDepth (e : Nat)  (s : State) : (btQueued e s).ringDepth = s.ringDepth := by
  unfold btQueued; (repeat' split) <;> simp [modEntry, modDelivery]
@[simp] theorem btQueued_usable (e : Nat) (i : Nat) (s : State) : (btQueued e s).usable i = s.usable i := by
  unfold btQueued; (repeat' split) <;> simp [modEntry, modDelivery]
@[simp] theorem btQueued_lastSlot (e : Nat) (i : Nat) (s : State) : (btQueued e s).lastSlot i = s.lastSlot i := by
  unfold btQueued; (repeat' split) <;> simp [modEntry, modDelivery]

@[simp] theorem btSuspended_cu (e : Nat) (s : State) : (btSuspended e s).cu = s.cu := by
  unfold btSuspended; (repeat' split) <;> simp [modEntry, modDelivery]
@[simp] theorem btSuspended_tb (e : Nat) (s : State) : (btSuspended e s).tb = s.tb := by
  unfold btSuspended; (repeat' split) <;> simp [modEntry, modDelivery]
@[simp] theorem btSuspended_fm (e : Nat) (s : State) : (btSuspended e s).fm = s.fm := by
  unfold btSuspended; (repeat' split) <;> simp [modEntry, modDelivery]
@[simp] theorem btSuspended_ga (e : Nat) (s : State) : (btSuspended e s).ga = s.ga := by
  unfold btSuspended; (repeat' split) <;> simp [modEntry, modDelivery]
@[simp] theorem btSuspended_ru (e : Nat) (s : State) : (btSuspended e s).ru = s.ru := by
  unfold btSuspended; (repeat' split) <;> simp [modEntry, modDelivery]
@[simp] theorem btSuspended_dm (e : Nat) (s : State) : (btSuspended e s).dm = s.dm := by
  unfold btSuspended; (repeat' split) <;> simp [modEntry, modDelivery]
@[simp] theorem btSuspended_mu (e : Nat) (s : State) : (btSuspended e s).mu = s.mu := by
  unfold btSuspended; (repeat' split) <;> simp [modEntry, modDelivery]
@[simp] theorem btSuspended_pending (e : Nat) (s : State) : (btSuspended e s).pending = s.pending := by
  unfold btSuspended; (repeat' split) <;> simp [modEntry, modDelivery]
@[simp] theorem btSuspended_lpu_mode (e : Nat) (s : State) : (btSuspended e s).lpu.mode = s.lpu.mode := by
  unfold btSuspended; (repeat' split) <;> simp [modEntry, modDelivery]
@[simp] theorem btSuspended_lpu_depth (e : Nat) (s : State) : (btSuspended e s).lpu.depth = s.lpu.depth := by
  unfold btSuspended; (repeat' split) <;> simp [modEntry, modDelivery]
@[simp] theorem btSuspended_lpu_rings (e : Nat) (s : State) : (btSuspended e s).lpu.rings = s.lpu.rings := by
  unfold btSuspended; (repeat' split) <;> simp [modEntry, modDelivery]
@[simp] theorem btSuspended_lpu_windows (e : Nat) (s : State) : (btSuspended e s).lpu.windows = s.lpu.windows := by
  unfold btSuspended; (repeat' split) <;> simp [modEntry, modDelivery]
@[simp] theorem btSuspended_lpu_latches (e : Nat) (s : State) : (btSuspended e s).lpu.latches = s.lpu.latches := by
  unfold btSuspended; (repeat' split) <;> simp [modEntry, modDelivery]
@[simp] theorem btSuspended_lpu_holds (e : Nat) (s : State) : (btSuspended e s).lpu.holds = s.lpu.holds := by
  unfold btSuspended; (repeat' split) <;> simp [modEntry, modDelivery]
@[simp] theorem btSuspended_lpu_forwarding (e : Nat) (s : State) : (btSuspended e s).lpu.forwarding = s.lpu.forwarding := by
  unfold btSuspended; (repeat' split) <;> simp [modEntry, modDelivery]
@[simp] theorem btSuspended_lpu_decidedReads (e : Nat) (s : State) : (btSuspended e s).lpu.decidedReads = s.lpu.decidedReads := by
  unfold btSuspended; (repeat' split) <;> simp [modEntry, modDelivery]
@[simp] theorem btSuspended_lpu_resetAsserted (e : Nat) (s : State) : (btSuspended e s).lpu.resetAsserted = s.lpu.resetAsserted := by
  unfold btSuspended; (repeat' split) <;> simp [modEntry, modDelivery]
@[simp] theorem btSuspended_rw_pendingBilling (e : Nat) (s : State) : (btSuspended e s).rw.pendingBilling = s.rw.pendingBilling := by
  unfold btSuspended; (repeat' split) <;> simp [modEntry, modDelivery]
@[simp] theorem btSuspended_route (e : Nat) (i : Nat) (s : State) : (btSuspended e s).route i = s.route i := by
  unfold btSuspended; (repeat' split) <;> simp [modEntry, modDelivery]
@[simp] theorem btSuspended_destParams (e : Nat) (i : Nat) (s : State) : (btSuspended e s).destParams i = s.destParams i := by
  unfold btSuspended; (repeat' split) <;> simp [modEntry, modDelivery]
@[simp] theorem btSuspended_feedRec (e : Nat) (i : Nat) (s : State) : (btSuspended e s).feedRec i = s.feedRec i := by
  unfold btSuspended; (repeat' split) <;> simp [modEntry, modDelivery]
@[simp] theorem btSuspended_feedParams (e : Nat) (i : Nat) (s : State) : (btSuspended e s).feedParams i = s.feedParams i := by
  unfold btSuspended; (repeat' split) <;> simp [modEntry, modDelivery]
@[simp] theorem btSuspended_holder (e : Nat) (i : Nat) (s : State) : (btSuspended e s).holder i = s.holder i := by
  unfold btSuspended; (repeat' split) <;> simp [modEntry, modDelivery]
@[simp] theorem btSuspended_grantQueue (e : Nat) (i : Nat) (s : State) : (btSuspended e s).grantQueue i = s.grantQueue i := by
  unfold btSuspended; (repeat' split) <;> simp [modEntry, modDelivery]
@[simp] theorem btSuspended_delivery (e : Nat) (i : Nat) (s : State) : (btSuspended e s).delivery i = s.delivery i := by
  unfold btSuspended; (repeat' split) <;> simp [modEntry, modDelivery]
@[simp] theorem btSuspended_tariff (e : Nat) (i : Nat) (s : State) : (btSuspended e s).tariff i = s.tariff i := by
  unfold btSuspended; (repeat' split) <;> simp [modEntry, modDelivery]
@[simp] theorem btSuspended_ringDef (e : Nat) (i : Nat) (s : State) : (btSuspended e s).ringDef i = s.ringDef i := by
  unfold btSuspended; (repeat' split) <;> simp [modEntry, modDelivery]
@[simp] theorem btSuspended_windowDef (e : Nat) (i : Nat) (s : State) : (btSuspended e s).windowDef i = s.windowDef i := by
  unfold btSuspended; (repeat' split) <;> simp [modEntry, modDelivery]
@[simp] theorem btSuspended_ringDepth (e : Nat)  (s : State) : (btSuspended e s).ringDepth = s.ringDepth := by
  unfold btSuspended; (repeat' split) <;> simp [modEntry, modDelivery]
@[simp] theorem btSuspended_usable (e : Nat) (i : Nat) (s : State) : (btSuspended e s).usable i = s.usable i := by
  unfold btSuspended; (repeat' split) <;> simp [modEntry, modDelivery]
@[simp] theorem btSuspended_lastSlot (e : Nat) (i : Nat) (s : State) : (btSuspended e s).lastSlot i = s.lastSlot i := by
  unfold btSuspended; (repeat' split) <;> simp [modEntry, modDelivery]

@[simp] theorem gaJoin_cu (d e : Nat) (s : State) : (gaJoin d e s).cu = s.cu := by
  unfold gaJoin; (repeat' split) <;> simp [modEntry, modDelivery]
@[simp] theorem gaJoin_tb (d e : Nat) (s : State) : (gaJoin d e s).tb = s.tb := by
  unfold gaJoin; (repeat' split) <;> simp [modEntry, modDelivery]
@[simp] theorem gaJoin_fm (d e : Nat) (s : State) : (gaJoin d e s).fm = s.fm := by
  unfold gaJoin; (repeat' split) <;> simp [modEntry, modDelivery]
@[simp] theorem gaJoin_bt (d e : Nat) (s : State) : (gaJoin d e s).bt = s.bt := by
  unfold gaJoin; (repeat' split) <;> simp [modEntry, modDelivery]
@[simp] theorem gaJoin_ru (d e : Nat) (s : State) : (gaJoin d e s).ru = s.ru := by
  unfold gaJoin; (repeat' split) <;> simp [modEntry, modDelivery]
@[simp] theorem gaJoin_dm (d e : Nat) (s : State) : (gaJoin d e s).dm = s.dm := by
  unfold gaJoin; (repeat' split) <;> simp [modEntry, modDelivery]
@[simp] theorem gaJoin_mu (d e : Nat) (s : State) : (gaJoin d e s).mu = s.mu := by
  unfold gaJoin; (repeat' split) <;> simp [modEntry, modDelivery]
@[simp] theorem gaJoin_pending (d e : Nat) (s : State) : (gaJoin d e s).pending = s.pending := by
  unfold gaJoin; (repeat' split) <;> simp [modEntry, modDelivery]
@[simp] theorem gaJoin_lpu_mode (d e : Nat) (s : State) : (gaJoin d e s).lpu.mode = s.lpu.mode := by
  unfold gaJoin; (repeat' split) <;> simp [modEntry, modDelivery]
@[simp] theorem gaJoin_lpu_depth (d e : Nat) (s : State) : (gaJoin d e s).lpu.depth = s.lpu.depth := by
  unfold gaJoin; (repeat' split) <;> simp [modEntry, modDelivery]
@[simp] theorem gaJoin_lpu_rings (d e : Nat) (s : State) : (gaJoin d e s).lpu.rings = s.lpu.rings := by
  unfold gaJoin; (repeat' split) <;> simp [modEntry, modDelivery]
@[simp] theorem gaJoin_lpu_windows (d e : Nat) (s : State) : (gaJoin d e s).lpu.windows = s.lpu.windows := by
  unfold gaJoin; (repeat' split) <;> simp [modEntry, modDelivery]
@[simp] theorem gaJoin_lpu_latches (d e : Nat) (s : State) : (gaJoin d e s).lpu.latches = s.lpu.latches := by
  unfold gaJoin; (repeat' split) <;> simp [modEntry, modDelivery]
@[simp] theorem gaJoin_lpu_holds (d e : Nat) (s : State) : (gaJoin d e s).lpu.holds = s.lpu.holds := by
  unfold gaJoin; (repeat' split) <;> simp [modEntry, modDelivery]
@[simp] theorem gaJoin_lpu_forwarding (d e : Nat) (s : State) : (gaJoin d e s).lpu.forwarding = s.lpu.forwarding := by
  unfold gaJoin; (repeat' split) <;> simp [modEntry, modDelivery]
@[simp] theorem gaJoin_lpu_decidedReads (d e : Nat) (s : State) : (gaJoin d e s).lpu.decidedReads = s.lpu.decidedReads := by
  unfold gaJoin; (repeat' split) <;> simp [modEntry, modDelivery]
@[simp] theorem gaJoin_lpu_resetAsserted (d e : Nat) (s : State) : (gaJoin d e s).lpu.resetAsserted = s.lpu.resetAsserted := by
  unfold gaJoin; (repeat' split) <;> simp [modEntry, modDelivery]
@[simp] theorem gaJoin_rw_pendingBilling (d e : Nat) (s : State) : (gaJoin d e s).rw.pendingBilling = s.rw.pendingBilling := by
  unfold gaJoin; (repeat' split) <;> simp [modEntry, modDelivery]
@[simp] theorem gaJoin_route (d e : Nat) (i : Nat) (s : State) : (gaJoin d e s).route i = s.route i := by
  unfold gaJoin; (repeat' split) <;> simp [modEntry, modDelivery]
@[simp] theorem gaJoin_destParams (d e : Nat) (i : Nat) (s : State) : (gaJoin d e s).destParams i = s.destParams i := by
  unfold gaJoin; (repeat' split) <;> simp [modEntry, modDelivery]
@[simp] theorem gaJoin_entry (d e : Nat) (i : Nat) (s : State) : (gaJoin d e s).entry i = s.entry i := by
  unfold gaJoin; (repeat' split) <;> simp [modEntry, modDelivery]
@[simp] theorem gaJoin_feedRec (d e : Nat) (i : Nat) (s : State) : (gaJoin d e s).feedRec i = s.feedRec i := by
  unfold gaJoin; (repeat' split) <;> simp [modEntry, modDelivery]
@[simp] theorem gaJoin_feedParams (d e : Nat) (i : Nat) (s : State) : (gaJoin d e s).feedParams i = s.feedParams i := by
  unfold gaJoin; (repeat' split) <;> simp [modEntry, modDelivery]
@[simp] theorem gaJoin_holder (d e : Nat) (i : Nat) (s : State) : (gaJoin d e s).holder i = s.holder i := by
  unfold gaJoin; (repeat' split) <;> simp [modEntry, modDelivery]
@[simp] theorem gaJoin_delivery (d e : Nat) (i : Nat) (s : State) : (gaJoin d e s).delivery i = s.delivery i := by
  unfold gaJoin; (repeat' split) <;> simp [modEntry, modDelivery]
@[simp] theorem gaJoin_tariff (d e : Nat) (i : Nat) (s : State) : (gaJoin d e s).tariff i = s.tariff i := by
  unfold gaJoin; (repeat' split) <;> simp [modEntry, modDelivery]
@[simp] theorem gaJoin_ringDef (d e : Nat) (i : Nat) (s : State) : (gaJoin d e s).ringDef i = s.ringDef i := by
  unfold gaJoin; (repeat' split) <;> simp [modEntry, modDelivery]
@[simp] theorem gaJoin_windowDef (d e : Nat) (i : Nat) (s : State) : (gaJoin d e s).windowDef i = s.windowDef i := by
  unfold gaJoin; (repeat' split) <;> simp [modEntry, modDelivery]
@[simp] theorem gaJoin_ringDepth (d e : Nat)  (s : State) : (gaJoin d e s).ringDepth = s.ringDepth := by
  unfold gaJoin; (repeat' split) <;> simp [modEntry, modDelivery]
@[simp] theorem gaJoin_usable (d e : Nat) (i : Nat) (s : State) : (gaJoin d e s).usable i = s.usable i := by
  unfold gaJoin; (repeat' split) <;> simp [modEntry, modDelivery]
@[simp] theorem gaJoin_lastSlot (d e : Nat) (i : Nat) (s : State) : (gaJoin d e s).lastSlot i = s.lastSlot i := by
  unfold gaJoin; (repeat' split) <;> simp [modEntry, modDelivery]

@[simp] theorem gaWithdraw_cu (e : Nat) (s : State) : (gaWithdraw e s).cu = s.cu := by
  unfold gaWithdraw; (repeat' split) <;> simp [modEntry, modDelivery]
@[simp] theorem gaWithdraw_tb (e : Nat) (s : State) : (gaWithdraw e s).tb = s.tb := by
  unfold gaWithdraw; (repeat' split) <;> simp [modEntry, modDelivery]
@[simp] theorem gaWithdraw_fm (e : Nat) (s : State) : (gaWithdraw e s).fm = s.fm := by
  unfold gaWithdraw; (repeat' split) <;> simp [modEntry, modDelivery]
@[simp] theorem gaWithdraw_bt (e : Nat) (s : State) : (gaWithdraw e s).bt = s.bt := by
  unfold gaWithdraw; (repeat' split) <;> simp [modEntry, modDelivery]
@[simp] theorem gaWithdraw_ru (e : Nat) (s : State) : (gaWithdraw e s).ru = s.ru := by
  unfold gaWithdraw; (repeat' split) <;> simp [modEntry, modDelivery]
@[simp] theorem gaWithdraw_dm (e : Nat) (s : State) : (gaWithdraw e s).dm = s.dm := by
  unfold gaWithdraw; (repeat' split) <;> simp [modEntry, modDelivery]
@[simp] theorem gaWithdraw_mu (e : Nat) (s : State) : (gaWithdraw e s).mu = s.mu := by
  unfold gaWithdraw; (repeat' split) <;> simp [modEntry, modDelivery]
@[simp] theorem gaWithdraw_pending (e : Nat) (s : State) : (gaWithdraw e s).pending = s.pending := by
  unfold gaWithdraw; (repeat' split) <;> simp [modEntry, modDelivery]
@[simp] theorem gaWithdraw_lpu_mode (e : Nat) (s : State) : (gaWithdraw e s).lpu.mode = s.lpu.mode := by
  unfold gaWithdraw; (repeat' split) <;> simp [modEntry, modDelivery]
@[simp] theorem gaWithdraw_lpu_depth (e : Nat) (s : State) : (gaWithdraw e s).lpu.depth = s.lpu.depth := by
  unfold gaWithdraw; (repeat' split) <;> simp [modEntry, modDelivery]
@[simp] theorem gaWithdraw_lpu_rings (e : Nat) (s : State) : (gaWithdraw e s).lpu.rings = s.lpu.rings := by
  unfold gaWithdraw; (repeat' split) <;> simp [modEntry, modDelivery]
@[simp] theorem gaWithdraw_lpu_windows (e : Nat) (s : State) : (gaWithdraw e s).lpu.windows = s.lpu.windows := by
  unfold gaWithdraw; (repeat' split) <;> simp [modEntry, modDelivery]
@[simp] theorem gaWithdraw_lpu_latches (e : Nat) (s : State) : (gaWithdraw e s).lpu.latches = s.lpu.latches := by
  unfold gaWithdraw; (repeat' split) <;> simp [modEntry, modDelivery]
@[simp] theorem gaWithdraw_lpu_holds (e : Nat) (s : State) : (gaWithdraw e s).lpu.holds = s.lpu.holds := by
  unfold gaWithdraw; (repeat' split) <;> simp [modEntry, modDelivery]
@[simp] theorem gaWithdraw_lpu_forwarding (e : Nat) (s : State) : (gaWithdraw e s).lpu.forwarding = s.lpu.forwarding := by
  unfold gaWithdraw; (repeat' split) <;> simp [modEntry, modDelivery]
@[simp] theorem gaWithdraw_lpu_decidedReads (e : Nat) (s : State) : (gaWithdraw e s).lpu.decidedReads = s.lpu.decidedReads := by
  unfold gaWithdraw; (repeat' split) <;> simp [modEntry, modDelivery]
@[simp] theorem gaWithdraw_lpu_resetAsserted (e : Nat) (s : State) : (gaWithdraw e s).lpu.resetAsserted = s.lpu.resetAsserted := by
  unfold gaWithdraw; (repeat' split) <;> simp [modEntry, modDelivery]
@[simp] theorem gaWithdraw_rw_pendingBilling (e : Nat) (s : State) : (gaWithdraw e s).rw.pendingBilling = s.rw.pendingBilling := by
  unfold gaWithdraw; (repeat' split) <;> simp [modEntry, modDelivery]
@[simp] theorem gaWithdraw_route (e : Nat) (i : Nat) (s : State) : (gaWithdraw e s).route i = s.route i := by
  unfold gaWithdraw; (repeat' split) <;> simp [modEntry, modDelivery]
@[simp] theorem gaWithdraw_destParams (e : Nat) (i : Nat) (s : State) : (gaWithdraw e s).destParams i = s.destParams i := by
  unfold gaWithdraw; (repeat' split) <;> simp [modEntry, modDelivery]
@[simp] theorem gaWithdraw_entry (e : Nat) (i : Nat) (s : State) : (gaWithdraw e s).entry i = s.entry i := by
  unfold gaWithdraw; (repeat' split) <;> simp [modEntry, modDelivery]
@[simp] theorem gaWithdraw_feedRec (e : Nat) (i : Nat) (s : State) : (gaWithdraw e s).feedRec i = s.feedRec i := by
  unfold gaWithdraw; (repeat' split) <;> simp [modEntry, modDelivery]
@[simp] theorem gaWithdraw_feedParams (e : Nat) (i : Nat) (s : State) : (gaWithdraw e s).feedParams i = s.feedParams i := by
  unfold gaWithdraw; (repeat' split) <;> simp [modEntry, modDelivery]
@[simp] theorem gaWithdraw_holder (e : Nat) (i : Nat) (s : State) : (gaWithdraw e s).holder i = s.holder i := by
  unfold gaWithdraw; (repeat' split) <;> simp [modEntry, modDelivery]
@[simp] theorem gaWithdraw_delivery (e : Nat) (i : Nat) (s : State) : (gaWithdraw e s).delivery i = s.delivery i := by
  unfold gaWithdraw; (repeat' split) <;> simp [modEntry, modDelivery]
@[simp] theorem gaWithdraw_tariff (e : Nat) (i : Nat) (s : State) : (gaWithdraw e s).tariff i = s.tariff i := by
  unfold gaWithdraw; (repeat' split) <;> simp [modEntry, modDelivery]
@[simp] theorem gaWithdraw_ringDef (e : Nat) (i : Nat) (s : State) : (gaWithdraw e s).ringDef i = s.ringDef i := by
  unfold gaWithdraw; (repeat' split) <;> simp [modEntry, modDelivery]
@[simp] theorem gaWithdraw_windowDef (e : Nat) (i : Nat) (s : State) : (gaWithdraw e s).windowDef i = s.windowDef i := by
  unfold gaWithdraw; (repeat' split) <;> simp [modEntry, modDelivery]
@[simp] theorem gaWithdraw_ringDepth (e : Nat)  (s : State) : (gaWithdraw e s).ringDepth = s.ringDepth := by
  unfold gaWithdraw; (repeat' split) <;> simp [modEntry, modDelivery]
@[simp] theorem gaWithdraw_usable (e : Nat) (i : Nat) (s : State) : (gaWithdraw e s).usable i = s.usable i := by
  unfold gaWithdraw; (repeat' split) <;> simp [modEntry, modDelivery]
@[simp] theorem gaWithdraw_lastSlot (e : Nat) (i : Nat) (s : State) : (gaWithdraw e s).lastSlot i = s.lastSlot i := by
  unfold gaWithdraw; (repeat' split) <;> simp [modEntry, modDelivery]

@[simp] theorem btFetch_cu (e a : Nat) (o : LoadOrigin) (s : State) : (btFetch e a o s).cu = s.cu := by
  unfold btFetch; (repeat' split) <;> simp [modEntry, modDelivery]
@[simp] theorem btFetch_tb (e a : Nat) (o : LoadOrigin) (s : State) : (btFetch e a o s).tb = s.tb := by
  unfold btFetch; (repeat' split) <;> simp [modEntry, modDelivery]
@[simp] theorem btFetch_fm (e a : Nat) (o : LoadOrigin) (s : State) : (btFetch e a o s).fm = s.fm := by
  unfold btFetch; (repeat' split) <;> simp [modEntry, modDelivery]
@[simp] theorem btFetch_ga (e a : Nat) (o : LoadOrigin) (s : State) : (btFetch e a o s).ga = s.ga := by
  unfold btFetch; (repeat' split) <;> simp [modEntry, modDelivery]
@[simp] theorem btFetch_ru (e a : Nat) (o : LoadOrigin) (s : State) : (btFetch e a o s).ru = s.ru := by
  unfold btFetch; (repeat' split) <;> simp [modEntry, modDelivery]
@[simp] theorem btFetch_dm (e a : Nat) (o : LoadOrigin) (s : State) : (btFetch e a o s).dm = s.dm := by
  unfold btFetch; (repeat' split) <;> simp [modEntry, modDelivery]
@[simp] theorem btFetch_mu (e a : Nat) (o : LoadOrigin) (s : State) : (btFetch e a o s).mu = s.mu := by
  unfold btFetch; (repeat' split) <;> simp [modEntry, modDelivery]
@[simp] theorem btFetch_pending (e a : Nat) (o : LoadOrigin) (s : State) : (btFetch e a o s).pending = s.pending := by
  unfold btFetch; (repeat' split) <;> simp [modEntry, modDelivery]
@[simp] theorem btFetch_lpu_mode (e a : Nat) (o : LoadOrigin) (s : State) : (btFetch e a o s).lpu.mode = s.lpu.mode := by
  unfold btFetch; (repeat' split) <;> simp [modEntry, modDelivery]
@[simp] theorem btFetch_lpu_depth (e a : Nat) (o : LoadOrigin) (s : State) : (btFetch e a o s).lpu.depth = s.lpu.depth := by
  unfold btFetch; (repeat' split) <;> simp [modEntry, modDelivery]
@[simp] theorem btFetch_lpu_rings (e a : Nat) (o : LoadOrigin) (s : State) : (btFetch e a o s).lpu.rings = s.lpu.rings := by
  unfold btFetch; (repeat' split) <;> simp [modEntry, modDelivery]
@[simp] theorem btFetch_lpu_windows (e a : Nat) (o : LoadOrigin) (s : State) : (btFetch e a o s).lpu.windows = s.lpu.windows := by
  unfold btFetch; (repeat' split) <;> simp [modEntry, modDelivery]
@[simp] theorem btFetch_lpu_latches (e a : Nat) (o : LoadOrigin) (s : State) : (btFetch e a o s).lpu.latches = s.lpu.latches := by
  unfold btFetch; (repeat' split) <;> simp [modEntry, modDelivery]
@[simp] theorem btFetch_lpu_holds (e a : Nat) (o : LoadOrigin) (s : State) : (btFetch e a o s).lpu.holds = s.lpu.holds := by
  unfold btFetch; (repeat' split) <;> simp [modEntry, modDelivery]
@[simp] theorem btFetch_lpu_forwarding (e a : Nat) (o : LoadOrigin) (s : State) : (btFetch e a o s).lpu.forwarding = s.lpu.forwarding := by
  unfold btFetch; (repeat' split) <;> simp [modEntry, modDelivery]
@[simp] theorem btFetch_lpu_decidedReads (e a : Nat) (o : LoadOrigin) (s : State) : (btFetch e a o s).lpu.decidedReads = s.lpu.decidedReads := by
  unfold btFetch; (repeat' split) <;> simp [modEntry, modDelivery]
@[simp] theorem btFetch_lpu_resetAsserted (e a : Nat) (o : LoadOrigin) (s : State) : (btFetch e a o s).lpu.resetAsserted = s.lpu.resetAsserted := by
  unfold btFetch; (repeat' split) <;> simp [modEntry, modDelivery]
@[simp] theorem btFetch_rw_pendingBilling (e a : Nat) (o : LoadOrigin) (s : State) : (btFetch e a o s).rw.pendingBilling = s.rw.pendingBilling := by
  unfold btFetch; (repeat' split) <;> simp [modEntry, modDelivery]

@[simp] theorem rwBillingEvent_cu (k e a b c d : Nat) (s : State) : (rwBillingEvent k e a b c d s).cu = s.cu := by
  unfold rwBillingEvent; (repeat' split) <;> simp [modEntry, modDelivery]
@[simp] theorem rwBillingEvent_tb (k e a b c d : Nat) (s : State) : (rwBillingEvent k e a b c d s).tb = s.tb := by
  unfold rwBillingEvent; (repeat' split) <;> simp [modEntry, modDelivery]
@[simp] theorem rwBillingEvent_fm (k e a b c d : Nat) (s : State) : (rwBillingEvent k e a b c d s).fm = s.fm := by
  unfold rwBillingEvent; (repeat' split) <;> simp [modEntry, modDelivery]
@[simp] theorem rwBillingEvent_bt (k e a b c d : Nat) (s : State) : (rwBillingEvent k e a b c d s).bt = s.bt := by
  unfold rwBillingEvent; (repeat' split) <;> simp [modEntry, modDelivery]
@[simp] theorem rwBillingEvent_ga (k e a b c d : Nat) (s : State) : (rwBillingEvent k e a b c d s).ga = s.ga := by
  unfold rwBillingEvent; (repeat' split) <;> simp [modEntry, modDelivery]
@[simp] theorem rwBillingEvent_ru (k e a b c d : Nat) (s : State) : (rwBillingEvent k e a b c d s).ru = s.ru := by
  unfold rwBillingEvent; (repeat' split) <;> simp [modEntry, modDelivery]
@[simp] theorem rwBillingEvent_dm (k e a b c d : Nat) (s : State) : (rwBillingEvent k e a b c d s).dm = s.dm := by
  unfold rwBillingEvent; (repeat' split) <;> simp [modEntry, modDelivery]
@[simp] theorem rwBillingEvent_mu (k e a b c d : Nat) (s : State) : (rwBillingEvent k e a b c d s).mu = s.mu := by
  unfold rwBillingEvent; (repeat' split) <;> simp [modEntry, modDelivery]
@[simp] theorem rwBillingEvent_pending (k e a b c d : Nat) (s : State) : (rwBillingEvent k e a b c d s).pending = s.pending := by
  unfold rwBillingEvent; (repeat' split) <;> simp [modEntry, modDelivery]
@[simp] theorem rwBillingEvent_lpu_mode (k e a b c d : Nat) (s : State) : (rwBillingEvent k e a b c d s).lpu.mode = s.lpu.mode := by
  unfold rwBillingEvent; (repeat' split) <;> simp [modEntry, modDelivery]
@[simp] theorem rwBillingEvent_lpu_depth (k e a b c d : Nat) (s : State) : (rwBillingEvent k e a b c d s).lpu.depth = s.lpu.depth := by
  unfold rwBillingEvent; (repeat' split) <;> simp [modEntry, modDelivery]
@[simp] theorem rwBillingEvent_lpu_rings (k e a b c d : Nat) (s : State) : (rwBillingEvent k e a b c d s).lpu.rings = s.lpu.rings := by
  unfold rwBillingEvent; (repeat' split) <;> simp [modEntry, modDelivery]
@[simp] theorem rwBillingEvent_lpu_windows (k e a b c d : Nat) (s : State) : (rwBillingEvent k e a b c d s).lpu.windows = s.lpu.windows := by
  unfold rwBillingEvent; (repeat' split) <;> simp [modEntry, modDelivery]
@[simp] theorem rwBillingEvent_lpu_latches (k e a b c d : Nat) (s : State) : (rwBillingEvent k e a b c d s).lpu.latches = s.lpu.latches := by
  unfold rwBillingEvent; (repeat' split) <;> simp [modEntry, modDelivery]
@[simp] theorem rwBillingEvent_lpu_holds (k e a b c d : Nat) (s : State) : (rwBillingEvent k e a b c d s).lpu.holds = s.lpu.holds := by
  unfold rwBillingEvent; (repeat' split) <;> simp [modEntry, modDelivery]
@[simp] theorem rwBillingEvent_lpu_forwarding (k e a b c d : Nat) (s : State) : (rwBillingEvent k e a b c d s).lpu.forwarding = s.lpu.forwarding := by
  unfold rwBillingEvent; (repeat' split) <;> simp [modEntry, modDelivery]
@[simp] theorem rwBillingEvent_lpu_decidedReads (k e a b c d : Nat) (s : State) : (rwBillingEvent k e a b c d s).lpu.decidedReads = s.lpu.decidedReads := by
  unfold rwBillingEvent; (repeat' split) <;> simp [modEntry, modDelivery]
@[simp] theorem rwBillingEvent_lpu_resetAsserted (k e a b c d : Nat) (s : State) : (rwBillingEvent k e a b c d s).lpu.resetAsserted = s.lpu.resetAsserted := by
  unfold rwBillingEvent; (repeat' split) <;> simp [modEntry, modDelivery]
@[simp] theorem rwBillingEvent_rw_pendingBilling (k e a b c d : Nat) (s : State) : (rwBillingEvent k e a b c d s).rw.pendingBilling = s.rw.pendingBilling := by
  unfold rwBillingEvent; (repeat' split) <;> simp [modEntry, modDelivery]
@[simp] theorem rwBillingEvent_route (k e a b c d : Nat) (i : Nat) (s : State) : (rwBillingEvent k e a b c d s).route i = s.route i := by
  unfold rwBillingEvent; (repeat' split) <;> simp [modEntry, modDelivery]
@[simp] theorem rwBillingEvent_destParams (k e a b c d : Nat) (i : Nat) (s : State) : (rwBillingEvent k e a b c d s).destParams i = s.destParams i := by
  unfold rwBillingEvent; (repeat' split) <;> simp [modEntry, modDelivery]
@[simp] theorem rwBillingEvent_entry (k e a b c d : Nat) (i : Nat) (s : State) : (rwBillingEvent k e a b c d s).entry i = s.entry i := by
  unfold rwBillingEvent; (repeat' split) <;> simp [modEntry, modDelivery]
@[simp] theorem rwBillingEvent_feedRec (k e a b c d : Nat) (i : Nat) (s : State) : (rwBillingEvent k e a b c d s).feedRec i = s.feedRec i := by
  unfold rwBillingEvent; (repeat' split) <;> simp [modEntry, modDelivery]
@[simp] theorem rwBillingEvent_feedParams (k e a b c d : Nat) (i : Nat) (s : State) : (rwBillingEvent k e a b c d s).feedParams i = s.feedParams i := by
  unfold rwBillingEvent; (repeat' split) <;> simp [modEntry, modDelivery]
@[simp] theorem rwBillingEvent_holder (k e a b c d : Nat) (i : Nat) (s : State) : (rwBillingEvent k e a b c d s).holder i = s.holder i := by
  unfold rwBillingEvent; (repeat' split) <;> simp [modEntry, modDelivery]
@[simp] theorem rwBillingEvent_grantQueue (k e a b c d : Nat) (i : Nat) (s : State) : (rwBillingEvent k e a b c d s).grantQueue i = s.grantQueue i := by
  unfold rwBillingEvent; (repeat' split) <;> simp [modEntry, modDelivery]
@[simp] theorem rwBillingEvent_delivery (k e a b c d : Nat) (i : Nat) (s : State) : (rwBillingEvent k e a b c d s).delivery i = s.delivery i := by
  unfold rwBillingEvent; (repeat' split) <;> simp [modEntry, modDelivery]
@[simp] theorem rwBillingEvent_tariff (k e a b c d : Nat) (i : Nat) (s : State) : (rwBillingEvent k e a b c d s).tariff i = s.tariff i := by
  unfold rwBillingEvent; (repeat' split) <;> simp [modEntry, modDelivery]
@[simp] theorem rwBillingEvent_ringDef (k e a b c d : Nat) (i : Nat) (s : State) : (rwBillingEvent k e a b c d s).ringDef i = s.ringDef i := by
  unfold rwBillingEvent; (repeat' split) <;> simp [modEntry, modDelivery]
@[simp] theorem rwBillingEvent_windowDef (k e a b c d : Nat) (i : Nat) (s : State) : (rwBillingEvent k e a b c d s).windowDef i = s.windowDef i := by
  unfold rwBillingEvent; (repeat' split) <;> simp [modEntry, modDelivery]
@[simp] theorem rwBillingEvent_ringDepth (k e a b c d : Nat)  (s : State) : (rwBillingEvent k e a b c d s).ringDepth = s.ringDepth := by
  unfold rwBillingEvent; (repeat' split) <;> simp [modEntry, modDelivery]
@[simp] theorem rwBillingEvent_usable (k e a b c d : Nat) (i : Nat) (s : State) : (rwBillingEvent k e a b c d s).usable i = s.usable i := by
  unfold rwBillingEvent; (repeat' split) <;> simp [modEntry, modDelivery]
@[simp] theorem rwBillingEvent_lastSlot (k e a b c d : Nat) (i : Nat) (s : State) : (rwBillingEvent k e a b c d s).lastSlot i = s.lastSlot i := by
  unfold rwBillingEvent; (repeat' split) <;> simp [modEntry, modDelivery]

@[simp] theorem rwPlaceCheckpoint_cu (e : Nat) (r : BillRecord) (s : State) : (rwPlaceCheckpoint e r s).cu = s.cu := by
  unfold rwPlaceCheckpoint; (repeat' split) <;> simp [modEntry, modDelivery]
@[simp] theorem rwPlaceCheckpoint_tb (e : Nat) (r : BillRecord) (s : State) : (rwPlaceCheckpoint e r s).tb = s.tb := by
  unfold rwPlaceCheckpoint; (repeat' split) <;> simp [modEntry, modDelivery]
@[simp] theorem rwPlaceCheckpoint_fm (e : Nat) (r : BillRecord) (s : State) : (rwPlaceCheckpoint e r s).fm = s.fm := by
  unfold rwPlaceCheckpoint; (repeat' split) <;> simp [modEntry, modDelivery]
@[simp] theorem rwPlaceCheckpoint_bt (e : Nat) (r : BillRecord) (s : State) : (rwPlaceCheckpoint e r s).bt = s.bt := by
  unfold rwPlaceCheckpoint; (repeat' split) <;> simp [modEntry, modDelivery]
@[simp] theorem rwPlaceCheckpoint_ga (e : Nat) (r : BillRecord) (s : State) : (rwPlaceCheckpoint e r s).ga = s.ga := by
  unfold rwPlaceCheckpoint; (repeat' split) <;> simp [modEntry, modDelivery]
@[simp] theorem rwPlaceCheckpoint_ru (e : Nat) (r : BillRecord) (s : State) : (rwPlaceCheckpoint e r s).ru = s.ru := by
  unfold rwPlaceCheckpoint; (repeat' split) <;> simp [modEntry, modDelivery]
@[simp] theorem rwPlaceCheckpoint_dm (e : Nat) (r : BillRecord) (s : State) : (rwPlaceCheckpoint e r s).dm = s.dm := by
  unfold rwPlaceCheckpoint; (repeat' split) <;> simp [modEntry, modDelivery]
@[simp] theorem rwPlaceCheckpoint_mu (e : Nat) (r : BillRecord) (s : State) : (rwPlaceCheckpoint e r s).mu = s.mu := by
  unfold rwPlaceCheckpoint; (repeat' split) <;> simp [modEntry, modDelivery]
@[simp] theorem rwPlaceCheckpoint_pending (e : Nat) (r : BillRecord) (s : State) : (rwPlaceCheckpoint e r s).pending = s.pending := by
  unfold rwPlaceCheckpoint; (repeat' split) <;> simp [modEntry, modDelivery]
@[simp] theorem rwPlaceCheckpoint_lpu_mode (e : Nat) (r : BillRecord) (s : State) : (rwPlaceCheckpoint e r s).lpu.mode = s.lpu.mode := by
  unfold rwPlaceCheckpoint; (repeat' split) <;> simp [modEntry, modDelivery]
@[simp] theorem rwPlaceCheckpoint_lpu_depth (e : Nat) (r : BillRecord) (s : State) : (rwPlaceCheckpoint e r s).lpu.depth = s.lpu.depth := by
  unfold rwPlaceCheckpoint; (repeat' split) <;> simp [modEntry, modDelivery]
@[simp] theorem rwPlaceCheckpoint_lpu_rings (e : Nat) (r : BillRecord) (s : State) : (rwPlaceCheckpoint e r s).lpu.rings = s.lpu.rings := by
  unfold rwPlaceCheckpoint; (repeat' split) <;> simp [modEntry, modDelivery]
@[simp] theorem rwPlaceCheckpoint_lpu_windows (e : Nat) (r : BillRecord) (s : State) : (rwPlaceCheckpoint e r s).lpu.windows = s.lpu.windows := by
  unfold rwPlaceCheckpoint; (repeat' split) <;> simp [modEntry, modDelivery]
@[simp] theorem rwPlaceCheckpoint_lpu_latches (e : Nat) (r : BillRecord) (s : State) : (rwPlaceCheckpoint e r s).lpu.latches = s.lpu.latches := by
  unfold rwPlaceCheckpoint; (repeat' split) <;> simp [modEntry, modDelivery]
@[simp] theorem rwPlaceCheckpoint_lpu_holds (e : Nat) (r : BillRecord) (s : State) : (rwPlaceCheckpoint e r s).lpu.holds = s.lpu.holds := by
  unfold rwPlaceCheckpoint; (repeat' split) <;> simp [modEntry, modDelivery]
@[simp] theorem rwPlaceCheckpoint_lpu_forwarding (e : Nat) (r : BillRecord) (s : State) : (rwPlaceCheckpoint e r s).lpu.forwarding = s.lpu.forwarding := by
  unfold rwPlaceCheckpoint; (repeat' split) <;> simp [modEntry, modDelivery]
@[simp] theorem rwPlaceCheckpoint_lpu_decidedReads (e : Nat) (r : BillRecord) (s : State) : (rwPlaceCheckpoint e r s).lpu.decidedReads = s.lpu.decidedReads := by
  unfold rwPlaceCheckpoint; (repeat' split) <;> simp [modEntry, modDelivery]
@[simp] theorem rwPlaceCheckpoint_lpu_resetAsserted (e : Nat) (r : BillRecord) (s : State) : (rwPlaceCheckpoint e r s).lpu.resetAsserted = s.lpu.resetAsserted := by
  unfold rwPlaceCheckpoint; (repeat' split) <;> simp [modEntry, modDelivery]

@[simp] theorem cuFinish_tb (n : Nat) (data : List Byte) (r : Reply) (s : State) : (cuFinish n data r s).tb = s.tb := by
  unfold cuFinish; (repeat' split) <;> simp [modEntry, modDelivery]
@[simp] theorem cuFinish_fm (n : Nat) (data : List Byte) (r : Reply) (s : State) : (cuFinish n data r s).fm = s.fm := by
  unfold cuFinish; (repeat' split) <;> simp [modEntry, modDelivery]
@[simp] theorem cuFinish_bt (n : Nat) (data : List Byte) (r : Reply) (s : State) : (cuFinish n data r s).bt = s.bt := by
  unfold cuFinish; (repeat' split) <;> simp [modEntry, modDelivery]
@[simp] theorem cuFinish_ga (n : Nat) (data : List Byte) (r : Reply) (s : State) : (cuFinish n data r s).ga = s.ga := by
  unfold cuFinish; (repeat' split) <;> simp [modEntry, modDelivery]
@[simp] theorem cuFinish_ru (n : Nat) (data : List Byte) (r : Reply) (s : State) : (cuFinish n data r s).ru = s.ru := by
  unfold cuFinish; (repeat' split) <;> simp [modEntry, modDelivery]
@[simp] theorem cuFinish_dm (n : Nat) (data : List Byte) (r : Reply) (s : State) : (cuFinish n data r s).dm = s.dm := by
  unfold cuFinish; (repeat' split) <;> simp [modEntry, modDelivery]
@[simp] theorem cuFinish_mu (n : Nat) (data : List Byte) (r : Reply) (s : State) : (cuFinish n data r s).mu = s.mu := by
  unfold cuFinish; (repeat' split) <;> simp [modEntry, modDelivery]
@[simp] theorem cuFinish_pending (n : Nat) (data : List Byte) (r : Reply) (s : State) : (cuFinish n data r s).pending = s.pending := by
  unfold cuFinish; (repeat' split) <;> simp [modEntry, modDelivery]
@[simp] theorem cuFinish_lpu_mode (n : Nat) (data : List Byte) (r : Reply) (s : State) : (cuFinish n data r s).lpu.mode = s.lpu.mode := by
  unfold cuFinish; (repeat' split) <;> simp [modEntry, modDelivery]
@[simp] theorem cuFinish_lpu_depth (n : Nat) (data : List Byte) (r : Reply) (s : State) : (cuFinish n data r s).lpu.depth = s.lpu.depth := by
  unfold cuFinish; (repeat' split) <;> simp [modEntry, modDelivery]
@[simp] theorem cuFinish_lpu_rings (n : Nat) (data : List Byte) (r : Reply) (s : State) : (cuFinish n data r s).lpu.rings = s.lpu.rings := by
  unfold cuFinish; (repeat' split) <;> simp [modEntry, modDelivery]
@[simp] theorem cuFinish_lpu_windows (n : Nat) (data : List Byte) (r : Reply) (s : State) : (cuFinish n data r s).lpu.windows = s.lpu.windows := by
  unfold cuFinish; (repeat' split) <;> simp [modEntry, modDelivery]
@[simp] theorem cuFinish_lpu_latches (n : Nat) (data : List Byte) (r : Reply) (s : State) : (cuFinish n data r s).lpu.latches = s.lpu.latches := by
  unfold cuFinish; (repeat' split) <;> simp [modEntry, modDelivery]
@[simp] theorem cuFinish_lpu_holds (n : Nat) (data : List Byte) (r : Reply) (s : State) : (cuFinish n data r s).lpu.holds = s.lpu.holds := by
  unfold cuFinish; (repeat' split) <;> simp [modEntry, modDelivery]
@[simp] theorem cuFinish_lpu_forwarding (n : Nat) (data : List Byte) (r : Reply) (s : State) : (cuFinish n data r s).lpu.forwarding = s.lpu.forwarding := by
  unfold cuFinish; (repeat' split) <;> simp [modEntry, modDelivery]
@[simp] theorem cuFinish_lpu_decidedReads (n : Nat) (data : List Byte) (r : Reply) (s : State) : (cuFinish n data r s).lpu.decidedReads = s.lpu.decidedReads := by
  unfold cuFinish; (repeat' split) <;> simp [modEntry, modDelivery]
@[simp] theorem cuFinish_lpu_resetAsserted (n : Nat) (data : List Byte) (r : Reply) (s : State) : (cuFinish n data r s).lpu.resetAsserted = s.lpu.resetAsserted := by
  unfold cuFinish; (repeat' split) <;> simp [modEntry, modDelivery]
@[simp] theorem cuFinish_rw_pendingBilling (n : Nat) (data : List Byte) (r : Reply) (s : State) : (cuFinish n data r s).rw.pendingBilling = s.rw.pendingBilling := by
  unfold cuFinish; (repeat' split) <;> simp [modEntry, modDelivery]

@[simp] theorem rwNotice_cu  (s : State) : (rwNotice s).cu = s.cu := by
  unfold rwNotice; (repeat' split) <;> simp [modEntry, modDelivery]
@[simp] theorem rwNotice_tb  (s : State) : (rwNotice s).tb = s.tb := by
  unfold rwNotice; (repeat' split) <;> simp [modEntry, modDelivery]
@[simp] theorem rwNotice_fm  (s : State) : (rwNotice s).fm = s.fm := by
  unfold rwNotice; (repeat' split) <;> simp [modEntry, modDelivery]
@[simp] theorem rwNotice_bt  (s : State) : (rwNotice s).bt = s.bt := by
  unfold rwNotice; (repeat' split) <;> simp [modEntry, modDelivery]
@[simp] theorem rwNotice_ga  (s : State) : (rwNotice s).ga = s.ga := by
  unfold rwNotice; (repeat' split) <;> simp [modEntry, modDelivery]
@[simp] theorem rwNotice_ru  (s : State) : (rwNotice s).ru = s.ru := by
  unfold rwNotice; (repeat' split) <;> simp [modEntry, modDelivery]
@[simp] theorem rwNotice_dm  (s : State) : (rwNotice s).dm = s.dm := by
  unfold rwNotice; (repeat' split) <;> simp [modEntry, modDelivery]
@[simp] theorem rwNotice_mu  (s : State) : (rwNotice s).mu = s.mu := by
  unfold rwNotice; (repeat' split) <;> simp [modEntry, modDelivery]
@[simp] theorem rwNotice_pending  (s : State) : (rwNotice s).pending = s.pending := by
  unfold rwNotice; (repeat' split) <;> simp [modEntry, modDelivery]
@[simp] theorem rwNotice_lpu_mode  (s : State) : (rwNotice s).lpu.mode = s.lpu.mode := by
  unfold rwNotice; (repeat' split) <;> simp [modEntry, modDelivery]
@[simp] theorem rwNotice_lpu_depth  (s : State) : (rwNotice s).lpu.depth = s.lpu.depth := by
  unfold rwNotice; (repeat' split) <;> simp [modEntry, modDelivery]
@[simp] theorem rwNotice_lpu_rings  (s : State) : (rwNotice s).lpu.rings = s.lpu.rings := by
  unfold rwNotice; (repeat' split) <;> simp [modEntry, modDelivery]
@[simp] theorem rwNotice_lpu_windows  (s : State) : (rwNotice s).lpu.windows = s.lpu.windows := by
  unfold rwNotice; (repeat' split) <;> simp [modEntry, modDelivery]
@[simp] theorem rwNotice_lpu_latches  (s : State) : (rwNotice s).lpu.latches = s.lpu.latches := by
  unfold rwNotice; (repeat' split) <;> simp [modEntry, modDelivery]
@[simp] theorem rwNotice_lpu_holds  (s : State) : (rwNotice s).lpu.holds = s.lpu.holds := by
  unfold rwNotice; (repeat' split) <;> simp [modEntry, modDelivery]
@[simp] theorem rwNotice_lpu_forwarding  (s : State) : (rwNotice s).lpu.forwarding = s.lpu.forwarding := by
  unfold rwNotice; (repeat' split) <;> simp [modEntry, modDelivery]
@[simp] theorem rwNotice_lpu_decidedReads  (s : State) : (rwNotice s).lpu.decidedReads = s.lpu.decidedReads := by
  unfold rwNotice; (repeat' split) <;> simp [modEntry, modDelivery]
@[simp] theorem rwNotice_lpu_resetAsserted  (s : State) : (rwNotice s).lpu.resetAsserted = s.lpu.resetAsserted := by
  unfold rwNotice; (repeat' split) <;> simp [modEntry, modDelivery]
@[simp] theorem rwNotice_rw_pendingBilling  (s : State) : (rwNotice s).rw.pendingBilling = s.rw.pendingBilling := by
  unfold rwNotice; (repeat' split) <;> simp [modEntry, modDelivery]

end Sys2Proof.Machine
end

