-- ==== Sys2Proof/Laws/Shared.lean ====
section
/-! SUPPORT. What the shared operations can do, said once: treatments of numbered objects, the arithmetic of rings, the grant
queue, the moves of an entry, held reads, and the holder change notice. -/

namespace Sys2Proof.Machine

/-! ### Treatments of numbered objects -/

/-- What every treatment keeps, the treatment of all keeps. -/
theorem forAll_keeps {β : Type} (P : State → β) {g : Nat → State → State} (h : ∀ i s, P (g i s) = P s) (n : Nat)
    (s : State) : P (forAll n g s) = P s := by
  unfold forAll
  generalize List.range n = l
  induction l generalizing s with
  | nil => rfl
  | cons i l ih => simpa [h] using ih (g i s)

/-- What every treatment preserves, the treatment of all preserves. -/
theorem forAll_preserves {P : State → Prop} {g : Nat → State → State} (h : ∀ i s, P s → P (g i s)) (n : Nat) {s : State}
    (hs : P s) : P (forAll n g s) := by
  unfold forAll
  generalize List.range n = l
  induction l generalizing s with
  | nil => exact hs
  | cons i l ih => exact ih (h i s hs)

theorem forAll_succ (n : Nat) (g : Nat → State → State) (s : State) : forAll (n + 1) g s = g n (forAll n g s) := by
  simp [forAll, List.range_succ]

/-- Where each treatment changes its own object alone, by `f`, the treatment of `n` objects changes the first `n` by `f`. -/
theorem forAll_each {β : Type} (get : State → Nat → β) (f : Nat → β → β) {g : Nat → State → State}
    (own : ∀ i s, get (g i s) i = f i (get s i)) (other : ∀ i j s, j ≠ i → get (g i s) j = get s j) (n : Nat) (s : State)
    (j : Nat) : get (forAll n g s) j = if j < n then f j (get s j) else get s j := by
  induction n with
  | zero => rfl
  | succ n ih =>
    rw [forAll_succ]
    by_cases h : j = n
    · subst h; rw [own, ih]; simp
    · rw [other _ _ _ h, ih]
      have : j < n + 1 ↔ j < n := by omega
      simp [this]

/-! ### Rings -/

theorem modSub_lt {n : Nat} (h : 0 < n) (a b : Nat) : modSub n a b < n := Nat.mod_lt _ h

theorem modSub_self {n : Nat} (a : Nat) (h : a < n) : modSub n a a = 0 := by
  simp [modSub, Nat.mod_eq_of_lt h, Nat.add_sub_cancel' h.le]

theorem clamp_eq {lo hi : Nat} (h : lo ≤ hi) (x : Nat) : clamp lo hi x = max lo (min hi x) := by
  unfold clamp; split_ifs <;> omega

/-! ### The grant queue (R116) -/

/-- The order of the grants rests on the bookings and on the Grant Arbiter alone. -/
theorem State.grantsInOrder_congr {s t : State} (hg : t.ga = s.ga) (hb : t.bt = s.bt) (h : s.grantsInOrder) :
    t.grantsInOrder := by
  simpa only [State.grantsInOrder, State.holder, State.grantQueue, State.entry, hg, hb] using h

/-- The grants are in order where the listed holders, queues and entries are. -/
theorem State.grantsInOrder_of_tables {s : State}
    (holders : ∀ p ∈ s.ga.holders, ∀ e ∈ p.2,
      (s.entry e).state ∈ [.preroll, .live, .overrun] ∧ (s.entry e).desc.dest = p.1)
    (queues : ∀ p ∈ s.ga.queues, p.2.Nodup ∧ ∀ e ∈ p.2,
      (s.entry e).state ∈ [.waiting, .suspended] ∧ (s.entry e).desc.dest = p.1 ∧
      ((s.entry e).state = .suspended → (s.entry e).resume ∈ [some .preroll, some .live, some .overrun]))
    (records : ∀ p ∈ s.bt.entries, p.2.record ≠ none → p.2.state = .closing) : s.grantsInOrder := by
  refine ⟨fun d e h => ?_, fun d => ?_, fun e h => ?_⟩
  · obtain hn | hm := Tbl.get_cases (rest := none) (t := s.ga.holders) (i := d)
    · exact absurd (h.symm.trans hn) (by simp)
    · exact holders _ hm e h
  · obtain hn | hm := Tbl.get_cases (rest := []) (t := s.ga.queues) (i := d)
    · simp [State.grantQueue, hn]
    · exact queues _ hm
  · obtain hn | hm := Tbl.get_cases (rest := Entry.blank) (t := s.bt.entries) (i := e)
    · rw [State.entry, hn] at h; exact absurd rfl h
    · exact records _ hm h

/-- One entry joins. -/
theorem gaInsert_perm (s : State) (e : Nat) (l : List Nat) : (gaInsert s e l).Perm (e :: l) := by
  induction l with
  | nil => exact List.Perm.refl _
  | cons h t ih =>
    unfold gaInsert
    split
    · exact List.Perm.refl _
    · exact (List.Perm.cons h ih).trans (List.Perm.swap e h t)

/-- The order of R116: entry `i` may stand ahead of entry `j`. -/
def MayPrecede (s : State) (i j : Nat) : Prop :=
  (s.entry j).desc.priority < (s.entry i).desc.priority ∨
    (s.entry i).desc.priority = (s.entry j).desc.priority ∧ (s.entry i).requestNo ≤ (s.entry j).requestNo

/-- An entry that joins keeps the order. -/
theorem gaInsert_ordered (s : State) (e : Nat) {l : List Nat} (h : l.Pairwise (MayPrecede s)) :
    (gaInsert s e l).Pairwise (MayPrecede s) := by
  induction l with
  | nil => simp [gaInsert]
  | cons x t ih =>
    rw [List.pairwise_cons] at h
    unfold gaInsert
    split
    · rename_i ha
      have hx : MayPrecede s e x := by simp [gaAhead] at ha; simp only [MayPrecede]; omega
      refine List.pairwise_cons.2 ⟨fun y hy => ?_, List.pairwise_cons.2 h⟩
      rcases List.mem_cons.1 hy with rfl | hy
      · exact hx
      · have := h.1 y hy; simp only [MayPrecede] at *; omega
    · rename_i ha
      refine List.pairwise_cons.2 ⟨fun y hy => ?_, ih h.2⟩
      rcases List.mem_cons.1 ((gaInsert_perm s e t).mem_iff.1 hy) with rfl | hy
      · simp [gaAhead] at ha; simp only [MayPrecede]; omega
      · exact h.1 y hy

/-! ### The moves of an entry (R101) -/

@[simp] theorem Entry.enter_state (x : Entry) (st : BookingState) (nt : Nat) : (x.enter st nt).state = st := by
  unfold Entry.enter; split <;> rfl
@[simp] theorem Entry.enter_desc (x : Entry) (st : BookingState) (nt : Nat) : (x.enter st nt).desc = x.desc := by
  unfold Entry.enter; split <;> rfl
@[simp] theorem Entry.enter_fired (x : Entry) (st : BookingState) (nt : Nat) : (x.enter st nt).fired = x.fired := by
  unfold Entry.enter; split <;> rfl
@[simp] theorem Entry.enter_effStart (x : Entry) (st : BookingState) (nt : Nat) :
    (x.enter st nt).effStart = x.effStart := by
  unfold Entry.enter; split <;> rfl
@[simp] theorem Entry.enter_requestNo (x : Entry) (st : BookingState) (nt : Nat) :
    (x.enter st nt).requestNo = x.requestNo := by
  unfold Entry.enter; split <;> rfl

/-- R99: where no boundary is due, none fires. -/
theorem btFireUpTo_idle (sec e n : Nat) (s : State)
    (h : ¬((s.entry e).state.isOpen = true ∧ (s.entry e).fired < 4 ∧ (s.entry e).boundary (s.entry e).fired ≤ sec)) :
    btFireUpTo sec e n s = s := by
  cases n with
  | zero => rfl
  | succ n =>
    unfold btFireUpTo
    rw [if_neg]
    intro hh
    exact h (by simpa [Bool.and_eq_true, and_assoc] using hh)

/-! ### Held reads and the holder change notice (R123, R124) -/

/-- What serving a read, freeing a hold entry and setting a latch keep, answering a hold from the slate keeps. -/
theorem lpuHoldToSlate_keeps {β : Type} (P : State → β) (h1 : ∀ d r x s, P (lpuServe d r x s) = P s)
    (h2 : ∀ d s, P (holdFree d s) = P s) (h3 : ∀ d x s, P (State.setLatch d x s) = P s) (d : Nat) (s : State) :
    P (lpuHoldToSlate d s) = P s := by
  have fold : ∀ (rs : List Request) (t : State), P (rs.foldl (fun t r => lpuServe d r .slate t) t) = P t := by
    intro rs
    induction rs with
    | nil => intro t; rfl
    | cons r rs ih => intro t; simp [ih, h1]
  unfold lpuHoldToSlate
  split
  · rfl
  · rw [fold, h3, h2]

@[simp] theorem lpuHoldToSlate_cu (d : Nat) (s : State) : (lpuHoldToSlate d s).cu = s.cu :=
  lpuHoldToSlate_keeps State.cu (by simp) (by simp) (by simp [State.setLatch]) d s
@[simp] theorem lpuHoldToSlate_rw (d : Nat) (s : State) : (lpuHoldToSlate d s).rw = s.rw :=
  lpuHoldToSlate_keeps State.rw (by intros; simp [lpuServe, lpuForward]; split <;> rfl) (by intros; simp [holdFree]) (by simp [State.setLatch]) d s
@[simp] theorem lpuHoldToSlate_tb (d : Nat) (s : State) : (lpuHoldToSlate d s).tb = s.tb :=
  lpuHoldToSlate_keeps State.tb (by simp) (by simp) (by simp [State.setLatch]) d s
@[simp] theorem lpuHoldToSlate_fm (d : Nat) (s : State) : (lpuHoldToSlate d s).fm = s.fm :=
  lpuHoldToSlate_keeps State.fm (by simp) (by simp) (by simp [State.setLatch]) d s
@[simp] theorem lpuHoldToSlate_bt (d : Nat) (s : State) : (lpuHoldToSlate d s).bt = s.bt :=
  lpuHoldToSlate_keeps State.bt (by simp) (by simp) (by simp [State.setLatch]) d s
@[simp] theorem lpuHoldToSlate_ga (d : Nat) (s : State) : (lpuHoldToSlate d s).ga = s.ga :=
  lpuHoldToSlate_keeps State.ga (by simp) (by simp) (by simp [State.setLatch]) d s
@[simp] theorem lpuHoldToSlate_ru (d : Nat) (s : State) : (lpuHoldToSlate d s).ru = s.ru :=
  lpuHoldToSlate_keeps State.ru (by simp) (by simp) (by simp [State.setLatch]) d s
@[simp] theorem lpuHoldToSlate_dm (d : Nat) (s : State) : (lpuHoldToSlate d s).dm = s.dm :=
  lpuHoldToSlate_keeps State.dm (by simp) (by simp) (by simp [State.setLatch]) d s
@[simp] theorem lpuHoldToSlate_mu (d : Nat) (s : State) : (lpuHoldToSlate d s).mu = s.mu :=
  lpuHoldToSlate_keeps State.mu (by simp) (by simp) (by simp [State.setLatch]) d s
@[simp] theorem lpuHoldToSlate_pending (d : Nat) (s : State) : (lpuHoldToSlate d s).pending = s.pending :=
  lpuHoldToSlate_keeps State.pending (by simp) (by simp) (by simp [State.setLatch]) d s
@[simp] theorem lpuHoldToSlate_lpu_mode (d : Nat) (s : State) : (lpuHoldToSlate d s).lpu.mode = s.lpu.mode :=
  lpuHoldToSlate_keeps (fun s => s.lpu.mode) (by simp) (by simp) (by simp [State.setLatch]) d s
@[simp] theorem lpuHoldToSlate_lpu_depth (d : Nat) (s : State) : (lpuHoldToSlate d s).lpu.depth = s.lpu.depth :=
  lpuHoldToSlate_keeps (fun s => s.lpu.depth) (by simp) (by simp) (by simp [State.setLatch]) d s
@[simp] theorem lpuHoldToSlate_lpu_rings (d : Nat) (s : State) : (lpuHoldToSlate d s).lpu.rings = s.lpu.rings :=
  lpuHoldToSlate_keeps (fun s => s.lpu.rings) (by simp) (by simp) (by simp [State.setLatch]) d s
@[simp] theorem lpuHoldToSlate_lpu_windows (d : Nat) (s : State) : (lpuHoldToSlate d s).lpu.windows = s.lpu.windows :=
  lpuHoldToSlate_keeps (fun s => s.lpu.windows) (by simp) (by simp) (by simp [State.setLatch]) d s
@[simp] theorem lpuHoldToSlate_lpu_resetAsserted (d : Nat) (s : State) : (lpuHoldToSlate d s).lpu.resetAsserted = s.lpu.resetAsserted :=
  lpuHoldToSlate_keeps (fun s => s.lpu.resetAsserted) (by simp) (by simp) (by simp [State.setLatch]) d s
@[simp] theorem lpuHoldToSlate_entry (d i : Nat) (s : State) : (lpuHoldToSlate d s).entry i = s.entry i := by simp [State.entry]
@[simp] theorem lpuHoldToSlate_holder (d i : Nat) (s : State) : (lpuHoldToSlate d s).holder i = s.holder i := by simp [State.holder]
@[simp] theorem lpuHoldToSlate_grantQueue (d i : Nat) (s : State) : (lpuHoldToSlate d s).grantQueue i = s.grantQueue i := by simp [State.grantQueue]
@[simp] theorem lpuHoldToSlate_route (d i : Nat) (s : State) : (lpuHoldToSlate d s).route i = s.route i := by simp [State.route]
@[simp] theorem lpuHoldToSlate_feedRec (d i : Nat) (s : State) : (lpuHoldToSlate d s).feedRec i = s.feedRec i := by simp [State.feedRec]
@[simp] theorem lpuHoldToSlate_delivery (d i : Nat) (s : State) : (lpuHoldToSlate d s).delivery i = s.delivery i := by simp [State.delivery]

@[simp] theorem gaNotice_cu (d : Nat) (h : Option Nat) (r : TakeReason) (s : State) : (gaNotice d h r s).cu = s.cu := by
  unfold gaNotice; cases h <;> simp
@[simp] theorem gaNotice_tb (d : Nat) (h : Option Nat) (r : TakeReason) (s : State) : (gaNotice d h r s).tb = s.tb := by
  unfold gaNotice; cases h <;> simp
@[simp] theorem gaNotice_fm (d : Nat) (h : Option Nat) (r : TakeReason) (s : State) : (gaNotice d h r s).fm = s.fm := by
  unfold gaNotice; cases h <;> simp
@[simp] theorem gaNotice_bt (d : Nat) (h : Option Nat) (r : TakeReason) (s : State) : (gaNotice d h r s).bt = s.bt := by
  unfold gaNotice; cases h <;> simp
@[simp] theorem gaNotice_ga (d : Nat) (h : Option Nat) (r : TakeReason) (s : State) : (gaNotice d h r s).ga = s.ga := by
  unfold gaNotice; cases h <;> simp
@[simp] theorem gaNotice_mu (d : Nat) (h : Option Nat) (r : TakeReason) (s : State) : (gaNotice d h r s).mu = s.mu := by
  unfold gaNotice; cases h <;> simp
@[simp] theorem gaNotice_pending (d : Nat) (h : Option Nat) (r : TakeReason) (s : State) : (gaNotice d h r s).pending = s.pending := by
  unfold gaNotice; cases h <;> simp
@[simp] theorem gaNotice_lpu_mode (d : Nat) (h : Option Nat) (r : TakeReason) (s : State) :
    (gaNotice d h r s).lpu.mode = s.lpu.mode := by
  unfold gaNotice; cases h <;> simp
@[simp] theorem gaNotice_lpu_depth (d : Nat) (h : Option Nat) (r : TakeReason) (s : State) :
    (gaNotice d h r s).lpu.depth = s.lpu.depth := by
  unfold gaNotice; cases h <;> simp
@[simp] theorem gaNotice_lpu_rings (d : Nat) (h : Option Nat) (r : TakeReason) (s : State) :
    (gaNotice d h r s).lpu.rings = s.lpu.rings := by
  unfold gaNotice; cases h <;> simp
@[simp] theorem gaNotice_lpu_windows (d : Nat) (h : Option Nat) (r : TakeReason) (s : State) :
    (gaNotice d h r s).lpu.windows = s.lpu.windows := by
  unfold gaNotice; cases h <;> simp
@[simp] theorem gaNotice_lpu_resetAsserted (d : Nat) (h : Option Nat) (r : TakeReason) (s : State) :
    (gaNotice d h r s).lpu.resetAsserted = s.lpu.resetAsserted := by
  unfold gaNotice; cases h <;> simp
@[simp] theorem gaNotice_entry (d i : Nat) (h : Option Nat) (r : TakeReason) (s : State) :
    (gaNotice d h r s).entry i = s.entry i := by simp [State.entry]
@[simp] theorem gaNotice_holder (d i : Nat) (h : Option Nat) (r : TakeReason) (s : State) :
    (gaNotice d h r s).holder i = s.holder i := by simp [State.holder]
@[simp] theorem gaNotice_grantQueue (d i : Nat) (h : Option Nat) (r : TakeReason) (s : State) :
    (gaNotice d h r s).grantQueue i = s.grantQueue i := by simp [State.grantQueue]
@[simp] theorem gaNotice_feedRec (d i : Nat) (h : Option Nat) (r : TakeReason) (s : State) :
    (gaNotice d h r s).feedRec i = s.feedRec i := by simp [State.feedRec]

end Sys2Proof.Machine
end

