-- ==== Sys2Proof/Laws/Time.lean ====
section
/-! SUPPORT. The passing of time and the rows of the single intervals, said once: where nothing falls due time only moves the
oscillator, and the row of an interval is the local millisecond event or nothing. -/

namespace Sys2Proof.Machine

/-- With no read held, the oscillator alone moves. -/
theorem moveTo_of_no_holds {s : State} (h : s.lpu.holds = []) (pos : Nat) :
    moveTo pos s = s.withTb { s.tb with subMicros := max s.tb.subMicros pos } := by
  have : holdsAge (pos - s.tb.subMicros) s = s := by
    obtain ⟨lpu, cu, rw, tb, fm, bt, ga, ru, dm, mu, pending⟩ := s
    obtain ⟨⟩ := lpu
    simp_all [holdsAge, State.withLpu]
  simp [moveTo, this]

/-- Nothing falls due before the end of the millisecond in progress: time only moves the oscillator. -/
theorem timeTo_of_nothingDue {s : State} (h : NothingDue s) {pos : Nat} (hp : pos ≤ 1000) :
    timeTo pos s = s.withTb { s.tb with subMicros := max s.tb.subMicros pos } := by
  have idle : ∀ n, passTime pos n s = s := by
    intro n
    cases n with
    | zero => rfl
    | succ n =>
      unfold passTime
      split
      · rfl
      · rename_i at_ x hx
        rw [if_neg]
        simp only [nextDue, h.1, List.foldl_nil, deadlineDue] at hx
        split at hx
        · rw [Option.map_eq_some_iff] at hx
          obtain ⟨a, ha, hx⟩ := hx
          obtain ⟨rfl, -⟩ := Prod.mk.inj hx
          have := h.2 a ha
          have := le_max_right s.tb.subMicros (a + s.tb.window - s.tb.msStart)
          omega
        · cases hx
  rw [timeTo, idle, moveTo_of_no_holds h.1]

/-- The row of an interval that the coming event reaches is the local millisecond event. -/
theorem tbInterval_of_due {due : State → Bool} {s : State} (hr : s.lpu.resetAsserted = false)
    (h : due (timeTo 1000 s) = true) : Host.Outcome.next (tbInterval due s) = exec .localMillisecond s := by
  simp [tbInterval, hr, h, exec, execLocalMillisecond]

/-- The row of an interval that it does not reach changes nothing. -/
theorem tbInterval_of_not_due {due : State → Bool} {s : State} (h : due (timeTo 1000 s) = false) :
    tbInterval due s = s := by
  simp [tbInterval, h]

end Sys2Proof.Machine
end

