-- ==== Sys2Proof/WellFormed.lean ====
section
/-! DEFINITION. What a command on the link or at the block's events may carry (00_scope.md, Memory requests and
Identifiers): the checks of a request, of a response and of the object numbers. -/

namespace Sys2Proof

/-- A length of 1 to 64 bytes. -/
def Request.lengthOk (r : Request) : Bool := 1 ≤ r.len && r.len ≤ 64

/-- The request lies wholly within one aligned 64-byte block. -/
def Request.blockOk (r : Request) : Bool := r.addr.toNat % 64 + r.len ≤ 64

/-- A write carries exactly its length in data bytes, and a read carries none. -/
def Request.dataOk (r : Request) : Bool :=
  match r.kind with
  | .read => r.data.length == 0
  | .write => r.data.length == r.len

/-- A request the link can carry. -/
def Request.wf (r : Request) : Bool := r.lengthOk && r.blockOk && r.dataOk

/-- A response to a request for `n` bytes of data is ERROR or carries `n` bytes. -/
def Response.wf (n : Nat) : Response → Bool
  | .error => true
  | .done data => data.length == n

/-- A response to a read or a write carries at most the 64 bytes of a block. -/
def Response.fits : Response → Bool
  | .error => true
  | .done data => data.length ≤ 64

/-- A command that can reach the block. The Command Unit's rows have no operand and are always well formed. -/
def Instr.wf : Instr → Bool
  | .powerOnReset _ _ => true
  | .commandSlotWrite r => r.wf && r.kind == .write
  | .busyHandover => true
  | .consumerIndexWrite r => r.wf && r.kind == .write
  | .controlAreaRequest r => r.wf
  | .ringWrite r => r.wf && r.kind == .write
  | .ringRead r => r.wf && r.kind == .read
  | .windowRead r => r.wf && r.kind == .read
  | .windowWrite r => r.wf && r.kind == .write
  | .otherRequest r => r.wf
  | .downstreamGrant => true
  | .ownRequestSubmit => true
  | .passedResponse _ _ resp => resp.fits
  | .windowReadResponse _ _ resp => resp.fits
  | .ownWriteResponse _ resp => resp.wf 0
  | .descriptorReadResponse _ resp => resp.wf 64
  | .referenceMark u => u < 1000
  | .markDeadline => true
  | .localMillisecond => true
  | .windowCeiling e => e < 128
  | .allowanceExpiry e => e < 128
  | .suspensionCeiling e => e < 128
  | .retryInterval f => f < 64
  | .lossTimeout f => f < 64
  | .barRelease f => f < 64
  | .takeTimeout d => d < 48
  | .freezeLimit d => d < 48
  | .revertHold d => d < 48
  | .adaptationPeriodEnd d => d < 48
  | .impairmentHoldEnd d => d < 48
  | .holdLimitExpiry d => d < 48
  | .badCommand => true
  | .setRingDepth => true
  | .defineFeedRing => true
  | .defineWindow => true
  | .setMonitorInitiators => true
  | .enterRun => true
  | .enterConfig => true
  | .setEventMask => true
  | .setNotice => true
  | .reportStatus => true
  | .restart => true
  | .restartFinish => true
  | .setTime => true
  | .setReferenceMode => true
  | .setReferenceWindow => true
  | .reportTime => true
  | .setFeedParameters => true
  | .clearFeed => true
  | .reportFeed => true
  | .loadBooking => true
  | .cancel => true
  | .advance => true
  | .release => true
  | .extend => true
  | .reportBooking => true
  | .reportDestination => true
  | .take => true
  | .cue => true
  | .confirm => true
  | .uncue => true
  | .setDestinationParameters => true
  | .setLag => true
  | .loadTariff => true
  | .resetAssertion => true

end Sys2Proof
end

