-- ==== Sys2Proof/Tests/Slice0.lean ====
section
/-! SUPPORT. The block's own tests: the checks of WellFormed on ill-formed terms, worked examples of the manual, and for each
statement that has hypotheses a state and operands that meet them, clause by clause. Expected values come from the manual's
tables and rules named in the comments, or from hand calculation with them. -/

namespace Sys2Proof.Tests

open Sys2Proof.Machine

/-! ### Small states -/

/-- The 64 bytes of a command record: code, tag 7, and parameter words (Table 11-2). -/
def record (code : Nat) (ps : List Nat) : List Byte :=
  let bytes := le 2 code ++ le 2 7 ++ le 4 0 ++ (ps.map (le 4)).flatten
  bytes ++ List.replicate (64 - bytes.length) 0

/-- `s` with that command captured in slot 0, at the head of the command queue. -/
def asked (code : Nat) (ps : List Nat) (s : State) : State :=
  s.withCu { s.cu with slots := [(0, some (record code ps))], queue := [0] }

def read (a len agent : Nat) : Request := ⟨.read, BitVec.ofNat 40 a, len, BitVec.ofNat 7 agent, 9, []⟩
def write (a agent : Nat) (data : List Byte) : Request :=
  ⟨.write, BitVec.ofNat 40 a, data.length, BitVec.ofNat 7 agent, 9, data⟩

/-- The bases of the ring of feed 12 and of the window of destination 7. -/
def ringBase : Nat := 0x300000000
def windowBase : Nat := 0x200000000

/-- A feed record with last completed slot `c` and `k` complete slots. -/
def feedRecord (health : Health) (c k : Nat) : FeedRecord :=
  { FeedRecord.atEnterRun with health := health, lastSlot := c, complete := k, seqKnown := true, expectedSeq := 100,
                               lastSeq := 99, pictureStarts := [25] }

def entryIn (st : BookingState) : Entry :=
  { Entry.blank with
    state := st, selected := 12, armsLeft := 2, hasLive := true, liveNT := 10, effStart := 10, fired := 2,
    desc := { Descriptor.blank with
      ref := 500, dest := 7, primary := 12, backup := 13, priority := 5, startSec := 10, endSec := 1000, allowance := 5,
      tariff := 3, mayPreempt := true, preemptible := true, autoFailover := true, autoRevert := true } }

def routeOn (x : Source) : Route := { Route.atEnterRun with source := x }

/-- RUN with N = 256, feed 12 (writer 20) healthy, window 7 (reader 41) with a route on feed 12 at phase 30, and monitor 60;
the control area stands at 0. -/
def running : State :=
  { State.reset with
    lpu := { State.reset.lpu with
      mode := .run, depth := some 256, rings := [(12, some ⟨BitVec.ofNat 40 ringBase, 20⟩)],
      windows := [(7, some ⟨BitVec.ofNat 40 windowBase, 41⟩)], monitors := [60, 255, 255, 255] },
    fm := { records := [(12, some (feedRecord .healthy 40 256))], params := [] },
    ru := { routes := [(7, some { routeOn (.feed 12) with phase := 30 })], params := [] },
    dm := { dests := [(7, { Delivery.initial with condition := .clean })] } }

/-- `running` with booking 500 in entry 3, in that state; the holder of destination 7 where the state holds it. -/
def booked (st : BookingState) : State :=
  { running with
    bt := { State.reset.bt with entries := [(3, entryIn st)] },
    ga := { holders := if st.holds then [(7, some 3)] else [], queues := [] },
    mu := { tariffs := [(3, some ⟨1250, 2, 12, 15, 1800, 20000, 0⟩)] } }

/-- `s` with a change of the route record of destination 7. -/
def routed (g : Route → Route) (s : State) : State := modRoute 7 g s

/-- `s` with a change of the record of feed 12. -/
def fed (g : FeedRecord → FeedRecord) (s : State) : State := modFeed 12 g s

/-- `s` with a change of the time base. -/
def timed (g : Tb → Tb) (s : State) : State := s.withTb (g s.tb)

/-- `s` with a change of the Link Path Unit. -/
def linked (g : Lpu → Lpu) (s : State) : State := s.withLpu (g s.lpu)

/-- `s` with a change of entry 3. -/
def entered (g : Entry → Entry) (s : State) : State := modEntry 3 g s

/-- The state after a row; `s` where it answers none. -/
def after (c : Instr) (s : State) : State :=
  match exec c s with
  | .next t => t
  | _ => s

/-! ### WellFormed: one ill-formed term for each check -/

theorem test_wf_accepts_a_block_write : (Instr.commandSlotWrite (write 0 5 (record 0x0105 []))).wf = true := by decide
theorem test_wf_length : (Instr.otherRequest (read 0 65 5)).wf = false := by decide
theorem test_wf_length_zero : (Instr.otherRequest (read 0 0 5)).wf = false := by decide
theorem test_wf_block : (Instr.otherRequest (read 60 8 5)).wf = false := by decide
theorem test_wf_write_data : (Instr.otherRequest { write 0 5 [1, 2] with len := 4 }).wf = false := by decide
theorem test_wf_read_data : (Instr.otherRequest { read 0 4 5 with data := [1] }).wf = false := by decide
theorem test_wf_kind : (Instr.ringWrite (read 0 4 5)).wf = false := by decide
theorem test_wf_response : (Instr.descriptorReadResponse 0 (.done [1, 2])).wf = false := by decide
theorem test_wf_response_fits : (Instr.passedResponse 5 0 (.done (List.replicate 65 0))).wf = false := by decide
theorem test_wf_mark : (Instr.referenceMark 1000).wf = false := by decide
theorem test_wf_entry : (Instr.windowCeiling 128).wf = false := by decide
theorem test_wf_feed : (Instr.lossTimeout 64).wf = false := by decide
theorem test_wf_destination : (Instr.holdLimitExpiry 48).wf = false := by decide

/-! ### Worked examples of the manual -/

/-- Table 9-8: the derby's meters and tariff 3 give S′ 10,050 and 229,375 points. -/
theorem test_charge_match_night :
    chargeOf true ⟨1250, 2, 12, 15, 1800, 20000, 0⟩ ⟨0, 7047520, 151200, 1280, 1950000, 0, 0, 0⟩ =
      ⟨10050, 229375, false, false⟩ := by decide +kernel

/-- Table 9-9: the provisional charge at half time is 93,438 points for 3,525 seconds. -/
theorem test_charge_half_time :
    chargeOf false ⟨1250, 2, 12, 15, 1800, 20000, 0⟩ ⟨0, 3449520, 150000, 0, 0, 0, 0, 0⟩ = ⟨3525, 93438, false, false⟩ := by
  decide +kernel

/-- Table 9-10: ten minutes of C alone are brought to the minimum of tariff 3. -/
theorem test_charge_minimum :
    (chargeOf true ⟨1250, 2, 12, 15, 1800, 20000, 0⟩ ⟨0, 600000, 0, 0, 0, 0, 0, 0⟩).charge = 57500 := by decide +kernel

/-- Table 4-7: with c = 40 and K = 256 the slot after c is not available, and the one at distance 254 is. -/
theorem test_available_edges : running.available 12 41 = false ∧ running.available 12 42 = true := by decide +kernel

/-- Table 11-9 and Table 11-3: the numbers of the last reference state, health state and booking state. -/
theorem test_numbers : RefState.holdover.num = 3 ∧ Health.barred.num = 7 ∧ BookingState.closing.num = 8 := by decide

/-- R198: little-endian fields. -/
theorem test_little_endian : le 4 0x0A0B0C0D = [0x0D, 0x0C, 0x0B, 0x0A] ∧ field (le 4 0x0A0B0C0D) 1 2 = 0x0B0C := by decide

/-- R16: window slot 3, offset 64 of destination 7 read from ring slot 33 (phase 30) of feed 12. -/
theorem test_remap : ((after (.windowRead (read (windowBase + 3 * 2048 + 64) 64 41)) (booked .live)).lpu.forwarding.map
    (fun x => x.req.addr.toNat)) = [ringBase + 33 * 2048 + 64] := by decide +kernel

/-- R25, R31: Enter Config written in CONFIG is captured, starts, and its result names the slot and DONE. -/
theorem test_command_path :
    let s := after .enterConfig (after (.commandSlotWrite (write 0x40 5 (record 0x0106 []))) State.reset)
    s.lpu.ownQueue.map (fun o => (o.req.data.take 6).map BitVec.toNat) = [[6, 1, 7, 0, 1, 1], [1, 0, 0, 0]] ∧
      s.cu.slots = [] := by decide +kernel

/-- R48: the second advances after millisecond 999. -/
theorem test_second_advances :
    let s := after .localMillisecond (timed (fun t => { t with seconds := 41, millis := 999 }) State.reset)
    (s.tb.seconds, s.tb.millis, s.tb.reported) = (42, 0, 42) := by decide +kernel

/-- R173: a millisecond LIVE with a clean delivery adds to C alone. -/
theorem test_meter_counts : ((after .localMillisecond (booked .live)).entry 3).meters = ⟨0, 1, 0, 0, 0, 0, 0, 0⟩ := by
  decide +kernel

/-! ### Witnesses: the whole part -/

/-- StepRunsTheFrontCommand, ResetLeavesTheTables. -/
theorem witness_idle : State.reset.pending = [] := by decide

/-- StepKeepsTheBounds, with a full pending billing queue and a step that answers. -/
theorem witness_bounds :
    let s := (running.withRw { running.rw with pendingBilling := List.replicate 8 (muFinal running (entryIn .live)) }).withPending
      [.markDeadline]
    s.inBounds = true ∧ ∃ t, step s = .next t := ⟨by decide +kernel, _, rfl⟩

/-- StepKeepsTheBillingOrder, with a record waiting behind a full ring. -/
theorem witness_billing_order :
    let s := (running.withRw { running.rw with
      billing := ⟨511, 511, 0⟩, pendingBilling := [muFinal running (entryIn .live)] }).withPending [.markDeadline]
    s.billingInOrder = true ∧ ∃ t, step s = .next t := ⟨by decide +kernel, _, rfl⟩

/-- What `grantsInOrder` asks of the listed holders, queues and entries. -/
def grantsOk (s : State) : Bool :=
  decide ((∀ p ∈ s.ga.holders, ∀ e ∈ p.2,
      (s.entry e).state ∈ [.preroll, .live, .overrun] ∧ (s.entry e).desc.dest = p.1) ∧
    (∀ p ∈ s.ga.queues, p.2.Nodup ∧ ∀ e ∈ p.2,
      (s.entry e).state ∈ [.waiting, .suspended] ∧ (s.entry e).desc.dest = p.1 ∧
      ((s.entry e).state = .suspended → (s.entry e).resume ∈ [some .preroll, some .live, some .overrun])) ∧
    ∀ p ∈ s.bt.entries, p.2.record ≠ none → p.2.state = .closing)

theorem grantsInOrder_of {s : State} (h : grantsOk s = true) : s.grantsInOrder := by
  simp only [grantsOk, decide_eq_true_eq] at h
  exact State.grantsInOrder_of_tables h.1 h.2.1 h.2.2

/-- `booked .live` with entry 4 in the grant queue of destination 7, waiting or suspended from LIVE. -/
def queued (st : BookingState) : State :=
  ((booked .live).setEntry 4 { entryIn st with
    resume := if st = .suspended then some .live else none,
    desc := { (entryIn st).desc with ref := 501 } }).setGrantQueue 7 [4]

/-- StepKeepsTheGrants: entry 3 holds destination 7, entry 4 stands in its queue, and a step answers. -/
theorem witness_grants :
    (queued .waiting).grantsInOrder ∧ (queued .suspended).grantsInOrder ∧
    ∃ t, step ((queued .waiting).withPending [.localMillisecond]) = .next t :=
  ⟨grantsInOrder_of (by decide +kernel), grantsInOrder_of (by decide +kernel), _, rfl⟩

/-! ### Witnesses: the link path -/

/-- The definition of the ring of feed 12 and of the window of destination 7 in `running`. -/
def ring12 : Region := ⟨BitVec.ofNat 40 ringBase, 20⟩
def window7 : Region := ⟨BitVec.ofNat 40 windowBase, 41⟩

theorem covers_iff (size a : Nat) (x : Region) : x.Covers size a ↔ x.base.toNat ≤ a ∧ a < x.base.toNat + size := Iff.rfl

/-- ClassifyTakesTheFirstRegion: the control area at both ends, CONFIG, a ring at both ends, a window, and none of them. -/
theorem witness_classify :
    (running.controlBase ≤ 0 ∧ 1048575 < running.controlBase + 1048576) ∧
    (¬(State.reset.controlBase ≤ 1048576 ∧ 1048576 < State.reset.controlBase + 1048576) ∧
      State.reset.lpu.mode = .config) ∧
    (running.ringDef 12 = some ring12 ∧ ring12.Covers (running.ringDepth * 2048) ringBase ∧
      ring12.Covers (running.ringDepth * 2048) (ringBase + 524287) ∧ running.lpu.mode ≠ .config ∧
      ∀ g < 12, running.ringDef g = none) ∧
    (running.windowDef 7 = some window7 ∧ window7.Covers (running.ringDepth * 2048) windowBase ∧
      ¬ring12.Covers (running.ringDepth * 2048) windowBase ∧ (∀ g < 64, g ≠ 12 → running.ringDef g = none) ∧
      ∀ g < 7, running.windowDef g = none) ∧
    (¬ring12.Covers (running.ringDepth * 2048) (ringBase + 524288) ∧
      ¬window7.Covers (running.ringDepth * 2048) (ringBase + 524288) ∧ ∀ g < 48, g ≠ 7 → running.windowDef g = none) := by
  simp only [covers_iff]
  decide +kernel

/-- A request at an offset of the ring of feed 12 in `running`, or in a state with the same map. -/
theorem ringAt_of {s : State} {r : Request} {w o : Nat}
    (h : lpuAccepts s = true ∧ s.ringDef 12 = some ring12 ∧
      classify s r.addr.toNat = .ring 12 (r.addr.toNat - ring12.base.toNat) ∧
      w = (r.addr.toNat - ring12.base.toNat) / 2048 ∧ o = (r.addr.toNat - ring12.base.toNat) % 2048) :
    RingAt s 12 w o ring12 r := h

/-- A read of destination 7 in `running`, or in a state with the same map. -/
theorem readerAt_of {s : State} {r : Request} {slot o : Nat}
    (h : lpuAccepts s = true ∧ classify s r.addr.toNat = .window 7 ∧ r.kind = .read ∧ s.hold 7 = none ∧
      s.windowDef 7 = some window7 ∧ window7.agent = r.initiator.toNat ∧
      slot = (r.addr.toNat - window7.base.toNat) / 2048 ∧ o = (r.addr.toNat - window7.base.toNat) % 2048) :
    ReaderAt s 7 slot o r := ⟨h.1, h.2.1, h.2.2.1, h.2.2.2.1, window7, h.2.2.2.2⟩

theorem controlAt_of {s : State} {r : Request} {offset : Nat}
    (h : lpuAccepts s = true ∧ classify s r.addr.toNat = .control offset) : ControlAt s offset r := h

/-- UnreportedRequestsPassUnchanged, its four classes: a control area read, a control area write of 8 bytes, a monitor's ring
read, a write inside a slot; and another address. -/
theorem witness_unreported :
    (lpuAccepts running = true ∧ classify running 0x500000000 = .other) ∧
    (ControlAt running 0x404 (read 0x404 4 5) ∧ (read 0x404 4 5).kind = .read) ∧
    (ControlAt running 0x408 (write 0x408 5 [1, 2, 3, 4]) ∧ 0x400 ≤ 0x408) ∧
    (RingAt running 12 41 0 ring12 (read (ringBase + 41 * 2048) 64 60) ∧ 60 ∈ running.lpu.monitors) ∧
    (WriterAt running 12 41 64 (write (ringBase + 41 * 2048 + 64) 20 (List.replicate 64 0)) ∧ 64 + 64 ≠ 2048) := by
  refine ⟨by decide +kernel, ⟨controlAt_of (by decide +kernel), rfl⟩, ⟨controlAt_of (by decide +kernel), by decide⟩,
    ⟨ringAt_of (by decide +kernel), by decide⟩, ⟨⟨rfl, ring12, ringAt_of (by decide +kernel), by decide⟩, by decide⟩⟩

/-- AccessFaultsAreCountedAndAnswered: a foreign write, an unauthorised ring read and window read, a window write. -/
theorem witness_access :
    (RingAt running 12 0 0 ring12 (write ringBase 22 [1]) ∧ ring12.agent ≠ 22) ∧
    (RingAt running 12 0 0 ring12 (read ringBase 4 20) ∧ 20 ∉ running.lpu.monitors) ∧
    (lpuAccepts running = true ∧ classify running (read windowBase 4 40).addr.toNat = .window 7 ∧
      running.windowDef 7 = some window7 ∧ window7.agent ≠ 40) ∧
    (lpuAccepts running = true ∧ classify running (write windowBase 41 [1]).addr.toNat = .window 7) := by
  refine ⟨⟨ringAt_of (by decide +kernel), by decide⟩, ⟨ringAt_of (by decide +kernel), by decide⟩, by decide +kernel,
    by decide +kernel⟩

/-- CommandWriteIsCapturedOrBusy and OtherCommandWritesAreIgnored: slot 15 free, occupied, occupied with an answer waiting; a
short write and a write of code 0. -/
theorem witness_command_write :
    let r := write 0x3C0 5 (record 0x0105 [])
    let held := running.withCu { running.cu with slots := [(15, some (record 0x0106 []))], queue := [15] }
    (ControlAt running 0x3C0 r ∧ r.data.length = 64 ∧ commandCode r.data ≠ 0 ∧ running.slotData 15 = none) ∧
    (ControlAt held 0x3C0 r ∧ held.slotData 15 ≠ none ∧ ∀ b ∈ held.cu.busy, b.slot ≠ 15) ∧
    (let s := held.withCu { held.cu with busy := [⟨15, 0x0105, 7⟩] };
      ControlAt s 0x3C0 r ∧ s.slotData 15 ≠ none ∧ ∃ b ∈ s.cu.busy, b.slot = 15) ∧
    (ControlAt running 0x3C0 (write 0x3C0 5 [1]) ∧ (write 0x3C0 5 [1]).len ≠ 64) ∧
    (ControlAt running 0 (write 0 5 (record 0 [])) ∧ commandCode (write 0 5 (record 0 [])).data = 0) := by
  refine ⟨⟨controlAt_of (by decide +kernel), by decide +kernel⟩, ⟨controlAt_of (by decide +kernel), by decide +kernel⟩,
    ⟨controlAt_of (by decide +kernel), by decide +kernel⟩, ⟨controlAt_of (by decide +kernel), by decide⟩,
    ⟨controlAt_of (by decide +kernel), by decide +kernel⟩⟩

/-- ConsumerWriteIsJudged and ConsumerWriteFreesPlaces: with the billing ring published to 3 the value 3 is on the way, 0 is
the present value, and 4 and 512 are not on the way; the result and event rings likewise; and with the billing ring and the
pending billing queue full, entries 3 and 5 waiting. -/
theorem witness_consumer :
    let s := running.withRw { running.rw with result := ⟨3, 3, 0⟩, event := ⟨3, 3, 0⟩, billing := ⟨3, 3, 0⟩ }
    let r := muFinal running (entryIn .live)
    let x := fun n => { entryIn .closing with record := some r, closeSeq := some n }
    let t := ((booked .live).withBt { running.bt with entries := [(3, x 2), (5, x 4)] }).withRw { running.rw with
      billing := ⟨511, 511, 0⟩, pendingBilling := List.replicate 8 r }
    (ControlAt s 0x414 (write 0x414 5 (le 4 3)) ∧ 3 = fromLE (le 4 3) ∧ modSub 512 3 0 ≤ modSub 512 3 0) ∧
    (ControlAt s 0x404 (write 0x404 5 (le 4 3)) ∧ modSub 64 3 0 ≤ modSub 64 3 0) ∧
    (ControlAt s 0x40C (write 0x40C 5 (le 4 3)) ∧ modSub 1024 3 0 ≤ modSub 1024 3 0) ∧
    (ControlAt t 0x414 (write 0x414 5 (le 4 3)) ∧ modSub 512 3 0 ≤ modSub 512 t.rw.billing.published 0 ∧
      t.rw.pendingBilling.length = 8 ∧ (∀ e < 128, e ∈ [3, 5] ↔ (t.entry e).record ≠ none) ∧
      [3, 5].Pairwise (fun i j => (t.entry i).closeSeq.getD 0 < (t.entry j).closeSeq.getD 0)) ∧
    (0 = fromLE (le 4 0) ∧ modSub 512 0 0 ≤ modSub 512 3 0) ∧ ¬modSub 512 4 0 ≤ modSub 512 3 0 ∧ ¬512 < 512 ∧
    ∀ e < 128, (s.entry e).record = none := by
  refine ⟨⟨controlAt_of (by decide +kernel), by decide +kernel⟩, ⟨controlAt_of (by decide +kernel), by decide +kernel⟩,
    ⟨controlAt_of (by decide +kernel), by decide +kernel⟩, ⟨controlAt_of (by decide +kernel), by decide +kernel⟩,
    by decide +kernel⟩

/-- An own producer word write, and a descriptor read. -/
def producerWord : OwnRequest :=
  ⟨⟨.write, BitVec.ofNat 40 0x408, 4, 0, 3, le 4 1⟩, .producer .event 1⟩
def descriptorRead : OwnRequest := ⟨⟨.read, BitVec.ofNat 40 0x400001000, 64, 0, 4, []⟩, .descriptor⟩

/-- ArbiterGrantsByWaitingCount and OwnRequestsKeepTheirOrder: an own request with the count at 16 before a pass-through
request, a pass-through request with the count below 16, an empty link, a producer word alone, and waiting work. -/
theorem witness_arbiter :
    let both := linked (fun l => { l with
      ownQueue := [producerWord], forwarding := [⟨read 0x500000000 4 5, .passed⟩], waitingCount := 16 }) running
    (both.lpu.resetAsserted = false ∧ both.lpu.ownQueue = [producerWord] ∧ both.lpu.waitingCount = 16) ∧
    (let s := linked (fun l => { l with waitingCount := 15 }) both;
      s.lpu.forwarding = [⟨read 0x500000000 4 5, .passed⟩] ∧ s.lpu.waitingCount ≠ 16) ∧
    (running.lpu.ownQueue = [] ∧ running.lpu.forwarding = []) ∧
    (let s := linked (fun l => { l with forwarding := [] }) both;
      s.lpu.ownQueue = [producerWord] ∧ s.lpu.forwarding = [] ∧ producerWord.kind = .producer .event 1) ∧
    (let s := both.withRw { both.rw with waiting := [descriptorRead] };
      s.rw.waiting = [descriptorRead] ∧ s.lpu.ownQueue.length < 16) ∧
    (let s := linked (fun l => { l with ownQueue := List.replicate 16 producerWord }) both;
      16 ≤ s.lpu.ownQueue.length) := by decide +kernel

/-- ResponsesReturnUpstream, WindowReadErrorIsCounted, OwnWriteErrorIsCounted, DescriptorReadEndsTheFetch: what memory holds. -/
theorem witness_responses :
    let passed : Forward := ⟨read 0x500000000 4 5, .passed⟩
    let window : Forward := ⟨read ringBase 4 41, .window 7 3⟩
    let s := linked (fun l => { l with issued := [.upstream window, .own producerWord, .upstream passed] }) (booked .live)
    (s.lpu.issued = [.upstream window, .own producerWord] ++ .upstream passed :: [] ∧ passed.origin = .passed ∧
      window.req.initiator ≠ passed.req.initiator) ∧
    (s.lpu.issued = .upstream window :: [.own producerWord, .upstream passed] ∧ window.origin = .window 7 3 ∧
      s.route 7 = some { routeOn (.feed 12) with phase := 30 } ∧ s.lpu.mode ≠ .config ∧ s.lpu.resetAsserted = false) ∧
    (s.lpu.issued = [.upstream window] ++ .own producerWord :: [.upstream passed] ∧ producerWord.kind ≠ .descriptor) := by
  decide +kernel

/-! ### Witnesses: window reads, slot starts and the hold list -/

/-- The read of window slot 10 at its start, and at offset 64: it maps to ring slot 40 of feed 12, the last completed one. -/
def startRead : Request := read (windowBase + 10 * 2048) 64 41
def laterRead : Request := read (windowBase + 10 * 2048 + 64) 64 41

theorem remappedTo_ring (s : State) (q o : Nat) (h : s.ringDef 12 = some ring12) :
    RemappedTo s (.ring 12 q) o (BitVec.ofNat 40 (ring12.base.toNat + q * 2048 + o)) := ⟨ring12, h, rfl⟩

/-- LatchedReadKeepsItsSource: a latched slot, a slot by the route, and a route on the slate. -/
theorem witness_latched :
    (let s := (booked .live).setLatch 7 (some ⟨10, .decided (.ring 12 40)⟩);
      ReaderAt s 7 10 64 laterRead ∧ s.latch 7 = some ⟨10, .decided (.ring 12 40)⟩ ∧ s.ringDef 12 = some ring12) ∧
    (ReaderAt (booked .live) 7 10 64 laterRead ∧ (booked .live).latch 7 = none ∧
      (booked .live).route 7 = some { routeOn (.feed 12) with phase := 30 }) ∧
    (let s := routed (fun r => { r with source := .slate }) (booked .live);
      ReaderAt s 7 10 64 laterRead ∧ (s.route 7).map Route.source = some .slate) := by
  refine ⟨⟨readerAt_of (by decide +kernel), by decide +kernel⟩, ⟨readerAt_of (by decide +kernel), by decide +kernel⟩,
    ⟨readerAt_of (by decide +kernel), by decide +kernel⟩⟩

/-- SlotStartGoesToSlate: no holder; RESTARTING with a holder; a change to slate pending with a take, with no usable feed, and
with a usable selected feed behind an unusable wanted one. -/
theorem witness_to_slate :
    (ReaderAt running 7 10 0 startRead ∧ running.latch 7 = none ∧ running.holder 7 = none ∧ running.route 7 ≠ none) ∧
    (let s := linked (fun l => { l with mode := .restarting }) (booked .live);
      ReaderAt s 7 10 0 startRead ∧ s.holder 7 = some 3 ∧ s.route 7 = some { routeOn (.feed 12) with phase := 30 } ∧
        s.lpu.mode = .restarting) ∧
    (let tk : Take := ⟨12, .start, .ready, some 25, false, 0⟩;
      let s := routed (fun r => { r with change := some .toSlate, take := some tk }) (booked .live);
      ReaderAt s 7 10 0 startRead ∧ s.holder 7 = some 3 ∧
        s.route 7 = some { routeOn (.feed 12) with phase := 30, change := some .toSlate, take := some tk }) ∧
    (let s := routed (fun r => { r with change := some .toSlate, wanted := some 13 }) (booked .live);
      ReaderAt s 7 10 0 startRead ∧ s.lpu.mode = .run ∧ s.route 7 = some { routeOn (.feed 12) with
        phase := 30, change := some .toSlate, wanted := some 13 } ∧
        s.usable 13 = false ∧ (s.entry 3).selected = 12 ∧ s.usable 12 = true ∧ ruSearch s 7 12 = some 25 ∧
        let t := fed (fun r => { r with health := .lost }) s;
        ReaderAt t 7 10 0 startRead ∧ t.usable 13 = false ∧ t.usable 12 = false) := by
  refine ⟨⟨readerAt_of (by decide +kernel), by decide +kernel⟩, ⟨readerAt_of (by decide +kernel), by decide +kernel⟩,
    ⟨readerAt_of (by decide +kernel), by decide +kernel⟩, readerAt_of (by decide +kernel), by decide +kernel,
    by decide +kernel, by decide +kernel, by decide +kernel, by decide +kernel, by decide +kernel,
    readerAt_of (by decide +kernel), by decide +kernel⟩

/-- SlotStartIsServedOrHeld: slot 40 at distance 0; slot 41 (window slot 11) at distance 255, not available, with a usable feed,
an unusable one, and a full hold list; the slate as the source; a joined read. -/
theorem witness_served_or_held :
    let s := booked .live
    let x := feedRecord .healthy 40 256
    let r := read (windowBase + 11 * 2048) 64 41
    (ReaderAt s 7 10 0 startRead ∧ s.latch 7 = none ∧ s.lpu.mode = .run ∧ s.holder 7 = some 3 ∧
      s.route 7 = some { routeOn (.feed 12) with phase := 30 } ∧ s.feedRec 12 = some x ∧ s.ringDef 12 = some ring12 ∧
      (1 ≤ x.complete ∧ modSub 256 x.lastSlot ((10 + 30) % 256) ≤ min (x.complete - 1) 254) ∧
      modSub 256 x.lastSlot ((10 + 30) % 256) + 4 ≤ 256) ∧
    (ReaderAt s 7 11 0 r ∧ ¬modSub 256 x.lastSlot ((11 + 30) % 256) ≤ min (x.complete - 1) 254 ∧
      s.lpu.holds.length < 8) ∧
    (let t := fed (fun y => { y with health := .lost }) s;
      ReaderAt t 7 11 0 r ∧ t.feedRec 12 = some (feedRecord .lost 40 256) ∧ t.available 12 40 = true) ∧
    (let t := linked (fun l => { l with
        holds := (List.range 8).map (fun i => ⟨8 + i, 12, 41, 11, 0, 200, [startRead]⟩) }) s;
      ReaderAt t 7 11 0 r ∧ 8 ≤ t.lpu.holds.length ∧ t.holder 7 = some 3) ∧
    (let t := routed (fun y => { y with source := .slate }) s;
      ReaderAt t 7 10 0 startRead ∧ t.route 7 = some { routeOn .slate with phase := 30 }) ∧
    (let t := linked (fun l => { l with holds := [⟨7, 12, 41, 11, 0, 200, [startRead]⟩] }) s;
      lpuAccepts t = true ∧ classify t laterRead.addr.toNat = .window 7 ∧ t.windowDef 7 = some window7 ∧
        window7.agent = laterRead.initiator.toNat ∧ t.lpu.holds = [] ++ ⟨7, 12, 41, 11, 0, 200, [startRead]⟩ :: []) := by
  refine ⟨⟨readerAt_of (by decide +kernel), by decide +kernel⟩, ⟨readerAt_of (by decide +kernel), by decide +kernel⟩,
    ⟨readerAt_of (by decide +kernel), by decide +kernel⟩, ⟨readerAt_of (by decide +kernel), by decide +kernel⟩,
    ⟨readerAt_of (by decide +kernel), by decide +kernel⟩, by decide +kernel⟩

/-- ReadyTakeAndLagActAtASlotStart: a take ready at slot 25; with its target unusable; ready at slot 41, which is not available,
with a find and without; a lag repeat and a lag reset. -/
theorem witness_ready_take :
    let tk := fun p => (⟨12, .manual, .ready, some p, false, 0⟩ : Take)
    let on := fun source p => routed (fun r => { r with source := source, take := some (tk p) }) (booked .live)
    (let s := on (.feed 12) 25;
      ReaderAt s 7 10 0 startRead ∧ s.route 7 = some { routeOn (.feed 12) with phase := 30, take := some (tk 25) } ∧
        s.lpu.mode = .run ∧ s.holder 7 = some 3 ∧ s.latch 7 = none ∧ s.usable 12 = true ∧ s.available 12 25 = true ∧
        s.ringDef 12 = some ring12) ∧
    (let s := fed (fun r => { r with health := .failed }) (on .slate 25);
      ReaderAt s 7 10 0 startRead ∧ (s.route 7).map Route.source = some .slate ∧ s.usable 12 = false) ∧
    (let s := on .slate 41;
      ReaderAt s 7 10 0 startRead ∧ s.usable 12 = true ∧ s.available 12 41 = false ∧ ruSearch s 7 12 = some 25) ∧
    (let s := fed (fun r => { r with pictureStarts := [] }) (on .slate 41);
      ReaderAt s 7 10 0 startRead ∧ s.usable 12 = true ∧ s.available 12 41 = false ∧ ruSearch s 7 12 = none) ∧
    ∀ c ∈ [(Change.lagRepeat, 29), (.lagReset, 26)],
      let s := routed (fun r => { r with change := some c.1 }) (booked .live)
      ReaderAt s 7 10 0 startRead ∧ s.route 7 = some { routeOn (.feed 12) with phase := 30, change := some c.1 } ∧
        s.feedRec 12 = some (feedRecord .healthy 40 256) ∧ modSub 256 40 ((10 + c.2) % 256) + 4 ≤ 256 := by
  refine ⟨⟨readerAt_of (by decide +kernel), by decide +kernel⟩, ⟨readerAt_of (by decide +kernel), by decide +kernel⟩,
    ⟨readerAt_of (by decide +kernel), by decide +kernel⟩, ⟨readerAt_of (by decide +kernel), by decide +kernel⟩, ?_⟩
  intro c hc
  simp only [List.mem_cons, List.not_mem_nil, or_false] at hc
  obtain rfl | rfl := hc <;> exact ⟨readerAt_of (by decide +kernel), by decide +kernel⟩

/-- DropSlipRestoresTheLag: window slot 12 reads slot 42, at distance 254; window slot 13 reads slot 43, at distance 253. -/
theorem witness_drop_slip :
    let s := booked .live
    let x := feedRecord .healthy 40 256
    ReaderAt s 7 12 0 (read (windowBase + 12 * 2048) 64 41) ∧ s.latch 7 = none ∧ s.holder 7 = some 3 ∧
      s.route 7 = some { routeOn (.feed 12) with phase := 30 } ∧ s.feedRec 12 = some x ∧ 1 ≤ x.complete ∧
      modSub 256 x.lastSlot ((12 + 30) % 256) = 254 ∧ modSub 256 x.lastSlot ((13 + 30) % 256) = 253 ∧
      254 ≤ min (x.complete - 1) 254 ∧ 256 < 253 + 4 :=
  ⟨readerAt_of (by decide +kernel), by decide +kernel⟩

/-- HoldLimitMakesARepeatSlip: 200 µs of the limit are left at position 799, with joined reads of the held slot 11, and with a
start at slot 12 among them, which waits again; a hold for slot 40, which is available, and one for slot 41, which is not. -/
theorem witness_hold_limit :
    let r := read (windowBase + 11 * 2048) 64 41
    let more := read (windowBase + 11 * 2048 + 64) 64 41
    let next := read (windowBase + 12 * 2048) 64 41
    let held := fun q reads => timed (fun t => { t with subMicros := 799 }) (linked (fun l => { l with
      holds := [⟨7, 12, q, 11, 0, 200, reads⟩] }) (booked .live))
    (let s := held 41 [r, more];
      s.lpu.resetAsserted = false ∧ s.lpu.holds = [⟨7, 12, 41, 11, 0, 200, [r, more]⟩] ∧ s.tb.expected = none ∧
        s.tb.subMicros + (200 - 0) < 1000 ∧ s.route 7 = some { routeOn (.feed 12) with phase := 30 } ∧
        s.holder 7 = some 3 ∧ s.lpu.forwarding.length + 2 ≤ 32 ∧ s.lpu.decidedReads = [] ∧ s.available 12 40 = true ∧
        s.windowDef 7 = some window7 ∧ (more.addr.toNat - window7.base.toNat) / 2048 = 11) ∧
    ((next.addr.toNat - window7.base.toNat) / 2048 = 12 ∧ (next.addr.toNat - window7.base.toNat) % 2048 < 64 ∧
      (held 41 [r, next]).lpu.mode = .run ∧ (held 41 [r, next]).feedRec 12 = some (feedRecord .healthy 40 256) ∧
      (held 41 [r, next]).available 12 ((12 + 29) % 256) = false) ∧
    (∀ q ∈ [40, 41], (held q [r, more]).hold 7 = some ⟨7, 12, q, 11, 0, 200, [r, more]⟩) ∧
    (held 40 [r, more]).available 12 40 = true ∧ (held 41 [r, more]).available 12 41 = false := by decide +kernel

/-- HoldLimitMakesARepeatSlip, the ends in RING_WRITE: a held slot 41, completed by the last block of its unit, and a completion
without a header that brings a DEGRADED feed to the fail threshold of 512. -/
theorem witness_hold_ends :
    let r := read (windowBase + 11 * 2048) 64 41
    let more := read (windowBase + 11 * 2048 + 64) 64 41
    let c := write (ringBase + 41 * 2048 + 1984) 20 (List.replicate 64 0)
    let h : HoldEntry := ⟨7, 12, 41, 11, 50, 200, [r, more]⟩
    let held := linked (fun l => { l with holds := [h] }) (booked .live)
    let unit := fed (fun x => { x with openUnit := some ⟨41, some ⟨.inOrder, true, false⟩⟩ }) held
    let failing := fed (fun x => { x with health := .degraded, score := 504 }) held
    (WriterAt unit 12 41 1984 c ∧ 1984 + c.len = 2048 ∧ unit.lpu.holds = [h] ∧
      unit.route 7 = some { routeOn (.feed 12) with phase := 30 } ∧ unit.windowDef 7 = some window7 ∧
      unit.lpu.forwarding.length + 1 + h.reads.length ≤ 32 ∧ (more.addr.toNat - window7.base.toNat) / 2048 = h.slot ∧
      unit.feedRec 12 = some { feedRecord .healthy 40 256 with openUnit := some ⟨41, some ⟨.inOrder, true, false⟩⟩ } ∧
      0 - 1 < (unit.feedParams 12).degradeThreshold) ∧
    (WriterAt failing 12 41 1984 c ∧ failing.lpu.holds = [h] ∧
      failing.feedRec 12 = some { feedRecord .degraded 40 256 with score := 504 } ∧
      (failing.feedParams 12).failThreshold ≤ min 1023 (504 + 8)) := by
  refine ⟨⟨⟨rfl, ring12, ringAt_of (by decide +kernel), by decide⟩, by decide +kernel⟩,
    ⟨rfl, ring12, ringAt_of (by decide +kernel), by decide⟩, by decide +kernel⟩

/-! ### Witnesses: feeds -/

/-- SlotAvailability and FeedIntervalsMoveHealth: records in each state one millisecond before each interval, with the attempts
below and at the limit, and below every interval; in FAILED with a silence that comes below, to and past the loss timeout. -/
theorem witness_feeds :
    let at_ := fun h timer silence attempts => fed (fun r => { r with
      health := h, stateTimer := timer, silence := silence, attempts := attempts }) running
    (64 ≤ running.ringDepth ∧ running.feedRec 12 = some (feedRecord .healthy 40 256) ∧
      running.feedParams 12 = ⟨32, 5, 2000, 200, 30000, 64, 16, 512⟩ ∧ running.lpu.resetAsserted = false) ∧
    ∀ z ∈ [(Health.retryWait, 1999, 0, 0), (.retryWait, 1999, 199, 0), (.retryWait, 1998, 199, 0), (.failed, 1999, 198, 4),
        (.failed, 1999, 199, 4), (.failed, 1999, 200, 4), (.failed, 1999, 0, 5), (.failed, 1999, 29999, 5),
        (.healthy, 0, 199, 0), (.degraded, 0, 199, 0),
        (.qualifying, 0, 199, 0), (.barred, 0, 29999, 5), (.healthy, 0, 198, 0), (.absent, 0, 500, 0)],
      (at_ z.1 z.2.1 z.2.2.1 z.2.2.2).feedRec 12 = some { feedRecord z.1 40 256 with
        stateTimer := z.2.1, silence := z.2.2.1, attempts := z.2.2.2 } := by decide +kernel

/-- Table 11-8a: a header of feed 12 with that marker, tag, flags and sequence. -/
def header (marker tag flags seq : Nat) : List Byte :=
  le 2 marker ++ le 1 tag ++ le 1 flags ++ le 2 seq ++ List.replicate 10 0

/-- HeaderChecksFollowTheTable: a header for each clause, with 100 expected and 99 last; the edges 1023, 1024, 65471, 65472. -/
theorem witness_headers :
    let r := feedRecord .healthy 40 256
    let delta := fun seq => modSub 65536 (headerSequence (header 0x4B6A 12 0 seq)) r.expectedSeq
    headerMarker (header 0x6A4B 12 0 100) ≠ 0x4B6A ∧
    (headerMarker (header 0x4B6A 13 0 100) = 0x4B6A ∧ headerFeedTag (header 0x4B6A 13 0 100) ≠ 12) ∧
    (headerFeedTag (header 0x4B6A 12 0 100) = 12 ∧ FeedRecord.atEnterRun.seqKnown = false ∧ r.seqKnown = true) ∧
    (headerFlags (header 0x4B6A 12 2 100)).testBit 1 = true ∧ (headerFlags (header 0x4B6A 12 0 100)).testBit 1 = false ∧
    delta 100 = 0 ∧ delta 101 = 1 ∧ delta 1123 = 1023 ∧ delta 1124 = 1024 ∧ delta 35 = 65471 ∧ delta 36 = 65472 ∧
    (delta 99 = 65535 ∧ 99 = r.lastSeq) := by decide +kernel

/-- ScoredErrorsMoveHealth where no unit is open: a header at slot 41, and a partial first write. CompletionMovesTheLastSlot: the
last block of slot 41 with its unit open, in each health state, in order and after a gap, below and at the qualification length
of 32. -/
theorem witness_units :
    let w := write (ringBase + 41 * 2048) 20 (header 0x4B6A 12 0 100)
    let p := write (ringBase + 41 * 2048) 20 [1]
    let c := write (ringBase + 41 * 2048 + 1984) 20 (List.replicate 64 0)
    let x := feedRecord .healthy 40 256
    let unit := fun h run score result => fed (fun r => { r with
      health := h, cleanRun := run, score := score, openUnit := some ⟨41, some ⟨result, true, false⟩⟩ }) running
    (WriterAt running 12 41 0 w ∧ running.feedRec 12 = some x ∧ x.openUnit = none ∧ 16 ≤ w.len ∧
      (checkHeader 12 (w.data.take 16) { x with complete := 255 }).2.2 = 0) ∧
    (WriterAt running 12 41 0 p ∧ p.len < 16) ∧
    (WriterAt (unit .lost 0 0 .inOrder) 12 41 1984 c ∧ 1984 + c.len = 2048 ∧ (running.feedParams 12).qualLength = 32 ∧
      (running.feedParams 12).degradeThreshold = 64 ∧ (running.feedParams 12).failThreshold = 512) ∧
    ∀ z ∈ [(Health.lost, 0, 0), (.absent, 0, 0), (.qualifying, 30, 0), (.qualifying, 31, 0), (.healthy, 0, 64),
        (.degraded, 0, 17), (.degraded, 0, 512), (.failed, 0, 600)],
      ∀ result ∈ [HeaderResult.inOrder, .gap],
        ((unit z.1 z.2.1 z.2.2 result).feedRec 12).map (fun r => (r.health, r.cleanRun, r.score, r.openUnit)) =
          some (z.1, z.2.1, z.2.2, some ⟨41, some ⟨result, true, false⟩⟩) := by
  refine ⟨⟨⟨rfl, ring12, ringAt_of (by decide +kernel), by decide⟩, by decide +kernel⟩,
    ⟨⟨rfl, ring12, ringAt_of (by decide +kernel), by decide⟩, by decide⟩,
    ⟨⟨rfl, ring12, ringAt_of (by decide +kernel), by decide⟩, by decide +kernel⟩, by decide +kernel⟩

/-- ScoredErrorsMoveHealth: a feed in each state, at scores that stay below, reach and pass the thresholds 64 and 512; a first
write that finds a unit open, a header with a wrong marker, and completions that find no headed unit, in LOST and elsewhere. -/
theorem witness_scored :
    let n := write (ringBase + 41 * 2048) 20 (header 0x6A4B 12 0 100)
    let p := write (ringBase + 41 * 2048) 20 [1]
    let c := write (ringBase + 41 * 2048 + 1984) 20 (List.replicate 64 0)
    let torn := fed (fun r => { r with openUnit := some ⟨40, none⟩ }) running
    let lost := fed (fun r => { r with health := .lost, openUnit := some ⟨41, none⟩ }) running
    (∀ h ∈ [Health.absent, .qualifying, .retryWait, .healthy, .degraded, .failed, .lost, .barred],
      ∀ score ∈ [0, 24, 56, 504, 1020],
        (fed (fun r => { r with health := h, score := score, attempts := 4 }) running).feedRec 12 =
          some { feedRecord h 40 256 with score := score, attempts := 4 }) ∧
    (WriterAt torn 12 41 0 n ∧ 16 ≤ n.len ∧ 0 < (checkHeader 12 (n.data.take 16) (feedRecord .healthy 40 255)).2.2 ∧
      torn.feedRec 12 = some { feedRecord .healthy 40 256 with openUnit := some ⟨40, none⟩ }) ∧
    (WriterAt torn 12 41 0 p ∧ p.len < 16) ∧
    (WriterAt running 12 41 1984 c ∧ 1984 + c.len = 2048 ∧ running.feedRec 12 = some (feedRecord .healthy 40 256)) ∧
    (WriterAt lost 12 41 1984 c ∧ lost.feedRec 12 = some { feedRecord .lost 40 256 with openUnit := some ⟨41, none⟩ }) := by
  refine ⟨by decide +kernel, ⟨⟨rfl, ring12, ringAt_of (by decide +kernel), by decide⟩, by decide +kernel⟩,
    ⟨⟨rfl, ring12, ringAt_of (by decide +kernel), by decide⟩, by decide⟩,
    ⟨⟨rfl, ring12, ringAt_of (by decide +kernel), by decide⟩, by decide +kernel⟩,
    ⟨rfl, ring12, ringAt_of (by decide +kernel), by decide⟩, by decide +kernel⟩

/-! ### Witnesses: the Command Unit

A clause about a command has the hypothesis `Starts`; each theorem below gives it together with the clause's other hypotheses,
for the state and the parameter words it names. -/

/-- The command `code` with parameters `ps` starts in `s`, at slot 0. -/
def starting (code : Nat) (ps : List Nat) (s : State) : Bool :=
  decide (cuNext (asked code ps s) = some (0, record code ps, []) ∧ commandCode (record code ps) = code)

theorem starts_of {code : Nat} {ps : List Nat} {s : State} (h : starting code ps s = true) :
    Starts code (asked code ps s) 0 (record code ps) [] := by
  simp only [starting, decide_eq_true_eq] at h
  exact h

/-- Parameter word `i` of the record. -/
def word (ps : List Nat) (i : Nat) : Nat := commandParam (record 0x0101 ps) i

/-- CommandsStartInOrder: nothing to start; a BUSY answer with room and without; no answer; an
unknown code. -/
theorem witness_hand_over :
    let s := running.withCu { running.cu with busy := [⟨15, 0x0105, 7⟩] }
    let full := s.withRw { s.rw with result := ⟨63, 63, 0⟩ }
    cuNext running = none ∧ (s.cu.busy = ⟨15, 0x0105, 7⟩ :: [] ∧ 0 < 63 - modSub 64 s.rw.result.producer s.rw.result.consumer) ∧
    (full.cu.busy = ⟨15, 0x0105, 7⟩ :: [] ∧ 63 - modSub 64 full.rw.result.producer full.rw.result.consumer ≤ 0) ∧
    running.cu.busy = [] ∧
    (cuNext (asked 0x0999 [] running) = some (0, record 0x0999 [], []) ∧
      commandCode (record 0x0999 []) ∉ commandCodes) := by decide +kernel

/-- DefinitionsActInConfig. -/
theorem witness_map_commands :
    State.reset.lpu.mode = .config ∧ (booked .live).lpu.mode ≠ .config ∧
    (starting 0x0101 [256] State.reset ∧ word [256] 0 ∈ [64, 128, 256, 512, 1024]) ∧
    (starting 0x0101 [100] State.reset ∧ word [100] 0 ∉ [64, 128, 256, 512, 1024]) ∧
    (starting 0x0104 [60, 255, 0, 127] State.reset ∧
      ∀ i < 4, word [60, 255, 0, 127] i ≤ 127 ∨ word [60, 255, 0, 127] i = 255) ∧
    (starting 0x0104 [60, 128, 255, 255] State.reset ∧
      (127 < word [60, 128, 255, 255] 1 ∧ word [60, 128, 255, 255] 1 ≠ 255)) ∧
    (starting 0x0102 [63, 0, 255, 127, 1] State.reset ∧ word [63, 0, 255, 127, 1] 0 < 64 ∧ word [63, 0, 255, 127, 1] 2 ≤ 255 ∧
      word [63, 0, 255, 127, 1] 4 ≤ 1 ∧ word [63, 0, 255, 127, 1] 3 ≤ 127) ∧
    (starting 0x0102 [64, 0, 3, 20, 1] State.reset ∧ 64 ≤ word [64, 0, 3, 20, 1] 0) ∧
    (starting 0x0103 [47, 0, 2, 41, 0] State.reset ∧ word [47, 0, 2, 41, 0] 0 < 48 ∧ word [47, 0, 2, 41, 0] 4 = 0) ∧
    (starting 0x0103 [48, 0, 2, 41, 1] State.reset ∧ 48 ≤ word [48, 0, 2, 41, 1] 0) ∧
    ∀ code ∈ [0x0101, 0x0102, 0x0103, 0x0104, 0x0105], starting code [] (booked .live) = true := by decide +kernel

/-- EnterRunSetsUpTheBlocks: a map for each check that fails, and one that passes. -/
theorem witness_enter_run :
    let mapped := fun rings windows => linked (fun l => { l with
      depth := some 256, rings := rings, windows := windows, strapInit := 100 }) State.reset
    let good := mapped [(12, some ring12)] [(7, some window7)]
    State.reset.lpu.depth = none ∧
    (feedRegions (mapped [(12, some ring12)] []) ≠ [] ∧ windowRegions (mapped [(12, some ring12)] []) = []) ∧
    (let s := mapped [(12, some ⟨BitVec.ofNat 40 0x300000800, 20⟩)] [(7, some window7)];
      ∃ x ∈ feedRegions s, x.base % (s.ringDepth * 2048) ≠ 0) ∧
    (let s := mapped [(12, some ring12)] [(7, some ⟨ring12.base, 41⟩)];
      (∀ x ∈ feedRegions s ++ windowRegions s, x.base % (s.ringDepth * 2048) = 0) ∧
        geometryFault s = some (geometry 4 [1, 12, 2, 7])) ∧
    (let s := mapped [(12, some ⟨ring12.base, 100⟩)] [(7, some window7)];
      geometryFault s = some (geometry 5 [1, 12]) ∧ starting 0x0105 [] s ∧ s.lpu.mode = .config) ∧
    (geometryFault good = none ∧ starting 0x0105 [] good ∧ good.lpu.mode = .config) := by decide +kernel

/-- EnterConfigClearsTheRun: each mode, with an entry in use and without, and with a held read. -/
theorem witness_enter_config :
    let held := linked (fun l => { l with holds := [⟨7, 12, 41, 11, 0, 200, [startRead]⟩] }) running
    (starting 0x0106 [] (linked (fun l => { l with mode := .restarting }) running)) ∧
    (starting 0x0106 [] State.reset ∧ State.reset.lpu.mode = .config) ∧
    (starting 0x0106 [] (booked .live) ∧ ((booked .live).entry 3).state ≠ .empty) ∧
    (starting 0x0106 [] held ∧ held.lpu.mode = .run ∧ (∀ e < 128, (held.entry e).state = .empty) ∧
      held.inBounds = true ∧ ∀ h ∈ held.lpu.holds, held.windowDef h.dest ≠ none) := by decide +kernel

/-- MaskAndNoticeAreSet, ReportsGiveTheirWords. -/
theorem witness_reports :
    let s := booked .live
    (starting 0x0201 [511] s ∧ word [511] 0 < 512) ∧ (starting 0x0201 [512] s ∧ 512 ≤ word [512] 0) ∧
    (starting 0x0202 [1, 0, 1] s ∧ ∀ i < 3, word [1, 0, 1] i ≤ 1) ∧ (starting 0x0202 [0, 2, 0] s ∧ 1 < word [0, 2, 0] 1) ∧
    (∀ code ∈ [0x0203, 0x0304], ∀ p ∈ [0, 1, 2], starting code [p] s = true) ∧
    (starting 0x0403 [64, 0] s ∧ 63 < word [64, 0] 0) ∧ (starting 0x0403 [13, 3] s ∧ s.feedRec 13 = none) ∧
    (starting 0x0403 [12, 0] s ∧ s.feedRec 12 = some (feedRecord .healthy 40 256)) ∧ starting 0x0403 [12, 5] s ∧
    (starting 0x0506 [500, 4] s ∧ 3 < word [500, 4] 1) ∧ (starting 0x0506 [501, 3] s ∧ bookingOf s 501 = none) ∧
    (starting 0x0506 [500, 1] s ∧ bookingOf s 500 = some 3) ∧
    (starting 0x0601 [48, 0] s ∧ 47 < word [48, 0] 0) ∧ (starting 0x0601 [9, 1] s ∧ s.route 9 = none) ∧
    starting 0x0601 [7, 2] s := by decide +kernel

/-- RestartClosesEveryBooking: with a booking and a held read; then with an entry in CLOSING and without. -/
theorem witness_restart :
    (let s := linked (fun l => { l with holds := [⟨7, 12, 41, 11, 0, 200, [startRead]⟩] }) (booked .live);
      starting 0x0204 [] s ∧ (s.entry 3).state.isOpen = true ∧ s.inBounds = true ∧
        ∀ h ∈ s.lpu.holds, s.windowDef h.dest ≠ none) ∧
    (let s := (booked .closing).withCu { running.cu with executing := some ⟨0, record 0x0204 [], .restarting 1 0⟩ };
      s.cu.executing = some ⟨0, record 0x0204 [], .restarting 1 0⟩ ∧ (s.entry 3).state = .closing) ∧
    (let s := running.withCu { running.cu with executing := some ⟨0, record 0x0204 [], .restarting 1 0⟩ };
      s.cu.executing = some ⟨0, record 0x0204 [], .restarting 1 0⟩ ∧ ∀ e < 128, (s.entry e).state ≠ .closing) := by
  decide +kernel

/-! ### Witnesses: network time -/

/-- `NothingDue` where no read is held and no mark is expected. -/
theorem nothingDue_of {s : State} (h : s.lpu.holds = [] ∧ s.tb.expected = none) : NothingDue s :=
  ⟨h.1, fun x hx => by rw [h.2] at hx; cases hx⟩

/-- MillisecondAdvancesNetworkTime: nothing due; millisecond 998, 999, and the last millisecond. -/
theorem witness_millisecond :
    NothingDue running ∧ running.lpu.resetAsserted = false ∧
    (timed (fun t => { t with millis := 998 }) running).tb.millis < 999 ∧
    (let s := timed (fun t => { t with millis := 999 }) running; 999 ≤ s.tb.millis ∧ s.tb.seconds < 4294967295) ∧
    (let s := timed (fun t => { t with millis := 999, seconds := 4294967295 }) running;
      999 ≤ s.tb.millis ∧ 4294967295 ≤ s.tb.seconds) :=
  ⟨nothingDue_of (by decide +kernel), by decide +kernel⟩

/-- AccrualAddsOneMillisecond: each state and condition. -/
theorem witness_accrual :
    (∀ st ∈ [BookingState.preroll, .suspended, .live, .overrun, .closing], ((booked st).entry 3).state = st) ∧
    ∀ c ∈ [Condition.clean, .degraded, .outage],
      (modDelivery 7 (fun x => { x with condition := c }) (booked .overrun)).delivery
        ((booked .overrun).entry 3).desc.dest = { Delivery.initial with condition := c } := by decide +kernel

/-- MarksAreTreatedByState: OFF; each reference state in MONITOR, in window (499 µs) and out of it (1,499 µs), with the first-mark-due
flag set and clear and one mark short of LOCKED; TRACK and ALIGN_ONCE with less and more than 500 µs elapsed; a staged time;
and the mark missed in ACQUIRING, in LOCKED once, and in LOCKED the third time. -/
theorem witness_marks :
    let at_ := fun m st millis => timed (fun t => { t with
      refMode := m, refState := st, millis := millis, reported := 5, seconds := 5, consecutive := 3 }) running
    let missed := fun (st : RefState) failed => timed (fun t => { t with
      refMode := .monitor, refState := st, failed := failed, expected := some 1000, window := 10, msStart := 1000 }) running
    (running.lpu.resetAsserted = false ∧ NothingDue running ∧ running.tb.refMode = .off) ∧
    (∀ m ∈ [RefMode.monitor, .track, .alignOnce], ∀ st ∈ [RefState.absent, .acquiring, .locked, .holdover],
      ∀ millis ∈ [0, 1], let s := at_ m st millis
      s.tb.refMode = m ∧ s.tb.refState = st ∧ s.tb.millis = millis ∧ s.tb.seconds ≤ s.tb.reported ∧ s.tb.staged = none ∧
        s.tb.firstMarkDue = true ∧ s.tb.expected = none ∧ s.lpu.holds = [] ∧ s.tb.seconds < 4294967295 ∧
        s.tb.window = 1000 ∧ s.tb.consecutive + 1 = 4) ∧
    (timed (fun t => { t with firstMarkDue := false }) (at_ .monitor .acquiring 0)).tb.firstMarkDue = false ∧
    (timed (fun t => { t with staged := some 4 }) (at_ .monitor .locked 0)).tb.staged = some 4 ∧
    ∀ p ∈ [(RefState.acquiring, 0), (.locked, 1), (.locked, 2)],
      let s := missed p.1 p.2
      s.lpu.holds = [] ∧ s.tb.expected = some 1000 ∧ max s.tb.subMicros (1000 + s.tb.window - s.tb.msStart) < 1000 ∧
        s.tb.refState = p.1 ∧ s.tb.failed = p.2 :=
  ⟨⟨by decide +kernel, nothingDue_of (by decide +kernel), by decide +kernel⟩, by decide +kernel⟩

/-- SetTimeAppliesOrStages, with no new second and with new ones, the grants in order; ReferenceModeAndWindowAreSet. -/
theorem witness_time_commands :
    (∀ ps ∈ [[0, 0], [0, 1], [0, 2], [9, 0]],
      starting 0x0301 ps (booked .live) = true ∧ grantsOk (asked 0x0301 ps (booked .live)) = true) ∧
    (booked .live).tb.refMode = .off ∧ word [0, 0] 0 ≤ (booked .live).tb.reported ∧
    (booked .live).tb.reported < word [9, 0] 0 ∧
    (let s := timed (fun t => { t with refMode := .track }) running; starting 0x0301 [9, 1] s ∧ s.tb.refMode ≠ .off) ∧
    (∀ m ∈ [0, 1, 2, 3, 4], starting 0x0302 [m] running = true ∧ word [m] 0 = m) ∧
    ∀ w ∈ [0, 1000, 20000], starting 0x0303 [w] running = true := by decide +kernel

/-! ### Witnesses: settings -/

/-- SettingsAreBroughtIntoRange: each command for one object, for all, and refused; the tariff in use and not. -/
theorem witness_settings :
    let s := booked .live
    (starting 0x0401 [12, 0, 5, 2000, 200, 30000, 64, 16, 512] s ∧ word [12, 0, 5, 2000, 200, 30000, 64, 16, 512] 0 < 64) ∧
    (starting 0x0401 [255, 32, 5, 2000, 200, 30000, 16, 16, 512] s ∧ word [255, 32] 0 = 255) ∧
    (starting 0x0401 [64] s ∧ 63 < word [64] 0 ∧ word [64] 0 ≠ 255) ∧
    (starting 0x0705 [7, 50, 2000, 30, 1000] s ∧ word [7] 0 < 48) ∧ (starting 0x0705 [48] s ∧ 47 < word [48] 0) ∧
    (starting 0x0801 [255, 6, 16, 1, 200] s ∧ word [255, 6, 16, 1, 200] 3 ≤ 1 ∧ s.inBounds = true) ∧
    (starting 0x0801 [7, 6, 16, 2, 200] s ∧ 1 < word [7, 6, 16, 2, 200] 3) ∧
    (starting 0x0901 [5, 600, 2, 8, 60, 300, 5000, 0] s ∧ word [5, 600, 2, 8, 60] 2 ∈ [0, 1, 2, 4] ∧
      word [5, 600, 2, 8, 60] 4 ∈ [1, 6, 15, 30, 60] ∧
      ∀ e < 128, (s.entry e).state ∉ [.empty, .fetching] → (s.entry e).desc.tariff ≠ 5) ∧
    (starting 0x0901 [16, 600, 2, 8, 60] s ∧ 15 < word [16] 0) ∧
    (starting 0x0901 [3, 600, 2, 8, 60] s ∧ (s.entry 3).state ≠ .empty ∧ (s.entry 3).state ≠ .fetching ∧
      (s.entry 3).desc.tariff = 3 ∧ ∀ i < 3, (s.entry i).state = .empty) := by decide +kernel

/-- ClearFeedClearsTheErrors. -/
theorem witness_clear_feed :
    (starting 0x0402 [12] State.reset ∧ State.reset.lpu.mode ≠ .run) ∧ (starting 0x0402 [64] running ∧ 63 < word [64] 0) ∧
    (starting 0x0402 [13] running ∧ running.feedRec 13 = none) ∧
    (starting 0x0402 [12] running ∧ running.lpu.mode = .run ∧ running.feedRec 12 = some (feedRecord .healthy 40 256)) ∧
    (let s := fed (fun r => { r with health := .barred }) running;
      starting 0x0402 [12] s ∧ s.feedRec 12 = some (feedRecord .barred 40 256)) := by decide +kernel

/-! ### Witnesses: bookings and grants -/

/-- LoadBookingFetchesADescriptor: its refusals, and an accepted one that takes entry 0. -/
theorem witness_load_booking :
    (starting 0x0501 [0, 0] State.reset ∧ State.reset.lpu.mode ≠ .run) ∧
    (starting 0x0501 [0x1000, 256] running ∧ 255 < word [0x1000, 256] 1) ∧
    (starting 0x0501 [0x1020, 4] running ∧ word [0x1020, 4] 0 % 64 ≠ 0) ∧
    (let s := running.withBt { running.bt with entries := (List.range 128).map (fun e => (e, entryIn .waiting)) };
      starting 0x0501 [0x1000, 4] s ∧ ∀ e < 128, (s.entry e).state ≠ .empty) ∧
    (starting 0x0501 [0x1000, 4] running ∧ word [0x1000, 4] 1 ≤ 255 ∧ word [0x1000, 4] 0 % 64 = 0 ∧
      (running.entry 0).state = .empty) := by decide +kernel

/-- The 64 bytes of a descriptor of booking `ref` on destination 7, feed 12, tariff 3, from second 100 to 200, preroll 10. -/
def descriptor (marker ref : Nat) : List Byte :=
  let bytes := le 2 marker ++ le 2 0 ++ le 4 ref ++ le 2 1 ++ le 1 7 ++ le 1 12 ++ le 3 0xFFFFFF ++ le 1 5 ++ le 1 2 ++
    le 1 3 ++ le 2 10 ++ le 4 100 ++ le 4 200 ++ le 2 5
  bytes ++ List.replicate (64 - bytes.length) 0

/-- ValidationMakesTheChecks and DescriptorReadEndsTheFetch: a descriptor that passes, before its preroll second 90 and at it; one
with a wrong marker, one with the reference of entry 3; a fetch by command into entry 0, one by a chain, and none. -/
theorem witness_fetch :
    let fetching := fun origin => ((booked .live).setEntry 0 { Entry.blank with
      state := .fetching, origin := origin, address := 0x400001000, fetchTag := some 4 }).withLpu
        { (booked .live).lpu with issued := [.own descriptorRead] }
    let s := (fetching .command).withCu { running.cu with executing := some ⟨0, record 0x0501 [0x1000, 4], .loading 0⟩ }
    (s.lpu.issued = [] ++ .own descriptorRead :: [] ∧ descriptorRead.kind = .descriptor ∧ (s.entry 0).state = .fetching ∧
      (s.entry 0).fetchTag = some descriptorRead.req.tag ∧ (s.entry 0).origin = .command ∧
      s.cu.executing = some ⟨0, record 0x0501 [0x1000, 4], .loading 0⟩) ∧
    (validation s (descriptor 0x6A4B 501) = none ∧
      s.tb.seconds < field (descriptor 0x6A4B 501) 20 4 - field (descriptor 0x6A4B 501) 18 2) ∧
    (∀ origin ∈ [LoadOrigin.command, .chain 499],
      let t := (timed (fun y => { y with seconds := 90, reported := 90 }) (fetching origin)).setHolder 7 none
      validation t (descriptor 0x6A4B 501) = none ∧ t.holder (field (descriptor 0x6A4B 501) 10 1) = none ∧
        field (descriptor 0x6A4B 501) 20 4 - field (descriptor 0x6A4B 501) 18 2 ≤ t.tb.seconds ∧
        t.tb.seconds < field (descriptor 0x6A4B 501) 20 4) ∧
    validation s (descriptor 0x4B6A 501) = some 1 ∧
    (validation s (descriptor 0x6A4B 500) = some 3 ∧ bookingOf s (field (descriptor 0x6A4B 500) 4 4) = some 3) ∧
    (((fetching (.chain 499)).entry 0).origin = .chain 499 ∧ validation (fetching (.chain 499)) (descriptor 0x6A4B 501) = none) ∧
    (let t := (booked .live).withLpu { (booked .live).lpu with issued := [.own descriptorRead] };
      ∀ e < 128, ¬((t.entry e).state = .fetching ∧ (t.entry e).fetchTag = some descriptorRead.req.tag)) := by decide +kernel

/-- ClosingProducesOneFinalRecord: each open state, with the ring free, with it full and the queue short, with the queue
full. -/
theorem witness_closing :
    (∀ st ∈ [BookingState.scheduled, .waiting, .preroll, .live, .suspended, .overrun],
      ((booked st).entry 3).state = st ∧ 3 ∉ (booked st).grantQueue ((booked st).entry 3).desc.dest) ∧
    ((booked .live).ringFull .billing = false ∧ (booked .live).rw.pendingBilling = [] ∧
      ((booked .live).entry 3).hasLive = true ∧ (booked .live).tariff ((booked .live).entry 3).desc.tariff ≠ none) ∧
    (let s := (booked .live).withRw { running.rw with billing := ⟨511, 511, 0⟩ };
      s.ringFull .billing = true ∧ s.rw.pendingBilling.length < 8) ∧
    (let r := muFinal running (entryIn .live);
      ((booked .live).withRw { running.rw with pendingBilling := List.replicate 8 r }).rw.pendingBilling ≠ []) := by
  decide +kernel

/-- MeterLimitsCloseBookings: each limit one millisecond away, in each condition that accrues, and further away, the grants in
order. -/
theorem witness_limits :
    let metered := fun st m => entered (fun x => { x with meters := m }) (booked st)
    (NothingDue (booked .live) ∧ (booked .live).lpu.resetAsserted = false) ∧
    (∀ c ∈ [Condition.clean, .degraded, .outage],
      let s := modDelivery 7 (fun x => { x with condition := c }) (metered .live ⟨0, 86399990, 5, 4, 0, 0, 0, 0⟩)
      grantsOk s = true ∧ (s.entry 3).state = .live ∧ (s.entry 3).meters.window + 1 = 86400000 ∧
        (s.delivery (s.entry 3).desc.dest).condition = c) ∧
    (∀ c ∈ [Condition.clean, .degraded, .outage],
      let s := modDelivery 7 (fun x => { x with condition := c }) (metered .overrun ⟨0, 0, 0, 0, 299990, 5, 4, 0⟩)
      grantsOk s = true ∧ (s.entry 3).state = .overrun ∧ (s.entry 3).meters.over + 1 = (s.entry 3).desc.allowance * 60000 ∧
        (s.delivery (s.entry 3).desc.dest).condition = c) ∧
    (let s := (metered .suspended ⟨0, 0, 0, 0, 0, 0, 0, 86399999⟩).setGrantQueue 7 [3];
      let x := s.entry 3;
      grantsOk (entered (fun y => { y with resume := some .live }) s) = true ∧ x.state = .suspended ∧
        86400000 ≤ min 4294967295 (x.meters.su + 1)) ∧
    (grantsOk (booked .live) = true ∧ ((booked .live).entry 3).meters.c + 1 < 86400000) ∧
    (grantsOk (booked .overrun) = true ∧ ((booked .overrun).entry 3).meters.oc + 1 < 300000) :=
  ⟨⟨nothingDue_of (by decide +kernel), by decide +kernel⟩, by decide +kernel⟩

/-- BoundariesFireAtSecondReports: the next second; and each boundary of entry 3 (effective start 10, preroll 2, half 505, end
1000) reported at its own second, in each state in which it acts, the grants in order. -/
theorem witness_boundaries :
    let s := fun st fired resume => entered (fun x => { x with
      fired := fired, resume := resume, desc := { x.desc with preroll := 2, checkpoint := true } }) (booked st)
    (timed (fun t => { t with seconds := 1 }) running).tb.seconds = running.tb.reported + 1 ∧
    (∀ z ∈ [(BookingState.scheduled, 0, 8), (.waiting, 0, 8), (.preroll, 1, 10), (.suspended, 1, 10), (.live, 1, 10),
        (.waiting, 2, 505), (.live, 2, 505), (.overrun, 2, 505), (.live, 3, 1000), (.suspended, 3, 1000),
        (.overrun, 3, 1000)],
      let t := s z.1 z.2.1 (some .preroll)
      grantsOk t = true ∧ (t.entry 3).state = z.1 ∧ (t.entry 3).fired = z.2.1 ∧ (t.entry 3).boundary z.2.1 = z.2.2 ∧
        ∀ j < 128, j ≠ 3 → (t.entry j).state = .empty) ∧
    ((s .scheduled 0 none).holder 7 = none ∧ (s .scheduled 0 none).tb.seconds < 10) ∧
    ((s .live 2 none).ringFull .billing = false ∧ (s .live 2 none).rw.pendingBilling = []) ∧
    (∀ k ∈ [1, 8],
      let t := (s .live 2 none).withRw { running.rw with
        billing := ⟨511, 511, 0⟩, pendingBilling := List.replicate k (muFinal running (entryIn .live)) }
      t.ringFull .billing = true ∧ t.rw.pendingBilling.length = k) ∧
    ∀ on ∈ [true, false],
      (entered (fun x => { x with fired := 3, desc := { x.desc with holdOn := on } }) (booked .live)).entry 3 =
        { entryIn .live with fired := 3, desc := { (entryIn .live).desc with holdOn := on } } := by decide +kernel

/-- CancelAndReleaseActByState, AdvanceAndExtendMoveTheBooking: each state, the flags, and an unknown reference. -/
theorem witness_booking_commands :
    (∀ st ∈ [BookingState.scheduled, .waiting, .preroll, .live, .suspended, .overrun, .closing],
      ∀ c ∈ [0x0502, 0x0503, 0x0504, 0x0505], starting c [500, 1, 1] (booked st) = true ∧ bookingOf (booked st) 500 = some 3 ∧
        ((booked st).entry 3).state = st) ∧
    (starting 0x0502 [500, 2] (booked .live) ∧ 1 < word [500, 2] 1) ∧
    (starting 0x0504 [501, 0] (booked .live) ∧ bookingOf (booked .live) 501 = none) ∧
    (let s := timed (fun t => { t with seconds := 1000 }) (booked .waiting);
      starting 0x0503 [500] s ∧ (s.entry 3).desc.endSec ≤ s.tb.seconds) ∧
    ((booked .scheduled).tb.seconds + 2 ≤ ((booked .scheduled).entry 3).desc.endSec ∧
      (booked .scheduled).holder ((booked .scheduled).entry 3).desc.dest = none) ∧
    (starting 0x0505 [500, 5, 2] (booked .live) ∧ 1 < word [500, 5, 2] 2) ∧
    (let s := entered (fun x => { x with meters := { x.meters with oc := 60000 } }) (booked .overrun);
      starting 0x0505 [500, 1, 1] s ∧ (s.entry 3).state = .overrun ∧ 1 * 60000 ≤ (s.entry 3).meters.oc) := by
  decide +kernel

/-- RequestGrantsPreemptsOrQueues: no holder; a holder of lower priority and one of equal priority; entry 4 asks. -/
theorem witness_requests :
    let second := fun p => (booked .live).setEntry 4 { entryIn .scheduled with
      desc := { (entryIn .scheduled).desc with ref := 501, priority := p } }
    (((booked .scheduled).entry 3).state = .scheduled ∧ (booked .scheduled).holder 7 = none) ∧
    (((second 6).entry 4).state = .scheduled ∧ (second 6).holder 7 = some 3 ∧ ((second 6).entry 3).state = .live ∧
      ((second 6).entry 3).desc.priority < ((second 6).entry 4).desc.priority ∧
      ((second 6).entry 4).desc.mayPreempt = true ∧ ((second 6).entry 3).desc.preemptible = true) ∧
    ((second 5).holder 7 = some 3 ∧ ¬((second 5).entry 3).desc.priority < ((second 5).entry 4).desc.priority) := by
  decide +kernel

/-- ReleaseHandsOnOrVacates: entry 4 in the queue, waiting, and suspended from LIVE; an empty queue; RESTARTING; a notice with a
pending take, with a held read, with an unusable feed, and without a find; a withdrawal. -/
theorem witness_release :
    (∀ st ∈ [BookingState.waiting, .suspended], (queued st).lpu.mode = .run ∧ (queued st).grantQueue 7 = 4 :: [] ∧
      ((queued st).entry 4).state = st) ∧
    ((booked .live).grantQueue 7 = [] ∧ (linked (fun l => { l with mode := .restarting }) (queued .waiting)).lpu.mode ≠ .run) ∧
    (let s := booked .live;
      s.route 7 = some { routeOn (.feed 12) with phase := 30 } ∧ s.hold 7 = none ∧ s.usable (s.entry 3).selected = true ∧
        ruSearch s 7 12 = some 25 ∧ (fed (fun r => { r with health := .lost }) s).usable 12 = false ∧
        ruSearch (fed (fun r => { r with pictureStarts := [] }) s) 7 12 = none) ∧
    (let tk : Take := ⟨12, .manual, .ready, some 25, false, 0⟩;
      (routed (fun r => { r with take := some tk }) (booked .live)).route 7 =
        some { routeOn (.feed 12) with phase := 30, take := some tk }) ∧
    (let s := linked (fun l => { l with holds := [⟨7, 12, 41, 11, 0, 200, [startRead]⟩] }) (booked .live);
      s.hold 7 = some ⟨7, 12, 41, 11, 0, 200, [startRead]⟩ ∧ s.windowDef 7 = some window7) := by decide +kernel

/-! ### Witnesses: takes and timers -/

/-- TakeCommandsActOnThePendingTake: a usable target with an armed slot, a cued take, no cued take; the refusals. -/
theorem witness_takes :
    let s := booked .live
    let tk : Take := ⟨12, .cue, .cued, some 25, false, 0⟩
    (s.lpu.mode = .run ∧ s.holder 7 = some 3 ∧ s.route 7 = some { routeOn (.feed 12) with phase := 30 } ∧
      ruSearch s 7 12 = some 25 ∧ s.usable 12 = true ∧ 12 ∈ (s.entry 3).desc.feedSet ∧
      starting 0x0701 [7, 12] s ∧ starting 0x0702 [7, 12] s ∧ starting 0x0703 [7] s ∧ starting 0x0704 [7] s) ∧
    (let t := routed (fun r => { r with take := some tk }) s;
      t.route 7 = some { routeOn (.feed 12) with phase := 30, take := some tk } ∧ tk.state = .cued ∧
        starting 0x0703 [7] t ∧ starting 0x0704 [7] t) ∧
    (starting 0x0701 [48, 12] s ∧ 47 < word [48, 12] 0) ∧ (starting 0x0702 [7, 64] s ∧ 63 < word [7, 64] 1) ∧
    (starting 0x0703 [9] s ∧ s.holder 9 = none) ∧ (starting 0x0701 [7, 14] s ∧ 14 ∉ (s.entry 3).desc.feedSet) := by
  decide +kernel

/-- Destination 7 with that source, wanted feed and take, feeds 12 and 13 in that health, where they have a record. -/
def reporting (x : Source) (wanted : Option Nat) (take : Option Take) (h12 h13 : Health) : State :=
  let s := ((booked .live).setFeedRec 12 (some (feedRecord h12 40 256))).setFeedRec 13 (some (feedRecord h13 40 256))
  routed (fun r => { r with source := x, wanted := wanted, take := take }) s

/-- ReportsReachTheRoutes, the health reports: a take to a feed that is neither current, wanted nor selected, in each state, with
a find and without; the current feed unusable with a failover target that is usable, unusable and none, and with a freeze limit
of 0; the current feed usable again; the wanted feed usable with a deferred failover and with no arm left; and the revert
conditions met and not. -/
theorem witness_health_reports :
    let take := fun st => (⟨13, .manual, st, some 25, false, 70⟩ : Take)
    let base := reporting (.feed 12) none none .lost .healthy
    let zero := (reporting (.feed 12) none none .lost .lost).setDestParams 7 { DestParams.default with freezeLimit := 0 }
    let wanted := reporting (.feed 12) (some 13) none .lost .healthy
    let armless := entered (fun x => { x with armsLeft := 0 })
    (∀ st ∈ [TakeState.waitSource, .arming, .ready, .cued],
      let s := reporting .slate none (some (take st)) .healthy .healthy
      (s.route 7).bind Route.take = some (take st) ∧ s.hold 7 = none ∧ s.selectedFeed 7 = some 12 ∧
        ruSearch s 7 13 = some 25 ∧
        ruSearch (s.setFeedRec 13 (some { feedRecord .healthy 40 256 with pictureStarts := [] })) 7 13 = none) ∧
    (base.holder 7 = some 3 ∧ base.lpu.mode = .run ∧ (base.entry 3).selected = 12 ∧ (base.entry 3).desc.backup = 13 ∧
      (base.entry 3).desc.autoFailover = true ∧ 0 < (base.entry 3).armsLeft ∧ 0 < (base.destParams 7).freezeLimit ∧
      base.route 7 = some { routeOn (.feed 12) with phase := 30 } ∧ base.usable 12 = false ∧ base.usable 13 = true ∧
      ruSearch base 7 13 = some 25) ∧
    (let s := reporting (.feed 12) none none .lost .lost;
      s.usable 12 = false ∧ s.usable 13 = false ∧ (s.entry 3).selected = 12) ∧
    (((armless base).entry 3).armsLeft = 0 ∧
      (armless wanted).route 7 = some { routeOn (.feed 12) with phase := 30, wanted := some 13 } ∧
      (armless wanted).usable 13 = true ∧ ruSearch (armless wanted) 7 13 = some 25) ∧
    ((zero.destParams 7).freezeLimit = 0 ∧ zero.usable 12 = false ∧ (zero.entry 3).selected = 12 ∧
      zero.route 7 = some { routeOn (.feed 12) with phase := 30 }) ∧
    (let s := reporting (.feed 12) none none .healthy .lost;
      s.route 7 = some { routeOn (.feed 12) with phase := 30 } ∧ s.usable 12 = true) ∧
    (wanted.route 7 = some { routeOn (.feed 12) with phase := 30, wanted := some 13 } ∧ wanted.usable 12 = false ∧
      wanted.usable 13 = true ∧ (wanted.entry 3).desc.backup = 13 ∧ 0 < (wanted.entry 3).armsLeft ∧
      ruSearch wanted 7 13 = some 25) ∧
    (let s := routed (fun r => { r with failoverSince := true, revert := 500 })
        (reporting (.feed 13) none none .healthy .healthy);
      (s.entry 3).desc.autoRevert = true ∧ (s.entry 3).desc.backup = 13 ∧ (s.entry 3).selected = 12 ∧
        (s.feedRec 12).map FeedRecord.health = some .healthy ∧ (base.route 7).map Route.failoverSince = some false) := by
  decide +kernel

/-- ReportsReachTheRoutes, the completion reports: a take in each state with p at distance 128, which is N/2, and at 129, with a
find and without; and the sources of the reports: route 7 alone, feed 12 DEGRADED 8 below the fail threshold, and the last block
of an open unit. -/
theorem witness_completion_reports :
    let c := write (ringBase + 41 * 2048 + 1984) 20 (List.replicate 64 0)
    let unit := fed (fun x => { x with openUnit := some ⟨41, some ⟨.inOrder, true, false⟩⟩ }) (booked .live)
    (∀ st ∈ [TakeState.waitSource, .arming, .ready, .cued], ∀ p ∈ [168, 167], ∀ rough ∈ [true, false],
      let tk : Take := ⟨12, .manual, st, some p, rough, 0⟩
      let s := routed (fun r => { r with take := some tk }) (booked .live)
      s.route 7 = some { routeOn (.feed 12) with phase := 30, take := some tk } ∧ s.hold 7 = none ∧
        s.feedRec 12 = some (feedRecord .healthy 40 256)) ∧
    (modSub 256 40 168 = 128 ∧ modSub 256 40 167 = 129) ∧
    (ruSearch (booked .live) 7 12 = some 25 ∧
      ruSearch (fed (fun r => { r with pictureStarts := [] }) (booked .live)) 7 12 = none) ∧
    ((∀ g < 48, g ≠ 7 → (booked .live).route g = none) ∧
      (fed (fun r => { r with health := .degraded, score := 504 }) (booked .live)).feedRec 12 =
        some { feedRecord .degraded 40 256 with score := 504 } ∧ ((booked .live).feedParams 12).failThreshold = 504 + 8) ∧
    (WriterAt unit 12 41 1984 c ∧ 1984 + c.len = 2048 ∧ unit.lpu.holds = [] ∧
      unit.feedRec 12 = some { feedRecord .healthy 40 256 with openUnit := some ⟨41, some ⟨.inOrder, true, false⟩⟩ }) := by
  refine ⟨by decide +kernel, by decide, by decide +kernel, by decide +kernel,
    ⟨rfl, ring12, ringAt_of (by decide +kernel), by decide⟩, by decide +kernel⟩

/-- TimersActAtTheirLimits, the tests: a take in ARMING and one in WAIT_SOURCE at the take timeout, the freeze limit, the revert
hold, and each below its limit; the period with and without a raise; the impairment hold at 1, above and at 0. -/
theorem witness_timers :
    let s := booked .live
    let wait : Take := ⟨13, .manual, .waitSource, none, false, 1000⟩
    s.lpu.resetAsserted = false ∧
    (let t := routed (fun r => { r with take := some ⟨12, .manual, .arming, none, false, 1000⟩ }) s;
      (t.route 7).bind Route.take = some ⟨12, .manual, .arming, none, false, 1000⟩ ∧ (t.destParams 7).takeTimeout ≤ 1000) ∧
    (let t := fed (fun r => { r with health := .lost }) (routed (fun r => { r with take := some wait }) s);
      (t.route 7).bind Route.take = some wait ∧ t.holder 7 = some 3 ∧ t.usable 13 = false ∧
        t.usable (t.entry 3).selected = false) ∧
    (let t := routed (fun r => { r with freeze := some 2000 }) s;
      (t.route 7).bind Route.freeze = some 2000 ∧ (t.destParams 7).freezeLimit ≤ 2000) ∧
    (let t := routed (fun r => { r with source := .feed 13, failoverSince := true, revert := 30000 }) s;
      ((t.feedRec (t.entry 3).selected).map FeedRecord.health = some .healthy ∧ ruSearch t 7 12 = some 25 ∧
        (t.entry 3).desc.autoRevert = true ∧ (t.route 7).map Route.source = some (.feed (t.entry 3).desc.backup) ∧
        (t.entry 3).desc.backup ≠ (t.entry 3).selected ∧ (t.destParams 7).revertHold * 1000 ≤ 30000)) ∧
    (0 < (s.destParams 7).takeTimeout ∧ 0 < (s.destParams 7).freezeLimit ∧ 0 < (s.destParams 7).revertHold * 1000) ∧
    (let t := modDelivery 7 (fun x => { x with periodCount := 10000, periodRepeats := 3, adapt := true }) s;
      10000 ≤ (t.delivery 7).periodCount ∧ (t.delivery 7).lag < (t.delivery 7).lagMax ∧
        (t.route 7).map Route.change = some none) ∧
    (let t := modDelivery 7 (fun x => { x with periodCount := 10000 }) s; (t.delivery 7).adapt = false) ∧
    (s.delivery 7).periodCount < 10000 ∧ (s.delivery 7).impairment = 0 ∧
    (s.entry 3).desc.billBackupDegraded = false ∧
    ∀ k ∈ [1, 2], ((modDelivery 7 (fun x => { x with impairment := k }) s).delivery 7).impairment = k := by decide +kernel

/-- `OnlyTimersDue` from the conditions of which a run of it consists. -/
theorem onlyTimersDue_of {s : State} (h : s.tb.millis < 999 ∧ s.tb.seconds ≤ s.tb.reported ∧
    (∀ e < 128, let x := s.entry e
      (x.state = .live → x.meters.window + 1 < 86400000) ∧
      (x.state = .overrun → x.meters.over + 1 < x.desc.allowance * 60000) ∧
      (x.state = .suspended → x.meters.su + 1 < 86400000)) ∧
    ∀ f < 64, (s.feedRec f).all (fun r => !r.retryDue (s.feedParams f) && !r.lossDue (s.feedParams f) &&
      !r.barDue (s.feedParams f)) = true) : OnlyTimersDue s := by
  refine ⟨h.1, h.2.1, h.2.2.1, fun f hf r hr => ?_⟩
  have := h.2.2.2 f hf
  rw [hr] at this
  simpa [and_assoc] using this

/-- TimersActAtTheirLimits, the rows: each timer one millisecond before its limit, and further away. -/
theorem witness_timer_rows :
    let s := booked .live
    let arming : Take := ⟨12, .manual, .arming, none, false, 999⟩
    let wait : Take := ⟨13, .manual, .waitSource, none, false, 999⟩
    let lost := fed (fun r => { r with health := .lost }) (routed (fun r => { r with take := some wait }) s)
    (NothingDue s ∧ OnlyTimersDue s ∧ OnlyTimersDue lost ∧ s.lpu.resetAsserted = false) ∧
    ((routed (fun r => { r with take := some arming }) s).route 7 =
      some { routeOn (.feed 12) with phase := 30, take := some arming } ∧ (s.destParams 7).takeTimeout ≤ 999 + 1) ∧
    (lost.usable 13 = false ∧ lost.usable (lost.entry 3).selected = false ∧ lost.holder 7 = some 3) ∧
    ((routed (fun r => { r with freeze := some 1999 }) s).route 7 =
      some { routeOn (.feed 12) with phase := 30, freeze := some 1999 } ∧ (s.destParams 7).freezeLimit ≤ 1999 + 1) ∧
    ((routed (fun r => { r with source := .feed 13, failoverSince := true, revert := 29999 }) s).route 7 =
      some { routeOn (.feed 13) with phase := 30, failoverSince := true, revert := 29999 } ∧
      (s.destParams 7).revertHold * 1000 ≤ 29999 + 1) ∧
    (∀ repeats ∈ [2, 3], ((modDelivery 7 (fun x => { x with
      periodCount := 9999, periodRepeats := repeats, adapt := true }) s).delivery 7).periodRepeats = repeats) ∧
    (s.delivery 7).periodCount + 1 < 10000 ∧ (s.delivery 7).impairment ≠ 1 ∧
    ((modDelivery 7 (fun x => { x with impairment := 1 }) s).delivery 7).impairment = 1 :=
  ⟨⟨nothingDue_of (by decide +kernel), onlyTimersDue_of (by decide +kernel), onlyTimersDue_of (by decide +kernel),
    by decide +kernel⟩, by decide +kernel⟩

/-- ChargesKeepTheirLaws: tariff 3 with a cap, the meters of Table 9-8, and smaller ones. -/
theorem witness_charges :
    let t : Tariff := ⟨1250, 2, 12, 15, 1800, 20000, 150000⟩
    let m : Meters := ⟨0, 3449520, 150000, 0, 0, 0, 0, 0⟩
    let k : Meters := ⟨0, 7047520, 151200, 1280, 1950000, 0, 0, 0⟩
    1 ≤ t.quantum ∧ t.cap ≠ 0 ∧ Meters.zero.c + Meters.zero.d + Meters.zero.oc + Meters.zero.od = 0 ∧
      (m.c ≤ k.c ∧ m.d ≤ k.d ∧ m.oc ≤ k.oc ∧ m.od ≤ k.od) ∧ k.c + k.d + k.u ≤ 86400000 ∧ k.oc + k.od + k.ou ≤ 14400000 ∧
      t.weight ∈ [0, 1, 2, 4] ∧ t.overrun ≤ 32 ∧ t.quantum ∈ [1, 6, 15, 30, 60] ∧ t.minimum ≤ 7200 ∧ t.rate ≤ 65535 ∧
      t.fee ≤ 65535 := by decide

end Sys2Proof.Tests
end

section
/-! SUPPORT. The arbiter (R19, R20) and the window reads that are no slot start (R16, R18), each operation said once; then the
statements about them. -/

namespace Sys2Proof.Machine

/-! ### The arbiter -/

theorem exec_downstreamGrant (s : State) : exec .downstreamGrant s = .next (lpuGrant s) := by rfl

@[simp] theorem rwNotice_lpu (s : State) : (rwNotice s).lpu = s.lpu := rfl

section
variable {s : State} (hr : s.lpu.resetAsserted = false)
include hr

/-- R20: the oldest own request goes first at a waiting count of 16, and where no pass-through request waits. -/
theorem lpuGrant_eq_own {o : OwnRequest} {rest : List OwnRequest} (ho : s.lpu.ownQueue = o :: rest)
    (h : s.lpu.waitingCount = 16 ∨ s.lpu.forwarding = []) : lpuGrant s = lpuGrantOwn o rest s := by
  cases hf : s.lpu.forwarding with
  | nil => simp [lpuGrant, hr, ho, hf]
  | cons x xs =>
    have hw : s.lpu.waitingCount = 16 := h.resolve_right (by simp [hf])
    simp [lpuGrant, hr, ho, hf, hw]

/-- R20: the oldest pass-through request goes first below the waiting count of 16, and where no own request waits. -/
theorem lpuGrant_eq_pass {x : Forward} {rest : List Forward} (hf : s.lpu.forwarding = x :: rest)
    (h : s.lpu.waitingCount ≠ 16 ∨ s.lpu.ownQueue = []) : lpuGrant s = lpuGrantPass x rest s := by
  cases ho : s.lpu.ownQueue with
  | nil => simp [lpuGrant, hr, ho, hf]
  | cons o os =>
    have hw : s.lpu.waitingCount ≠ 16 := h.resolve_right (by simp [ho])
    simp [lpuGrant, hr, ho, hf, hw]

end

theorem lpuGrant_of_empty {s : State} (ho : s.lpu.ownQueue = []) (hf : s.lpu.forwarding = []) : lpuGrant s = s := by
  simp [lpuGrant, ho, hf]

/-- The index that a producer word write publishes stands in the RW, so the LPU is the same for every kind of own request. -/
theorem lpuGrantOwn_lpu (o : OwnRequest) (rest : List OwnRequest) (s : State) :
    (lpuGrantOwn o rest s).lpu =
      { s.lpu with ownQueue := rest, waitingCount := 0, issued := s.lpu.issued ++ [.own o] } := by
  unfold lpuGrantOwn
  cases o.kind <;> simp

/-- R10: decided reads that waited for a place, oldest first, join the forwarding queue at its tail; nothing else changes. -/
theorem lpuRefill_spec (s : State) : ∃ moved left, s.lpu.decidedReads = moved ++ left ∧
    lpuRefill s = s.withLpu { s.lpu with forwarding := s.lpu.forwarding ++ moved, decidedReads := left } := by
  have kept : s = s.withLpu { s.lpu with forwarding := s.lpu.forwarding ++ [] } := by
    rw [List.append_nil]; rfl
  unfold lpuRefill
  split
  · exact ⟨[], _, rfl, kept⟩
  next x rest hd =>
    split
    · exact ⟨[x], rest, hd, rfl⟩
    · exact ⟨[], _, rfl, kept⟩

/-- R20: what the grant of a pass-through request does, whole. -/
theorem lpuGrantPass_spec (x : Forward) (rest : List Forward) (s : State) : ∃ moved left,
    s.lpu.decidedReads = moved ++ left ∧ lpuGrantPass x rest s = s.withLpu { s.lpu with
      forwarding := rest ++ moved, decidedReads := left, issued := s.lpu.issued ++ [.upstream x],
      waitingCount := s.lpu.waitingCount + (if s.lpu.ownQueue = [] then 0 else 1) } := by
  obtain ⟨moved, left, hd, h⟩ := lpuRefill_spec (s.withLpu { s.lpu with
    forwarding := rest, issued := s.lpu.issued ++ [.upstream x],
    waitingCount := if s.lpu.ownQueue.isEmpty then s.lpu.waitingCount else s.lpu.waitingCount + 1 })
  refine ⟨moved, left, hd, h.trans ?_⟩
  cases ho : s.lpu.ownQueue <;> simp

/-- Settles O17: the waiting count chooses the branch of the arbiter, and the grant of that branch gives the fields. -/
theorem arbiterGrantsByWaitingCount : Obligations.ArbiterGrantsByWaitingCount := by
  intro s hr
  refine ⟨fun o rest ho h => ?own, fun x rest hf h => ?pass, fun ho hf => ?idle⟩
  case own =>
    refine ⟨lpuGrantOwn o rest s, by rw [exec_downstreamGrant, lpuGrant_eq_own hr ho h], ?_⟩
    simp [lpuGrantOwn_lpu]
  case pass =>
    obtain ⟨moved, left, -, hg⟩ := lpuGrantPass_spec x rest s
    refine ⟨lpuGrantPass x rest s, by rw [exec_downstreamGrant, lpuGrant_eq_pass hr hf h], ?_⟩
    simp [hg]
  case idle => rw [exec_downstreamGrant, lpuGrant_of_empty ho hf]

/-! ### Window reads that are no slot start -/

theorem exec_windowRead (r : Request) (s : State) : exec (.windowRead r) s = .next (lpuReceive r s) := by rfl

/-- R10: while the LPU accepts requests the forwarding queue has a place, and no decided read waits before it. -/
theorem lpuForward_of_accepts {s : State} (h : lpuAccepts s = true) (x : Forward) : lpuForward x s = s.withForward x := by
  simp only [lpuAccepts, Bool.and_eq_true] at h
  obtain ⟨⟨⟨-, hroom⟩, hnone⟩, -⟩ := h
  simp [lpuForward, State.withForward, hroom, hnone]

theorem lpuReceive_of_accepts {s : State} (h : lpuAccepts s = true) (r : Request) :
    lpuReceive r s = lpuTreat r s := if_pos h

/-- R10: the treatment by class. It is an equation of functions: of one at `r` and `s` the kernel would evaluate `classify`,
with the size of the control area as a unary number, before it unfolds `lpuTreat`. -/
theorem lpuTreat_eq : lpuTreat = fun r s =>
    match classify s r.addr.toNat with
    | .control offset => lpuSnoop offset r (lpuPass r s)
    | .ring f offset => lpuRing f offset r s
    | .window d => lpuWindow d r s
    | .other => lpuPass r s := by
  rfl

theorem lpuTreat_of_window {s : State} {r : Request} {d : Nat} (h : classify s r.addr.toNat = .window d) :
    lpuTreat r s = lpuWindow d r s := by
  simp only [lpuTreat_eq, h]

/-- R14, R17: a read of the window of `d` by its reader, where no entry of the hold list takes it. -/
theorem lpuWindow_of_reader {s : State} {r : Request} {d : Nat} {x : Region} (hkind : r.kind = .read)
    (hx : s.windowDef d = some x) (hagent : x.agent = r.initiator.toNat) (hhold : s.hold d = none) :
    lpuWindow d r s = (lpuReadWindow d r s).1 := by
  simp [lpuWindow, hkind, hx, hagent, hhold]

theorem remapped_of_remappedTo {s : State} {x : Served} {o : Nat} {a : Addr} (h : RemappedTo s x o a) :
    remapped s x o = a := by
  cases x with
  | slate => exact h.symm
  | ring f q =>
    obtain ⟨y, hy, rfl⟩ := h
    simp [remapped, hy]

/-- R18: the slot that the phase points to on the current source of the route; the slate where there is no route. -/
def routeServed (s : State) (d slot : Nat) : Served :=
  match s.route d with
  | some rt =>
    match rt.source with
    | .feed f => .ring f ((slot + rt.phase) % s.ringDepth)
    | .slate => .slate
  | none => .slate

theorem routeServed_of_feed {s : State} {d f : Nat} {rt : Route} (slot : Nat) (h : s.route d = some rt)
    (hf : rt.source = .feed f) : routeServed s d slot = .ring f ((slot + rt.phase) % s.ringDepth) := by
  simp [routeServed, h, hf]

theorem routeServed_of_slate {s : State} {d : Nat} (slot : Nat) (h : ∀ rt, s.route d = some rt → rt.source = .slate) :
    routeServed s d slot = .slate := by
  unfold routeServed
  cases hr : s.route d with
  | none => rfl
  | some rt => simp [h rt hr]

theorem lpuFollow_of_latched {s : State} {d slot : Nat} {x : Served} (h : s.latch d = some ⟨slot, .decided x⟩) :
    lpuFollow s d slot = x := by
  simp [lpuFollow, h]

theorem lpuFollow_of_not_latched {s : State} {d slot : Nat} (h : ∀ l, s.latch d = some l → l.slot ≠ slot) :
    lpuFollow s d slot = routeServed s d slot := by
  unfold lpuFollow routeServed
  cases hl : s.latch d with
  | none => rfl
  | some l =>
    obtain ⟨k, _ | x⟩ := l
    · rfl
    · have hk : k ≠ slot := h _ hl
      exact if_neg hk

namespace ReaderAt

variable {s : State} {d slot o : Nat} {r : Request} (h : ReaderAt s d slot o r)
include h

theorem windowSlot_eq : windowSlot s d r = slot := by
  obtain ⟨-, -, -, -, x, hx, -, hslot, -⟩ := h
  simp [windowSlot, hx, hslot]

theorem windowOffset_eq : windowOffset s d r = o := by
  obtain ⟨-, -, -, -, x, hx, -, -, ho⟩ := h
  simp [windowOffset, hx, ho]

/-- R10, R14, R17: an accepted read of a window by its reader that joins no hold entry is read from the window. -/
theorem lpuReceive_eq : lpuReceive r s = (lpuReadWindow d r s).1 := by
  obtain ⟨hacc, hclass, hkind, hhold, x, hx, hagent, -, -⟩ := h
  rw [lpuReceive_of_accepts hacc, lpuTreat_of_window hclass, lpuWindow_of_reader hkind hx hagent hhold]

/-- R16: a read served from `x` enters the forwarding queue at its remapped address, and nothing else changes. -/
theorem lpuServe_eq {x : Served} {a : Addr} (ha : RemappedTo s x o a) : lpuServe d r x s = s.servedAt d slot a r := by
  rw [lpuServe, h.windowSlot_eq, h.windowOffset_eq, remapped_of_remappedTo ha, lpuForward_of_accepts h.1]
  rfl

/-- R17, R18: a read that is no slot start, by its offset or by the decided latch, goes downstream from the source it
follows. -/
theorem exec_windowRead_of_follow {a : Addr} (hno : 64 ≤ o ∨ latchDecided s d slot = true)
    (ha : RemappedTo s (lpuFollow s d slot) o a) : exec (.windowRead r) s = .next (s.servedAt d slot a r) := by
  have hstart : (decide (o < 64) && !latchDecided s d slot) = false := by
    rcases hno with ho | hl
    · simp [Nat.not_lt.2 ho]
    · simp [hl]
  rw [exec_windowRead, h.lpuReceive_eq, ← h.lpuServe_eq ha]
  simp [lpuReadWindow, h.windowSlot_eq, h.windowOffset_eq, hstart]

end ReaderAt

/-- Settles O22: a read that is no slot start is served from what `lpuFollow` gives: the latched source, or else the route's. -/
theorem latchedReadKeepsItsSource : Obligations.LatchedReadKeepsItsSource := by
  intro s d slot o r a h
  refine ⟨fun x hx ha => ?latched, fun ho hl => ⟨fun rt f hrt hf ha => ?feed, fun hsl ha => ?slate⟩⟩
  case latched =>
    have hdec : latchDecided s d slot = true := by simp [latchDecided, hx]
    exact h.exec_windowRead_of_follow (.inr hdec) (by rwa [lpuFollow_of_latched hx])
  case feed =>
    exact h.exec_windowRead_of_follow (.inl ho) (by rwa [lpuFollow_of_not_latched hl, routeServed_of_feed slot hrt hf])
  case slate =>
    exact h.exec_windowRead_of_follow (.inl ho) (by rwa [lpuFollow_of_not_latched hl, routeServed_of_slate slot hsl])

end Sys2Proof.Machine
end

section
/-! SUPPORT. The control area (R11) with the command slots (R26) and the consumer words (R36), and the responses to own writes
(R35), each operation said once; then the statements about them. -/

namespace Sys2Proof.Machine

/-! ### Requests of the control area -/

theorem exec_commandSlotWrite (r : Request) (s : State) : exec (.commandSlotWrite r) s = .next (lpuReceive r s) := by rfl

theorem exec_consumerIndexWrite (r : Request) (s : State) : exec (.consumerIndexWrite r) s = .next (lpuReceive r s) := by
  rfl

theorem lpuPass_of_accepts {s : State} (h : lpuAccepts s = true) (r : Request) : lpuPass r s = s.passed r :=
  lpuForward_of_accepts h _

/-- R10, R11: a request of the control area goes downstream unchanged, whatever the CU or the RW then makes of it. -/
theorem ControlAt.lpuReceive_eq {s : State} {offset : Nat} {r : Request} (h : ControlAt s offset r) :
    lpuReceive r s = lpuSnoop offset r (s.passed r) := by
  obtain ⟨hacc, hclass⟩ := h
  simp only [lpuReceive_of_accepts hacc, lpuTreat_eq, hclass, lpuPass_of_accepts hacc]

/-- R11: a write into the command slots is reported to the CU. -/
theorem lpuSnoop_of_commandSlot {offset : Nat} {r : Request} (hkind : r.kind = .write) (ho : offset < 0x400) (s : State) :
    lpuSnoop offset r s = cuSlotWrite (offset / 64) (r.len == 64) r.data s := by
  simp [lpuSnoop, hkind, ho]

/-- R11: a 4-byte write of a consumer word is reported to the RW. -/
theorem lpuSnoop_of_consumerWord {offset : Nat} {r : Request} {id : RingId} (hkind : r.kind = .write) (hlen : r.len = 4)
    (hw : consumerWord offset = some id) (ho : 0x400 ≤ offset) (s : State) :
    lpuSnoop offset r s = rwConsumerWrite id (fromLE r.data) s := by
  simp [lpuSnoop, hkind, hlen, hw, Nat.not_lt.2 ho]

/-! ### Command slots -/

/-- R26: a write that is not a full block write, or whose code is 0, is counted and nothing else changes. -/
theorem cuSlotWrite_of_ignored {full : Bool} {data : List Byte} (h : full = false ∨ commandCode data = 0) (n : Nat)
    (s : State) : cuSlotWrite n full data s =
      s.withCu { s.cu with ignored := min 4294967295 (s.cu.ignored + 1) } := by
  have hguard : (!full || commandCode data == 0) = true := by simpa using h
  rw [cuSlotWrite, if_pos hguard]
  rfl

/-- Settles O14: the request is passed, and the CU counts its report as ignored. -/
theorem otherCommandWritesAreIgnored : Obligations.OtherCommandWritesAreIgnored := by
  intro s r offset hctl ho hkind hignored
  have hcu : (r.len == 64) = false ∨ commandCode r.data = 0 := by simpa using hignored
  rw [exec_commandSlotWrite, hctl.lpuReceive_eq, lpuSnoop_of_commandSlot hkind ho, cuSlotWrite_of_ignored hcu]
  rfl

/-! ### What the consumer side of a ring rests on -/

/-- What R36 speaks of after a consumer write: the consumer index of ring `id`, the count of bad index writes, and the
forwarding queue. -/
def consumerSide (id : RingId) (s : State) : Nat × Nat × List Forward :=
  ((s.ring id).consumer, s.rw.badIndexWrites, s.lpu.forwarding)

section
variable (id : RingId) (s : State)

@[simp] theorem rwSubmit_consumerSide (o : OwnRequest) : consumerSide id (rwSubmit o s) = consumerSide id s := by
  unfold rwSubmit
  split <;> cases id <;> rfl

@[simp] theorem rwRequest_consumerSide (k : OwnKind) (a : ReqKind) (addr len : Nat) (data : List Byte) :
    consumerSide id (rwRequest k a addr len data s) = consumerSide id s := by
  rw [rwRequest, rwSubmit_consumerSide]
  cases id <;> rfl

@[simp] theorem setRing_producer_consumerSide (ring : RingId) (n : Nat) :
    consumerSide id (s.setRing ring { s.ring ring with producer := n }) = consumerSide id s := by
  cases id <;> cases ring <;> rfl

@[simp] theorem rwAccept_consumerSide (ring : RingId) (bytes : List Byte) :
    consumerSide id (rwAccept ring bytes s) = consumerSide id s := by
  simp [rwAccept]

@[simp] theorem raise_consumerSide (cls : EventClass) (kind subject : Nat) (words : List Nat) :
    consumerSide id (raise cls kind subject words s) = consumerSide id s := by
  unfold raise
  split_ifs
  · cases id <;> rfl
  · rw [rwAccept_consumerSide]; cases id <;> rfl
  · rfl

@[simp] theorem setEntry_consumerSide (e : Nat) (x : Entry) : consumerSide id (s.setEntry e x) = consumerSide id s := by
  cases id <;> rfl

@[simp] theorem withPendingBilling_consumerSide (records : List BillRecord) :
    consumerSide id (s.withRw { s.rw with pendingBilling := records }) = consumerSide id s := by
  cases id <;> rfl

@[simp] theorem rwNotice_consumerSide : consumerSide id (rwNotice s) = consumerSide id s := by
  cases id <;> rfl

@[simp] theorem btFetch_consumerSide (e addr : Nat) (origin : LoadOrigin) :
    consumerSide id (btFetch e addr origin s) = consumerSide id s := by
  simp [btFetch]

@[simp] theorem btLeaveClosing_consumerSide (e : Nat) : consumerSide id (btLeaveClosing e s) = consumerSide id s := by
  unfold btLeaveClosing btStateEvent
  dsimp only
  split <;> simp

@[simp] theorem rwBillingEvent_consumerSide (kind e ref word1 word2 word3 : Nat) :
    consumerSide id (rwBillingEvent kind e ref word1 word2 word3 s) = consumerSide id s :=
  raise_consumerSide ..

@[simp] theorem modEntry_consumerSide (e : Nat) (g : Entry → Entry) :
    consumerSide id (modEntry e g s) = consumerSide id s :=
  setEntry_consumerSide ..

/-- R191: where a final record finds its place, and what follows for its entry, is nothing to the consumer. -/
@[simp] theorem rwPlaceFinal_consumerSide (e : Nat) (r : BillRecord) :
    consumerSide id (rwPlaceFinal e r s) = consumerSide id s := by
  unfold rwPlaceFinal
  split
  · simp
  · split
    · rw [btLeaveClosing_consumerSide, rwBillingEvent_consumerSide, withPendingBilling_consumerSide,
        modEntry_consumerSide]
    · simp

@[simp] theorem rwPassQueue_consumerSide (n : Nat) : consumerSide id (rwPassQueue n s) = consumerSide id s := by
  induction n generalizing s with
  | zero => rfl
  | succ n ih =>
    unfold rwPassQueue
    split
    · rfl
    · split
      · rfl
      · simp [ih]

@[simp] theorem rwPassEntries_consumerSide (n : Nat) : consumerSide id (rwPassEntries n s) = consumerSide id s := by
  induction n generalizing s with
  | zero => rfl
  | succ n ih =>
    unfold rwPassEntries
    split
    · rfl
    · split
      · rfl
      · split
        · rfl
        · simp [ih]

/-- R193: the ring-ward moves fill places that the consumer has freed; they do not move the consumer. -/
@[simp] theorem rwRingward_consumerSide : consumerSide id (rwRingward s) = consumerSide id s := by
  simp [rwRingward]

end

/-! ### Consumer words -/

theorem RingIndexes.accepts_iff {size v : Nat} {x : RingIndexes} :
    x.accepts size v = true ↔ v < size ∧ modSub size v x.consumer ≤ modSub size x.published x.consumer := by
  simp [RingIndexes.accepts]

/-- R36, R37: an accepted value that is not the present one becomes the consumer index; what follows for the notice line and
the records that wait leaves it there. -/
theorem rwConsumerWrite_of_advance {id : RingId} {v : Nat} {s : State} (h : (s.ring id).accepts id.size v = true)
    (hv : v ≠ (s.ring id).consumer) :
    consumerSide id (rwConsumerWrite id v s) = (v, s.rw.badIndexWrites, s.lpu.forwarding) := by
  have written : consumerSide id (s.setRing id { s.ring id with consumer := v }) =
      (v, s.rw.badIndexWrites, s.lpu.forwarding) := by cases id <;> rfl
  simp only [rwConsumerWrite, h, hv, if_true, if_false]
  split_ifs <;> simp [written]

theorem rwConsumerWrite_of_present {id : RingId} {s : State} (h : (s.ring id).accepts id.size (s.ring id).consumer = true) :
    rwConsumerWrite id (s.ring id).consumer s = s := by
  simp [rwConsumerWrite, h]

theorem rwConsumerWrite_of_rejected {id : RingId} {v : Nat} {s : State} (h : (s.ring id).accepts id.size v = false) :
    rwConsumerWrite id v s =
      s.withRw { s.rw with badIndexWrites := min 4294967295 (s.rw.badIndexWrites + 1) } := by
  simp [rwConsumerWrite, h, satAdd, max32]

@[simp] theorem State.ring_passed (id : RingId) (r : Request) (s : State) : (s.passed r).ring id = s.ring id := by
  cases id <;> rfl

/-- R11, R36: a 4-byte write of the consumer word of ring `id` is passed, and the RW judges its value. -/
theorem exec_consumerIndexWrite_of_word {s : State} {r : Request} {id : RingId}
    (h : ∃ offset, ControlAt s offset r ∧
      (id = .result ∧ offset = 0x404 ∨ id = .event ∧ offset = 0x40C ∨ id = .billing ∧ offset = 0x414))
    (hkind : r.kind = .write) (hlen : r.len = 4) :
    exec (.consumerIndexWrite r) s = .next (rwConsumerWrite id (fromLE r.data) (s.passed r)) := by
  obtain ⟨offset, hctl, hword⟩ := h
  have hw : consumerWord offset = some id ∧ 0x400 ≤ offset := by
    rcases hword with ⟨rfl, rfl⟩ | ⟨rfl, rfl⟩ | ⟨rfl, rfl⟩ <;> exact ⟨rfl, by decide⟩
  rw [exec_consumerIndexWrite, hctl.lpuReceive_eq, lpuSnoop_of_consumerWord hkind hlen hw.1 hw.2]

/-- Settles O15: the three clauses are the three branches of the RW's judgement on the state with the write passed. -/
theorem consumerWriteIsJudged : Obligations.ConsumerWriteIsJudged := by
  intro s r id v hword hkind hlen hv size c onTheWay
  have hexec := exec_consumerIndexWrite_of_word hword hkind hlen
  rw [← hv] at hexec
  have haccepts : ((s.passed r).ring id).accepts id.size v = true ↔ onTheWay := by
    rw [State.ring_passed, RingIndexes.accepts_iff]
  refine ⟨fun hon hne => ?advance, fun hon heq => ?present, fun hoff => ?rejected⟩
  case advance =>
    have hside := rwConsumerWrite_of_advance (haccepts.2 hon) (by rwa [State.ring_passed])
    obtain ⟨hcons, hrest⟩ := Prod.mk.inj hside
    obtain ⟨hbad, hfwd⟩ := Prod.mk.inj hrest
    exact ⟨_, hexec, hcons, hbad, hfwd⟩
  case present =>
    have hpresent : v = ((s.passed r).ring id).consumer := by rwa [State.ring_passed]
    rw [hexec, hpresent, rwConsumerWrite_of_present (hpresent ▸ haccepts.2 hon)]
  case rejected =>
    rw [hexec, rwConsumerWrite_of_rejected (Bool.eq_false_iff.2 (mt haccepts.1 hoff))]
    rfl

/-! ### Responses to own writes -/

theorem exec_ownWriteResponse (tag : Nat) (resp : Response) (s : State) :
    exec (.ownWriteResponse tag resp) s = .next (rwWriteResponse tag resp s) := by rfl

theorem isOwnWrite_self {o : OwnRequest} (h : o.kind ≠ .descriptor) : (Issued.own o).isOwnWrite o.req.tag = true := by
  simp [Issued.isOwnWrite, h]

/-- Another own request is no own write under `tag`, and an upstream request is none either. -/
theorem isOwnWrite_of_tag_ne {tag : Nat} {y : Issued} (h : ∀ z, y = .own z → z.req.tag ≠ tag) :
    ¬ y.isOwnWrite tag = true := by
  cases y with
  | upstream x => simp [Issued.isOwnWrite]
  | own z => simp [Issued.isOwnWrite, h z rfl]

/-- R21: the answered write is the first own write under its tag among the requests that memory holds. -/
theorem eraseP_isOwnWrite {o : OwnRequest} {before after : List Issued} (hkind : o.kind ≠ .descriptor)
    (hfirst : ∀ y ∈ before, ∀ z, y = .own z → z.req.tag ≠ o.req.tag) :
    (before ++ .own o :: after).eraseP (Issued.isOwnWrite o.req.tag) = before ++ after := by
  rw [List.eraseP_append_right _ (fun y hy => isOwnWrite_of_tag_ne (hfirst y hy)),
    List.eraseP_cons_of_pos (isOwnWrite_self hkind)]

/-- Settles O21: the response finds the write, which leaves memory; an ERROR adds to the count. -/
theorem ownWriteErrorIsCounted : Obligations.OwnWriteErrorIsCounted := by
  intro s o before after resp hissued hkind hfirst t
  have hfound : s.lpu.issued.any (Issued.isOwnWrite o.req.tag) = true :=
    List.any_eq_true.2 ⟨.own o, by simp [hissued], isOwnWrite_self hkind⟩
  have hleft : lpuAnswered (Issued.isOwnWrite o.req.tag) s = t := by
    rw [lpuAnswered, hissued, eraseP_isOwnWrite hkind hfirst]
  rw [exec_ownWriteResponse, rwWriteResponse, if_pos hfound, hleft]
  cases resp <;> rfl

end Sys2Proof.Machine
end

section
/-! SUPPORT. The availability of a slot (R79), said once; then the statement about it. -/

namespace Sys2Proof.Machine

/-- The place after c lies the whole ring but one behind it. -/
theorem modSub_succ_mod {n c : Nat} (h : c < n) : modSub n c ((c + 1) % n) = n - 1 := by
  rw [modSub, Nat.mod_mod]
  obtain hin | hwraps : c + 1 < n ∨ c + 1 = n := by omega
  · have hdist : c + (n - (c + 1)) = n - 1 := by omega
    rw [Nat.mod_eq_of_lt hin, hdist, Nat.mod_eq_of_lt (by omega)]
  · rw [hwraps, Nat.mod_self, Nat.sub_zero, Nat.add_mod_right, Nat.mod_eq_of_lt h, ← hwraps, Nat.add_sub_cancel]

theorem State.available_of_feedRec {s : State} {f : Nat} {x : FeedRecord} (h : s.feedRec f = some x) (q : Nat) :
    s.available f q = true ↔
      1 ≤ x.complete ∧ modSub s.ringDepth x.lastSlot q ≤ min (x.complete - 1) (s.ringDepth - 2) := by
  simp [State.available, h]

theorem State.available_of_no_feedRec {s : State} {f : Nat} (h : s.feedRec f = none) (q : Nat) :
    s.available f q = false := by
  simp [State.available, h]

theorem State.available_iff (s : State) (f q : Nat) :
    s.available f q = true ↔ ∃ x, s.feedRec f = some x ∧ 1 ≤ x.complete ∧
      modSub s.ringDepth x.lastSlot q ≤ min (x.complete - 1) (s.ringDepth - 2) := by
  cases h : s.feedRec f with
  | none => simp [State.available_of_no_feedRec h]
  | some x => simpa using State.available_of_feedRec h q

/-- R79: slot c, at distance 0, is available as soon as one slot is complete. -/
theorem State.available_lastSlot {s : State} {f : Nat} {x : FeedRecord} (h : s.feedRec f = some x)
    (hc : x.lastSlot < s.ringDepth) (hK : 1 ≤ x.complete) : s.available f x.lastSlot = true := by
  rw [State.available_of_feedRec h, modSub_self _ hc]
  exact ⟨hK, Nat.zero_le _⟩

/-- R79: the slot after c, at distance N - 1, is past the limit of N - 2. -/
theorem State.not_available_after_lastSlot {s : State} {f : Nat} {x : FeedRecord} (h : s.feedRec f = some x)
    (hN : 2 ≤ s.ringDepth) (hc : x.lastSlot < s.ringDepth) :
    s.available f ((x.lastSlot + 1) % s.ringDepth) = false := by
  rw [Bool.eq_false_iff, ne_eq, State.available_of_feedRec h, modSub_succ_mod hc]
  omega

/-- Settles O28: R79's condition is the definition's, and its last sentences are the distances 0 and N - 1. -/
theorem slotAvailability : Obligations.SlotAvailability := by
  intro s f q
  refine ⟨s.available_iff f q, fun x hx hN hc => ⟨?last, ?after⟩⟩
  case last => exact State.available_lastSlot hx hc
  case after => exact State.not_available_after_lastSlot hx (by omega) hc

end Sys2Proof.Machine
end

section
/-! SUPPORT. What the acts of the RU, the DM, the FM and the LPU's read side are made of, said once: a property that the
single changes keep is kept by every act (Routing, Reading). Invariants and frames of later statements are such properties. -/

namespace Sys2Proof.Machine

/-- `y` is the booking `x` but for what deliveries and takes change: its counts, its rough flag, its arms and its selected
feed (R129, R138, R145, R163). -/
def Entry.Counted (x y : Entry) : Prop :=
  y = { x with
    selected := y.selected, armsLeft := y.armsLeft, takes := y.takes, failovers := y.failovers, slips := y.slips,
    rough := y.rough }

theorem Entry.Counted.refl (x : Entry) : x.Counted x := rfl

theorem Entry.Counted.trans {x y z : Entry} (h : x.Counted y) (g : y.Counted z) : x.Counted z := by
  unfold Entry.Counted at *
  rw [h] at g
  rw [g]

/-- `P` is kept by the changes that the acts of the RU, the DM and the FM are made of: events, the counts of bookings, the
routes and deliveries of the destinations `D`, and the records of the feeds `F`. -/
structure Routing (D F : Nat → Prop) (P : State → Prop) : Prop where
  raise : ∀ {cls : EventClass} {kind subject : Nat} {words : List Nat} {s : State}, P s → P (raise cls kind subject words s)
  route : ∀ {d : Nat} {x : Option Route} {s : State}, D d → P s → P (s.setRoute d x)
  delivery : ∀ {d : Nat} {x : Delivery} {s : State}, D d → P s → P (s.setDelivery d x)
  feed : ∀ {f : Nat} {x : Option FeedRecord} {s : State}, F f → P s → P (s.setFeedRec f x)
  counts : ∀ {e : Nat} {x : Entry} {s : State}, (s.entry e).Counted x → P s → P (s.setEntry e x)

/-- `P` is also kept by the changes of the window reads of the destinations `D`: latches, the forwarding queue, and the hold
list, which takes an entry for a destination that has none while fewer than 8 stand there (R158). -/
structure Reading (D F : Nat → Prop) (P : State → Prop) : Prop extends Routing D F P where
  latch : ∀ {d : Nat} {x : Option Latch} {s : State}, D d → P s → P (s.setLatch d x)
  forward : ∀ {y : Forward} {s : State}, P s → P (lpuForward y s)
  hold : ∀ {d f q slot : Nat} {r : Request} {s : State}, D d → s.hold d = none → s.lpu.holds.length < 8 → P s →
    P (lpuHold d f q slot r s)
  join : ∀ {d : Nat} {rs : List Request} {s : State}, D d → P s → P (holdJoin d rs s)
  free : ∀ {d : Nat} {s : State}, D d → P s → P (holdFree d s)

/-! ### The acts of the RU and the DM -/

namespace Routing

variable {D F : Nat → Prop} {P : State → Prop} (h : Routing D F P) {d : Nat} (hd : D d) {s : State} (hs : P s)
include h hs

theorem modEntry {e : Nat} {g : Entry → Entry} (hg : ∀ x : Entry, x.Counted (g x)) : P (modEntry e g s) :=
  h.counts (hg _) hs

theorem modFeed {f : Nat} (hf : F f) (g : FeedRecord → FeedRecord) : P (modFeed f g s) := by
  unfold Machine.modFeed
  split
  · exact hs
  · exact h.feed hf hs

theorem btCountSlip (d : Nat) : P (btCountSlip d s) := by
  unfold Machine.btCountSlip
  split
  · exact hs
  · exact h.modEntry hs fun _ => rfl

include hd

theorem modRoute (g : Route → Route) : P (modRoute d g s) := by
  unfold Machine.modRoute
  split
  · exact hs
  · exact h.route hd hs

theorem modDelivery (g : Delivery → Delivery) : P (modDelivery d g s) := h.delivery hd hs

theorem dmReclass : P (dmReclass d s) := h.modDelivery hd hs _

theorem dmImpair : P (dmImpair d s) := h.dmReclass hd (h.modDelivery hd hs _)

theorem dmClearImpairment : P (dmClearImpairment d s) := h.dmReclass hd (h.modDelivery hd hs _)

theorem dmImpairmentTick : P (dmImpairmentTick d s) := by
  have hs1 := h.modDelivery hd hs (fun x => { x with impairment := x.impairment - 1 })
  unfold Machine.dmImpairmentTick
  dsimp only
  split_ifs
  · exact h.dmReclass hd hs1
  · exact hs1
  · exact hs

theorem dmRepeatSlip (slot served cause : Nat) : P (dmRepeatSlip d slot served cause s) :=
  h.raise (h.dmImpair hd (h.btCountSlip (h.modDelivery hd hs _) d))

theorem dmDropSlip (slot served skipped : Nat) : P (dmDropSlip d slot served skipped s) :=
  h.raise (h.dmImpair hd (h.btCountSlip (h.modDelivery hd hs _) d))

theorem dmFreezeRepeat : P (dmFreezeRepeat d s) := h.modDelivery hd hs _

theorem dmLagAdjusted (kind phase : Nat) : P (dmLagAdjusted d kind phase s) :=
  h.raise (h.dmImpair hd (h.modDelivery hd hs _))

theorem dmReadError (slot : Nat) : P (dmReadError d slot s) := by
  unfold Machine.dmReadError
  split
  · exact hs
  · split
    · exact hs
    · exact h.raise (h.dmImpair hd (h.modDelivery hd hs _))

theorem dmAskLagRepeat : P (dmAskLagRepeat d s) := h.modRoute hd hs _

theorem dmAskLagReset : P (dmAskLagReset d s) := h.modRoute hd hs _

theorem dmPeriodEnd : P (dmPeriodEnd d s) := by
  unfold Machine.dmPeriodEnd
  dsimp only
  split_ifs
  · exact h.modDelivery hd (h.raise (h.dmAskLagRepeat hd (h.modDelivery hd hs _))) _
  · exact h.modDelivery hd hs _

theorem dmPeriodTest : P (dmPeriodTest d s) := by
  unfold Machine.dmPeriodTest
  split_ifs
  · exact h.dmPeriodEnd hd hs
  · exact hs

theorem dmMillisecond : P (dmMillisecond d s) := by
  unfold Machine.dmMillisecond
  split_ifs
  · exact h.dmPeriodTest hd (h.modDelivery hd (h.dmImpairmentTick hd hs) _)
  · exact hs

theorem dmSetLag (lag lagMax : Nat) (adapt : Bool) (limit : Nat) : P (dmSetLag lag lagMax adapt limit d s) := by
  have hs1 := h.modDelivery hd hs (fun x => { x with lag := lag, lagMax := lagMax, adapt := adapt, holdLimit := limit })
  unfold Machine.dmSetLag
  dsimp only
  split_ifs
  · exact h.dmAskLagReset hd hs1
  · exact hs1

theorem ruRequestTake (target : Nat) (reason : TakeReason) : P (ruRequestTake d target reason s) := by
  unfold Machine.ruRequestTake
  split
  · exact hs
  · split_ifs
    · exact h.raise (h.route hd hs)
    · exact h.raise (h.route hd hs)
    · exact hs

theorem ruRestore : P (ruRestore d s) := by
  unfold Machine.ruRestore
  split
  · split
    · split
      · exact h.ruRequestTake hd hs _ _
      · split_ifs
        · exact h.ruRequestTake hd hs _ _
        · exact hs
    · exact hs
  · exact hs

theorem ruFailoverTake (e target : Nat) : P (ruFailoverTake d e target s) :=
  h.modEntry (h.ruRequestTake hd hs _ _) fun _ => rfl

theorem ruDeferredFailover : P (ruDeferredFailover d s) := by
  unfold Machine.ruDeferredFailover
  split
  · split
    · split_ifs
      · exact h.ruFailoverTake hd hs _ _
      · exact hs
    · exact hs
  · exact hs

theorem ruFailover (f : Nat) : P (ruFailover d f s) := by
  unfold Machine.ruFailover
  split
  · split_ifs
    · split
      · exact hs
      · split_ifs
        · exact hs
        · exact h.ruFailoverTake hd (h.route hd hs) _ _
        · exact h.raise (h.route hd hs)
    · exact hs
  · exact hs

theorem ruRevertCheck : P (ruRevertCheck d s) := h.modRoute hd hs _

theorem ruFrozen (f : Nat) : P (ruFrozen d f s) := by
  unfold Machine.ruFrozen
  split
  · exact hs
  · exact h.dmReclass hd (h.raise (h.route hd hs))

theorem ruFreezeTest : P (ruFreezeTest d s) := by
  unfold Machine.ruFreezeTest
  split
  · exact hs
  · split
    · split_ifs
      · exact h.ruFrozen hd hs _
      · exact hs
    · exact hs

theorem ruFreezeStart : P (ruFreezeStart d s) := by
  unfold Machine.ruFreezeStart
  split
  · exact hs
  · split_ifs
    · exact h.ruFreezeTest hd (h.route hd hs)
    · exact hs

theorem ruFreezeStop : P (ruFreezeStop d s) := h.modRoute hd hs _

theorem ruTakeFailed : P (ruTakeFailed d s) := by
  unfold Machine.ruTakeFailed
  split
  · exact hs
  · split
    · exact hs
    · exact h.ruRestore hd (h.ruDeferredFailover hd (h.raise (h.route hd hs)))

theorem ruTakeTimeoutTest : P (ruTakeTimeoutTest d s) := by
  unfold Machine.ruTakeTimeoutTest
  split
  · exact hs
  · split
    · exact hs
    · split_ifs
      · split
        · exact h.route hd hs
        · exact h.ruTakeFailed hd hs
        · exact hs
      · exact hs

theorem ruRevertTest : P (ruRevertTest d s) := by
  unfold Machine.ruRevertTest
  split
  · split_ifs
    · exact h.ruRequestTake hd (h.route hd hs) _ _
    · exact hs
  · exact hs

theorem ruTakeCount : P (ruTakeCount d s) := h.modRoute hd hs _

theorem ruFreezeCount : P (ruFreezeCount d s) := h.modRoute hd hs _

theorem ruRevertCount : P (ruRevertCount d s) := h.modRoute hd hs _

theorem ruMillisecond : P (ruMillisecond d s) := by
  unfold Machine.ruMillisecond
  split_ifs
  · exact h.ruRevertTest hd (h.ruRevertCount hd (h.ruFreezeTest hd (h.ruFreezeCount hd
      (h.ruTakeTimeoutTest hd (h.ruTakeCount hd hs)))))
  · exact hs

theorem ruApply (slot p : Nat) (t : Take) (r : Route) : P (ruApply d slot p t r s) := by
  have impaired : ∀ u, P u → P (if t.rough then Machine.dmImpair d u else Machine.dmClearImpairment d u) := by
    intro u hu
    split
    · exact h.dmImpair hd hu
    · exact h.dmClearImpairment hd hu
  refine h.raise (impaired _ ?_)
  split
  · exact h.route hd hs
  · exact h.modEntry (h.route hd hs) fun _ => rfl

theorem ruTryTake (slot : Nat) : P (ruTryTake d slot s).1 := by
  unfold Machine.ruTryTake
  split
  · exact hs
  · split
    · exact hs
    · split
      · split_ifs
        · exact h.route hd hs
        · exact h.route hd hs
        · exact h.ruApply hd hs _ _ _ _
      · exact hs

theorem ruHealthTake (f : Nat) (was is : Bool) : P (ruHealthTake d f was is s) := h.modRoute hd hs _

theorem ruCompletion (f : Nat) : P (ruCompletion d f s) := h.modRoute hd hs _

theorem ruHealthCurrent (f : Nat) (was is : Bool) : P (ruHealthCurrent d f was is s) := by
  unfold Machine.ruHealthCurrent
  split_ifs
  · exact h.ruFailover hd (h.ruFreezeStart hd hs) f
  · exact h.ruFreezeStop hd hs
  · exact hs

theorem ruHealthTests (f : Nat) (was is current : Bool) : P (ruHealthTests d f was is current s) := by
  have hs1 : P (if (!was && is && (s.route d).any fun r => r.wanted == some f) = true then Machine.ruDeferredFailover d s
      else s) := by
    split_ifs
    · exact h.ruDeferredFailover hd hs
    · exact hs
  unfold Machine.ruHealthTests
  dsimp only
  generalize (if (!was && is && (s.route d).any fun r => r.wanted == some f) = true then Machine.ruDeferredFailover d s
    else s) = v at hs1 ⊢
  split
  · exact h.ruRestore hd hs1
  · exact hs1

theorem ruSelect (f : Nat) : P (ruSelect d f s) := by
  unfold Machine.ruSelect
  split
  · exact hs
  · exact h.ruRevertCheck hd (h.modEntry hs fun _ => rfl)

theorem ruCancelTake (new : Option Nat) : P (ruCancelTake d new s) := by
  unfold Machine.ruCancelTake
  split
  · exact hs
  · exact h.raise (h.modRoute hd hs _)

theorem ruNewHolder : P (ruNewHolder d s) := h.modRoute hd hs _

/-! ### The slot-start decision -/

theorem ruToSlate : P (ruToSlate d s) :=
  h.dmReclass hd (h.ruRevertCheck hd (h.ruRestore hd (h.modRoute hd hs _)))

theorem ruPhaseBack : P (ruPhaseBack d s) := h.modRoute hd hs _

theorem ruPhaseToLag (f slot : Nat) : P (ruPhaseToLag d f slot s) := h.modRoute hd hs _

theorem ruFreezeRepeat (f q : Nat) : P (ruFreezeRepeat d f q s).1 := h.dmFreezeRepeat hd (h.ruPhaseBack hd hs)

theorem ruRepeatSlip (slot f q cause : Nat) : P (ruRepeatSlip d slot f q cause s).1 :=
  h.dmRepeatSlip hd (h.ruPhaseBack hd hs) _ _ _

theorem ruDropSlip (slot f dist : Nat) : P (ruDropSlip d slot f dist s).1 :=
  h.dmDropSlip hd (h.ruPhaseToLag hd hs _ _) _ _ _

theorem ruApplyLag (slot f : Nat) : P (ruApplyLag d slot f s) := by
  unfold Machine.ruApplyLag
  split
  · exact hs
  · dsimp only
    split
    · exact h.dmLagAdjusted hd (h.ruPhaseBack hd (h.modRoute hd hs _)) _ _
    · exact h.dmLagAdjusted hd (h.ruPhaseToLag hd (h.modRoute hd hs _) _ _) _ _
    · exact hs

theorem ruByAvailability (slot f : Nat) : P (ruByAvailability d slot f s).1 := by
  unfold Machine.ruByAvailability
  dsimp only
  split_ifs
  · exact hs
  · exact h.ruDropSlip hd hs _ _ _
  · exact hs
  · exact h.dmFreezeRepeat hd (h.ruPhaseBack hd hs)

theorem ruServeCurrent (slot : Nat) : P (ruServeCurrent d slot s).1 := by
  unfold Machine.ruServeCurrent
  split
  · exact h.ruByAvailability hd (h.ruApplyLag hd hs _ _) _ _
  · exact hs

theorem ruDecide (slot : Nat) : P (ruDecide d slot s).1 := by
  unfold Machine.ruDecide
  split
  · exact hs
  · split_ifs
    · exact h.ruToSlate hd hs
    · have hs1 := h.ruTryTake hd hs slot
      split
      · rename_i ht; rwa [ht] at hs1
      · rename_i ht; rw [ht] at hs1; exact h.ruServeCurrent hd hs1 _

end Routing

/-- No slot-start decision touches the hold list. -/
theorem Routing.holds (l : List HoldEntry) : Routing (fun _ => True) (fun _ => True) (fun s => s.lpu.holds = l) where
  raise hs := by simpa using hs
  route _ hs := hs
  delivery _ hs := hs
  feed _ hs := hs
  counts _ hs := hs

theorem State.hold_congr {s t : State} (h : t.lpu.holds = s.lpu.holds) (d : Nat) : t.hold d = s.hold d := by
  simp [State.hold, h]

theorem ruDecide_holds (d slot : Nat) (s : State) : (ruDecide d slot s).1.lpu.holds = s.lpu.holds :=
  (Routing.holds _).ruDecide trivial rfl slot

/-- A read of a window that is not held leaves the hold list. -/
theorem lpuReadWindow_holds {d : Nat} {r : Request} {s t : State} (h : lpuReadWindow d r s = (t, false)) :
    t.lpu.holds = s.lpu.holds := by
  have hdec := ruDecide_holds d (windowSlot s d r) s
  unfold lpuReadWindow lpuSlotStart at h
  dsimp only at h
  split at h
  · split at h
    · rename_i hq
      rw [hq] at hdec
      simp only [Prod.mk.injEq, and_true] at h
      simpa [← h, State.setLatch] using hdec
    · rename_i hq
      rw [hq] at hdec
      split at h
      · simp at h
      · simp only [Prod.mk.injEq, and_true] at h
        simpa [← h, State.setLatch, ruRepeatSlip] using hdec
  · simp only [Prod.mk.injEq, and_true] at h
    simp [← h]

theorem hold_holdFree (d : Nat) (s : State) : (holdFree d s).hold d = none := by
  simp [holdFree, State.hold]

/-! ### Window reads, holds and the reports of the FM -/

namespace Reading

variable {D F : Nat → Prop} {P : State → Prop} (h : Reading D F P) {s : State}
include h

section
variable {d : Nat} (hd : D d) (hs : P s)
include hd hs

omit hd in
theorem lpuServe (r : Request) (x : Served) : P (lpuServe d r x s) := h.forward hs

theorem lpuSlotStart (hn : s.hold d = none) (r : Request) : P (lpuSlotStart d r s).1 := by
  have hdec := h.ruDecide hd hs (windowSlot s d r)
  have holds := ruDecide_holds d (windowSlot s d r) s
  unfold Machine.lpuSlotStart
  dsimp only
  split
  · rename_i hq
    rw [hq] at hdec
    exact h.lpuServe (h.latch hd hdec) _ _
  · rename_i hq
    rw [hq] at hdec holds
    split_ifs with hroom
    · exact h.hold hd ((State.hold_congr holds d).trans hn) hroom (h.latch hd hdec)
    · exact h.lpuServe (h.latch hd (h.ruRepeatSlip hd hdec _ _ _ _)) _ _

theorem lpuReadWindow (hn : s.hold d = none) (r : Request) : P (lpuReadWindow d r s).1 := by
  unfold Machine.lpuReadWindow
  dsimp only
  split_ifs
  · exact h.lpuSlotStart hd hs hn r
  · exact h.lpuServe hs _ _

omit hs in
theorem lpuAnswerJoined (rs : List Request) : ∀ {s : State}, P s → s.hold d = none → P (lpuAnswerJoined d rs s) := by
  induction rs with
  | nil => intro s hs _; exact hs
  | cons r rs ih =>
    intro s hs hn
    have hs1 := h.lpuReadWindow hd hs hn r
    unfold Machine.lpuAnswerJoined
    split
    · rename_i hq; rw [hq] at hs1; exact h.join hd hs1
    · rename_i hq
      rw [hq] at hs1
      exact ih hs1 ((State.hold_congr (lpuReadWindow_holds hq) d).trans hn)

theorem lpuHoldToSlate : P (lpuHoldToSlate d s) := by
  unfold Machine.lpuHoldToSlate
  split
  · exact hs
  · refine List.foldlRecOn (motive := P) _ _ (h.latch hd (h.free hd hs)) fun t ht r _ => ?_
    exact h.lpuServe ht _ _

end

theorem lpuEndHold {e : HoldEntry} (hd : D e.dest) (hs : P s) (x : Served) : P (lpuEndHold e x s) := by
  have hs1 : P ((holdFree e.dest s).setLatch e.dest (some ⟨e.slot, .decided x⟩)) := h.latch hd (h.free hd hs)
  unfold Machine.lpuEndHold
  dsimp only
  split
  · exact hs1
  · refine h.lpuAnswerJoined hd _ (h.lpuServe hs1 _ _) ?_
    rw [State.hold_congr (s := holdFree e.dest s) (by simp [State.setLatch]), hold_holdFree]

end Reading

/-- The hold list entry found for `d` is one of `d`. -/
theorem State.dest_of_hold {s : State} {d : Nat} {h : HoldEntry} (hh : s.hold d = some h) : h.dest = d := by
  simpa using List.find?_some hh

namespace Reading

variable {D F : Nat → Prop} {P : State → Prop} (h : Reading D F P) {s : State}
include h

section
variable {d : Nat} (hd : D d) (hs : P s)
include hd hs

theorem lpuHoldCompletion (f : Nat) : P (lpuHoldCompletion d f s) := by
  unfold Machine.lpuHoldCompletion
  split
  · exact hs
  · rename_i hh
    split_ifs
    · exact h.lpuEndHold (State.dest_of_hold hh ▸ hd) hs _
    · exact hs

theorem lpuHoldFreeze (f : Nat) : P (lpuHoldFreeze d f s) := by
  unfold Machine.lpuHoldFreeze
  split
  · exact hs
  · rename_i k hh
    split_ifs
    · exact h.lpuEndHold (State.dest_of_hold hh ▸ hd) (h.ruFreezeRepeat hd hs f k.ringSlot) _
    · exact hs

theorem lpuHoldExpire : P (lpuHoldExpire d s) := by
  unfold Machine.lpuHoldExpire
  split
  · exact hs
  · rename_i hh
    exact h.lpuEndHold (State.dest_of_hold hh ▸ hd) (h.ruRepeatSlip hd hs _ _ _ _) _

theorem ruHealthReport (f : Nat) (was is : Bool) : P (ruHealthReport f was is d s) := by
  have hs1 := h.ruHealthTake hd hs f was is
  have hs2 : P (if was && !is then Machine.lpuHoldFreeze d f (Machine.ruHealthTake d f was is s)
      else Machine.ruHealthTake d f was is s) := by
    split
    · exact h.lpuHoldFreeze hd hs1 f
    · exact hs1
  unfold Machine.ruHealthReport
  split
  · exact hs
  · dsimp only
    refine h.ruRevertCheck hd (h.ruHealthTests hd ?_ _ _ _ _)
    generalize (if was && !is then Machine.lpuHoldFreeze d f (Machine.ruHealthTake d f was is s)
      else Machine.ruHealthTake d f was is s) = s2 at hs2 ⊢
    split
    · exact h.ruHealthCurrent hd hs2 _ _ _
    · exact hs2

theorem ruSlotCompletion (f : Nat) : P (ruSlotCompletion f d s) :=
  h.lpuHoldCompletion hd (h.ruCompletion hd hs f) f

theorem gaNotice (new : Option Nat) (reason : TakeReason) : P (gaNotice d new reason s) := by
  have hs1 := h.ruNewHolder hd (h.ruCancelTake hd (h.lpuHoldToSlate hd hs) new)
  unfold Machine.gaNotice
  refine h.dmClearImpairment hd ?_
  split
  · exact hs1
  · exact h.ruRequestTake hd hs1 _ _

end

section
variable (hD : ∀ d, D d) (hs : P s)
include hD hs

theorem lpuAllHoldsToSlate : P (lpuAllHoldsToSlate s) :=
  List.foldlRecOn (motive := P) _ _ hs fun _ ht d _ => h.lpuHoldToSlate (hD d) ht

theorem dmReclassFeed (f : Nat) : P (dmReclassFeed f s) := by
  refine forAll_preserves (fun d t ht => ?_) _ hs
  split
  · exact h.dmReclass (hD d) ht
  · exact ht

theorem healthReport (f : Nat) (old new : Health) : P (healthReport f old new s) := by
  unfold Machine.healthReport
  refine h.dmReclassFeed hD ?_ f
  exact forAll_preserves (P := P) (fun d t (ht : P t) => h.ruHealthReport (hD d) ht f _ _) _ hs

theorem fmReport (f : Nat) (changes : List (Health × Health)) : P (fmReport f changes s) :=
  List.foldlRecOn (motive := P) _ _ hs fun _ ht _ _ => h.healthReport hD ht _ _ _

variable {f : Nat} (hf : F f)
include hf

omit hD in
theorem fmEnter (new : Health) (x : FeedRecord) : P (fmEnter f new x s) := by
  unfold Machine.fmEnter
  split
  · exact hs
  · exact h.raise (h.feed hf hs)

theorem fmChange (new : Health) (x : FeedRecord) : P (fmChange f new x s) := by
  unfold Machine.fmChange
  split
  · exact hs
  · exact h.healthReport hD (h.fmEnter hs hf _ _) _ _ _

omit hD in
theorem fmThresholds : P (fmThresholds f s).1 := by
  unfold Machine.fmThresholds
  split
  · exact hs
  · dsimp only
    split
    · split
      · split
        · exact h.fmEnter (h.fmEnter hs hf _ _) hf _ _
        · exact h.fmEnter hs hf _ _
      · exact hs
    · split
      · exact h.fmEnter hs hf _ _
      · split
        · exact h.fmEnter hs hf _ _
        · exact hs
    · exact hs

theorem fmScored (n : Nat) : P (fmScored f n s) := by
  unfold Machine.fmScored
  split
  · exact hs
  · dsimp only
    split
    · split
      · exact h.fmChange hD hs hf _ _
      · exact h.fmChange hD hs hf _ _
    · exact h.fmReport hD (h.fmThresholds (h.feed hf hs) hf) _ _

theorem fmTear : P (fmTear f s) := by
  unfold Machine.fmTear
  split
  · exact hs
  · split
    · exact h.fmScored hD (h.feed hf hs) hf _
    · exact hs

theorem fmHeaderWrite (w : Nat) (bytes : List Byte) : P (fmHeaderWrite f w bytes s) := by
  have hs1 := h.modFeed (h.fmTear hD hs hf) hf (FeedRecord.overwrite s.ringDepth w)
  unfold Machine.fmHeaderWrite
  dsimp only
  split
  · exact hs1
  · refine h.modFeed ?_ hf _
    split
    · exact h.fmScored hD (h.feed hf hs1) hf _
    · exact h.feed hf hs1

theorem fmPartialWrite (w : Nat) : P (fmPartialWrite f w s) :=
  h.modFeed (h.modFeed (h.fmTear hD hs hf) hf _) hf _

theorem fmHeaderlessCompletion (w : Nat) : P (fmHeaderlessCompletion f w s) := by
  unfold Machine.fmHeaderlessCompletion
  dsimp only
  split
  · exact hs
  · split
    · exact h.modFeed (h.feed hf hs) hf _
    · exact h.modFeed (h.modFeed (h.fmScored hD (h.feed hf hs) hf _) hf _) hf _

theorem fmTestSignal (x : Bool) : P (fmTestSignal f x s) := by
  unfold Machine.fmTestSignal
  split
  · exact hs
  · split
    · exact hs
    · exact h.dmReclassFeed hD (h.raise (h.feed hf hs)) _

omit hD in
theorem fmEvaluate (clean : Bool) : P (fmEvaluate f clean s).1 := by
  unfold Machine.fmEvaluate
  split
  · exact hs
  · split
    · exact hs
    · split
      · split
        · exact h.fmEnter hs hf _ _
        · exact hs
      · exact h.fmThresholds hs hf

theorem fmUnitCompletion (w : Nat) (head : UnitHead) (r : FeedRecord) : P (fmUnitCompletion f w head r s) := by
  unfold Machine.fmUnitCompletion
  dsimp only
  refine forAll_preserves (P := P) (fun d t (ht : P t) => h.ruSlotCompletion (hD d) ht f) _ ?_
  refine h.fmReport hD (h.fmEvaluate (h.modFeed (h.fmTestSignal hD (h.modFeed ?_ hf _) hf _) hf _) hf _) _ _
  split
  · exact h.fmEnter (h.feed hf hs) hf _ _
  · exact h.feed hf hs

theorem fmCompletion (w : Nat) : P (fmCompletion f w s) := by
  unfold Machine.fmCompletion
  split
  · exact hs
  · split
    · split
      · exact h.fmUnitCompletion hD hs hf _ _ _
      · exact h.fmHeaderlessCompletion hD hs hf _
    · exact h.fmHeaderlessCompletion hD hs hf _

theorem fmRetryTest : P (fmRetryTest f s) := by
  unfold Machine.fmRetryTest
  split
  · exact hs
  · dsimp only
    split
    · split
      · exact h.fmChange hD hs hf _ _
      · split
        · exact h.fmChange hD hs hf _ _
        · exact h.fmChange hD hs hf _ _
      · exact hs
    · exact hs

theorem fmLossTest : P (fmLossTest f s) := by
  unfold Machine.fmLossTest
  split
  · exact hs
  · split
    · split
      case h_5 => exact hs
      all_goals exact h.fmChange hD hs hf _ _
    · exact hs

theorem fmBarTest : P (fmBarTest f s) := by
  unfold Machine.fmBarTest
  split
  · exact hs
  · dsimp only
    split
    · exact h.fmChange hD hs hf _ _
    · exact hs

theorem fmMillisecond : P (fmMillisecond f s) := by
  have hs1 := h.fmRetryTest hD (h.modFeed hs hf FeedRecord.tick) hf
  unfold Machine.fmMillisecond
  split
  · exact hs
  · dsimp only
    split
    · exact hs1
    · exact h.fmBarTest hD (h.fmLossTest hD hs1 hf) hf

end

end Reading

end Sys2Proof.Machine
end

section
/-! SUPPORT. What the acts of the BT, the GA and the billing stages are made of, said once (Booking), and what a row of the
table is made of (Whole): a property that these changes keep is kept by every row. -/

namespace Sys2Proof.Machine

/-- `y` is the booking `x` but for its counts, meters, times and terms: the state, the resume state, the record and the
destination stand, and a time-stepped flag stays set. -/
def Entry.Aside (x y : Entry) : Prop :=
  y.state = x.state ∧ y.resume = x.resume ∧ y.record = x.record ∧ y.desc.dest = x.desc.dest ∧
  (x.timeStepped = true → y.timeStepped = true)

theorem Entry.Counted.aside {x y : Entry} (h : x.Counted y) : x.Aside y := by
  unfold Entry.Counted at h
  rw [h]
  exact ⟨rfl, rfl, rfl, rfl, id⟩

/-- `P` is kept by what a boundary or a limit does with bookings: requests, moves of holders, closings and CHECKPOINT records,
each in the state in which the BT does it, and changes that leave a booking's place in the GA and its record. -/
structure Firing (F : Nat → Prop) (P : State → Prop) : Prop extends Reading (fun _ => True) F P where
  aside : ∀ {e : Nat} {x : Entry} {s : State}, (s.entry e).Aside x → P s → P (s.setEntry e x)
  requestCount : ∀ {n : Nat} {s : State}, P s → P (s.withBt { s.bt with requestCount := n })
  request : ∀ {b : Nat} {s : State}, (s.entry b).state = .scheduled → P s → P (gaRequest b s)
  close : ∀ {e : Nat} {reason : CloseReason} {s : State}, (s.entry e).state.isOpen = true → P s →
    P (btClose e reason s)
  move : ∀ {e nt : Nat} {st : BookingState} {s : State}, (s.entry e).state.holds = true → st.holds = true → P s →
    P (s.setEntry e ((s.entry e).enter st nt))
  resume : ∀ {e : Nat} {s : State}, (s.entry e).state = .suspended → P s →
    P (s.setEntry e { s.entry e with resume := some .live })
  checkpoint : ∀ {e : Nat} {r : BillRecord} {s : State}, P s → P (rwPlaceCheckpoint e r s)

/-- `P` is also kept by the fetches and by the closings of Restart. -/
structure Booking (F : Nat → Prop) (P : State → Prop) : Prop extends Firing F P where
  closeAny : ∀ {e : Nat} {reason : CloseReason} {s : State}, P s → P (btClose e reason s)
  schedule : ∀ {e : Nat} {x : Descriptor} {s : State}, (s.entry e).state = .fetching → P s →
    P (s.setEntry e ((s.entry e).scheduled x))
  blank : ∀ {e : Nat} {s : State}, (s.entry e).state = .fetching → P s → P (s.setEntry e .blank)
  fetch : ∀ {e addr : Nat} {origin : LoadOrigin} {s : State}, (s.entry e).state = .empty → P s →
    P (btFetch e addr origin s)

@[simp] theorem entry_modEntry_self (e : Nat) (g : Entry → Entry) (s : State) :
    (modEntry e g s).entry e = g (s.entry e) := State.entry_setEntry_self ..

/-! ### The acts of the BT -/

namespace Firing

variable {F : Nat → Prop} {P : State → Prop} (h : Firing F P) {s : State} (hs : P s)
include h hs

theorem muAccrue (e : Nat) : P (muAccrue e s) := h.aside ⟨rfl, rfl, rfl, rfl, id⟩ hs

theorem btTimeStepped : P (btTimeStepped s) := by
  refine forAll_preserves (P := P) (fun e t ht => ?_) _ hs
  split
  · exact ht
  · exact h.aside ⟨rfl, rfl, rfl, rfl, fun _ => rfl⟩ ht

theorem btAsk {e : Nat} (he : (s.entry e).state = .scheduled) : P (btAsk e s) := by
  unfold Machine.btAsk
  refine h.request ?_ (h.aside ⟨rfl, rfl, rfl, rfl, id⟩ (h.requestCount hs))
  rw [entry_modEntry_self]
  exact he

theorem btMoveHolder {e : Nat} {st : BookingState} (he : (s.entry e).state.holds = true) (hst : st.holds = true) :
    P (btMoveHolder e st s) :=
  h.dmReclass trivial (h.raise (h.move he hst hs))

theorem btStart (e : Nat) : P (btStart e s) := by
  unfold Machine.btStart
  dsimp only
  split
  next he => exact h.btMoveHolder hs (by rw [he]; rfl) rfl
  next he =>
    split
    · exact h.resume he hs
    · exact hs
  · exact hs

theorem btHalf (e : Nat) : P (btHalf e s) := by
  unfold Machine.btHalf
  dsimp only
  split
  · exact h.checkpoint hs
  · exact hs

theorem btEnd (e : Nat) : P (btEnd e s) := by
  unfold Machine.btEnd
  dsimp only
  split
  next he =>
    split
    · exact h.btMoveHolder hs (by rw [he]; rfl) rfl
    · exact h.close (by rw [he]; rfl) hs
  next he => exact h.close (by rw [he]; rfl) hs
  next he => exact h.close (by rw [he]; rfl) hs
  · exact hs

theorem btFire (e i : Nat) : P (btFire e i s) := by
  have hs1 : P (modEntry e (fun x => { x with fired := i + 1 }) s) := h.aside ⟨rfl, rfl, rfl, rfl, id⟩ hs
  unfold Machine.btFire
  dsimp only
  split
  · split
    next he => exact h.btAsk hs1 he
    · exact hs1
  · exact h.btStart hs1 e
  · exact h.btHalf hs1 e
  · exact h.btEnd hs1 e

omit hs in
theorem btFireUpTo (sec e n : Nat) : ∀ {s : State}, P s → P (btFireUpTo sec e n s) := by
  induction n with
  | zero => intro s hs; exact hs
  | succ n ih =>
    intro s hs
    unfold Machine.btFireUpTo
    dsimp only
    split
    · exact ih (h.btFire hs _ _)
    · exact hs

theorem btReport (sec : Nat) : P (btReport sec s) := by
  unfold Machine.btReport
  exact forAll_preserves (P := P) (fun e t ht => h.btFireUpTo sec e _ ht) _ hs

theorem btLimitTest (e : Nat) (st : BookingState) : P (btLimitTest e st s) := by
  unfold Machine.btLimitTest
  split
  next hopen =>
    split
    · exact h.close hopen hs
    · exact hs
  · exact hs

theorem btLimits (taken : List (Nat × BookingState)) : P (btLimits taken s) :=
  List.foldlRecOn (motive := P) _ _ hs fun _ ht _ _ => h.btLimitTest ht _ _

end Firing

namespace Booking

variable {F : Nat → Prop} {P : State → Prop} (h : Booking F P) {s : State} (hs : P s)
include h hs

theorem btSchedule {e : Nat} (x : Descriptor) (he : (s.entry e).state = .fetching) : P (btSchedule e x s) :=
  h.btFireUpTo _ _ _ (h.raise (h.schedule he hs))

theorem btAdvance (e : Nat) : P (btAdvance e s) := by
  have hs1 : P (modEntry e (Entry.advanced s.tb.seconds) s) := h.aside ⟨rfl, rfl, rfl, rfl, id⟩ hs
  have hst : ((modEntry e (Entry.advanced s.tb.seconds) s).entry e).state = (s.entry e).state := by
    rw [entry_modEntry_self]; rfl
  unfold Machine.btAdvance
  refine h.btFireUpTo _ _ _ ?_
  split
  next he => exact h.btAsk hs1 (hst.trans he)
  next he => exact h.btMoveHolder hs1 (by rw [hst, he]; rfl) rfl
  · exact hs1

theorem btCommandClose (e : Nat) (endChain : Bool) (reason : CloseReason) : P (btCommandClose e endChain reason s).1 := by
  refine h.closeAny ?_
  split
  · exact h.aside ⟨rfl, rfl, rfl, rfl, id⟩ hs
  · exact hs

end Booking

/-! ### Properties that do not look at the places of bookings -/

/-- `P` is kept by every change of an entry that takes in no record, by the counts, holders and queues, and by the placement of
records. -/
structure Placing (F : Nat → Prop) (P : State → Prop) : Prop extends Reading (fun _ => True) F P where
  entry : ∀ {e : Nat} {x : Entry} {s : State}, x.record = none ∨ x.record = (s.entry e).record → P s → P (s.setEntry e x)
  bookingCounts : ∀ {n m : Nat} {s : State}, P s → P (s.withBt { s.bt with requestCount := n, closeCount := m })
  holder : ∀ {d : Nat} {x : Option Nat} {s : State}, P s → P (s.setHolder d x)
  queue : ∀ {d : Nat} {x : List Nat} {s : State}, P s → P (s.setGrantQueue d x)
  read : ∀ {addr len : Nat} {s : State}, P s → P (rwRequest .descriptor .read addr len [] s)
  place : ∀ {e : Nat} {r : BillRecord} {s : State}, P s → P (rwPlaceFinal e r s)
  placeCheckpoint : ∀ {e : Nat} {r : BillRecord} {s : State}, P s → P (rwPlaceCheckpoint e r s)

@[simp] theorem Entry.enter_record (x : Entry) (st : BookingState) (nt : Nat) : (x.enter st nt).record = x.record := by
  unfold Entry.enter; split <;> rfl

namespace Placing

variable {F : Nat → Prop} {P : State → Prop} (h : Placing F P) {s : State} (hs : P s)
include h hs

theorem gaJoin (d e : Nat) : P (gaJoin d e s) := h.queue hs

theorem btGranted (e : Nat) : P (btGranted e s) := h.raise (h.entry (.inr (Entry.enter_record ..)) hs)

theorem btQueued (e : Nat) : P (btQueued e s) := h.raise (h.entry (.inr rfl) hs)

theorem btSuspended (e : Nat) : P (btSuspended e s) := h.raise (h.entry (.inr rfl) hs)

theorem gaRequest (b : Nat) : P (gaRequest b s) := by
  unfold Machine.gaRequest
  dsimp only
  split
  · exact h.gaNotice trivial (h.raise (h.btGranted (h.holder hs) b)) _ _
  · split
    · exact h.gaNotice trivial (h.raise (h.btGranted (h.holder (h.btSuspended (h.gaJoin hs _ _) _)) b)) _ _
    · exact h.raise (h.btQueued (h.gaJoin hs _ _) b)

theorem gaRelease (d a : Nat) : P (gaRelease d a s) := by
  unfold Machine.gaRelease
  split
  · exact h.gaNotice trivial (h.raise (h.btGranted (h.holder (h.queue hs)) _)) _ _
  · exact h.gaNotice trivial (h.raise (h.holder hs)) _ _

theorem btLeaveGa (e : Nat) (old : BookingState) : P (btLeaveGa e old s) := by
  unfold Machine.btLeaveGa
  split
  · exact h.gaRelease hs _ _
  · split
    · exact h.queue hs
    · exact hs

theorem modEntry (e : Nat) {g : Entry → Entry} (hg : ∀ x, (g x).record = x.record) : P (modEntry e g s) :=
  h.entry (.inr (hg _)) hs

theorem btClose (e : Nat) (reason : CloseReason) : P (btClose e reason s) := by
  have hs1 : P (s.withBt { s.bt with closeCount := satAdd max64 s.bt.closeCount 1 }) :=
    h.bookingCounts (n := s.bt.requestCount) hs
  have hs2 := h.modEntry hs1 e (g := fun x =>
    { x with state := .closing, reason := reason, closeSeq := some (satAdd max64 s.bt.closeCount 1) }) fun _ => rfl
  exact h.place (h.raise (h.btLeaveGa hs2 e (s.entry e).state))

theorem btFetch (e addr : Nat) (origin : LoadOrigin) : P (btFetch e addr origin s) := h.read (h.entry (.inl rfl) hs)

omit hs in
theorem booking : Booking F P where
  toReading := h.toReading
  aside hx hs := h.entry (.inr hx.2.2.1) hs
  requestCount hs := h.bookingCounts hs
  request _ hs := h.gaRequest hs _
  close _ hs := h.btClose hs _ _
  closeAny hs := h.btClose hs _ _
  move _ _ hs := h.entry (.inr (Entry.enter_record ..)) hs
  resume _ hs := h.entry (.inr rfl) hs
  schedule _ hs := h.entry (.inl rfl) hs
  blank _ hs := h.entry (.inl rfl) hs
  fetch _ hs := h.btFetch hs _ _ _
  checkpoint hs := h.placeCheckpoint hs

end Placing

/-- `P` is kept by every change of an entry, by the counts, holders and queues, by the acceptance of records, and by a record
that joins a pending billing queue of fewer than 8. -/
structure Loose (F : Nat → Prop) (P : State → Prop) : Prop extends Reading (fun _ => True) F P where
  entry : ∀ {e : Nat} {x : Entry} {s : State}, P s → P (s.setEntry e x)
  bookingCounts : ∀ {n m : Nat} {s : State}, P s → P (s.withBt { s.bt with requestCount := n, closeCount := m })
  holder : ∀ {d : Nat} {x : Option Nat} {s : State}, P s → P (s.setHolder d x)
  queue : ∀ {d : Nat} {x : List Nat} {s : State}, P s → P (s.setGrantQueue d x)
  read : ∀ {addr len : Nat} {s : State}, P s → P (rwRequest .descriptor .read addr len [] s)
  accept : ∀ {bytes : List Byte} {s : State}, P s → P (rwAccept .billing bytes s)
  push : ∀ {r : BillRecord} {s : State}, s.rw.pendingBilling.length < 8 → P s →
    P (s.withRw { s.rw with pendingBilling := s.rw.pendingBilling ++ [r] })
  lost : ∀ {n : Nat} {s : State}, P s → P (s.withRw { s.rw with checkpointsLost := n })

namespace Loose

variable {F : Nat → Prop} {P : State → Prop} (h : Loose F P) {s : State} (hs : P s)
include h hs

theorem btFetch (e addr : Nat) (origin : LoadOrigin) : P (btFetch e addr origin s) := h.read (h.entry hs)

theorem btLeaveClosing (e : Nat) : P (btLeaveClosing e s) := by
  unfold Machine.btLeaveClosing
  dsimp only
  split
  · exact h.btFetch (h.raise (h.entry hs)) _ _ _
  · exact h.raise (h.entry hs)

theorem rwPlaceFinal (e : Nat) (r : BillRecord) : P (rwPlaceFinal e r s) := by
  unfold Machine.rwPlaceFinal
  split
  · exact h.btLeaveClosing (h.accept (h.entry hs)) e
  · split
    next hlen => exact h.btLeaveClosing (h.raise (h.push (s := modEntry e _ s) hlen (h.entry hs))) e
    · exact h.raise (h.entry hs)

theorem rwPlaceCheckpoint (e : Nat) (r : BillRecord) : P (rwPlaceCheckpoint e r s) := by
  unfold Machine.rwPlaceCheckpoint
  split
  · exact h.accept hs
  · split
    next hlen => exact h.push hlen hs
    · exact h.raise (h.lost hs)

omit hs in
theorem placing : Placing F P where
  toReading := h.toReading
  entry _ hs := h.entry hs
  bookingCounts hs := h.bookingCounts hs
  holder hs := h.holder hs
  queue hs := h.queue hs
  read hs := h.read hs
  place hs := h.rwPlaceFinal hs _ _
  placeCheckpoint hs := h.rwPlaceCheckpoint hs _ _

end Loose

end Sys2Proof.Machine
end

section
/-! SUPPORT. What every row of the table is made of, said once (Whole): a property that the single changes keep is kept by every
row. The statement that every row completes is the first of them. -/

namespace Sys2Proof.Machine

/-- The LPU `y` holds no more requests than `x` or than its queues take (R10, R19), the same hold list, and the ring depth of
`x` or a legal one (R6). -/
def Lpu.Within (x y : Lpu) : Prop :=
  (y.forwarding.length ≤ x.forwarding.length ∨ y.forwarding.length ≤ 32) ∧
  (y.ownQueue.length ≤ x.ownQueue.length ∨ y.ownQueue.length ≤ 16) ∧ y.holds = x.holds ∧
  (y.depth = x.depth ∨ y.depth.all (fun n => [64, 128, 256, 512, 1024].contains n))

theorem Lpu.Within.of_eq {x y : Lpu} (hf : y.forwarding = x.forwarding) (ho : y.ownQueue = x.ownQueue)
    (hh : y.holds = x.holds) (hd : y.depth = x.depth) : x.Within y :=
  ⟨.inl (by rw [hf]), .inl (by rw [ho]), hh, .inl hd⟩

/-- The Record Writer `y` has the billing records that wait, and the places of the billing ring, as `x` has them. -/
def Rw.SameBilling (x y : Rw) : Prop :=
  y.pendingBilling = x.pendingBilling ∧ y.billing.producer = x.billing.producer ∧ y.billing.consumer = x.billing.consumer

/-- `P` is kept by every change that a row of the table is made of. -/
structure Whole (P : State → Prop) : Prop extends Booking (fun _ => True) P where
  tb : ∀ {x : Tb} {s : State}, P s → P (s.withTb x)
  cu : ∀ {x : Cu} {s : State}, P s → P (s.withCu x)
  fm : ∀ {x : Fm} {s : State}, P s → P (s.withFm x)
  ru : ∀ {x : Ru} {s : State}, P s → P (s.withRu x)
  mu : ∀ {x : Mu} {s : State}, P s → P (s.withMu x)
  ga : ∀ {s : State}, P s → P (s.withGa .afterReset)
  rw : ∀ {x : Rw} {s : State}, s.rw.SameBilling x → P s → P (s.withRw x)
  lpu : ∀ {x : Lpu} {s : State}, s.lpu.Within x → P s → P (s.withLpu x)
  age : ∀ {us : Nat} {s : State}, P s → P (holdsAge us s)
  result : ∀ {bytes : List Byte} {s : State}, P s → P (rwAccept .result bytes s)
  ringward : ∀ {v : Nat} {s : State}, P s →
    P (rwRingward (rwNotice (s.setRing .billing { s.ring .billing with consumer := v })))
  powerOn : ∀ {base : BitVec 20} {init : Initiator} {s : State}, P s → P (powerOnReset base init s)
  assertion : ∀ {s : State}, P s → P (resetAssertion s)

namespace Whole

variable {P : State → Prop} (h : Whole P) {s : State} (hs : P s)
include h hs

/-! ### Commands of the Command Unit -/

theorem cuFinish (n : Nat) (data : List Byte) (r : Reply) : P (cuFinish n data r s) := h.cu (h.cu (h.result hs))

theorem runCommand (code : Nat) {owner : (Nat → Nat) → State → State × Reply}
    (ho : ∀ p {s : State}, P s → P (owner p s).1) : P (runCommand code owner s) := by
  unfold Machine.runCommand
  split
  · exact hs
  · split
    · exact h.cuFinish (ho _ (h.cu hs)) _ _ _
    · exact hs

theorem runLongCommand (code : Nat) {owner : (Nat → Nat) → State → State × (Reply ⊕ Job)}
    (ho : ∀ p {s : State}, P s → P (owner p s).1) : P (runLongCommand code owner s) := by
  unfold Machine.runLongCommand
  split
  · exact hs
  next n data rest _ =>
    have hs1 := ho (commandParam data) (h.cu (x := { s.cu with queue := rest }) hs)
    split
    · split
      next hq => rw [hq] at hs1; exact h.cuFinish hs1 _ _ _
      next hq => rw [hq] at hs1; exact h.cu hs1
    · exact hs

theorem cuBadCommand : P (cuBadCommand s) := by
  unfold Machine.cuBadCommand
  split
  · exact hs
  · split
    · exact hs
    · exact h.cuFinish (h.cu hs) _ _ _

theorem cuBusyHandover : P (cuBusyHandover s) := by
  unfold Machine.cuBusyHandover
  generalize (if s.cu.executing.isSome then 1 else 0) = reserved
  split
  · exact hs
  · split
    · exact h.result (h.cu hs)
    · exact hs

theorem cuSlotWrite (n : Nat) (full : Bool) (data : List Byte) : P (cuSlotWrite n full data s) := by
  unfold Machine.cuSlotWrite
  split
  · exact h.cu hs
  · split
    · exact h.cu (h.cu hs)
    · split
      · exact h.cu hs
      · exact h.cu hs

/-! ### The link path -/

theorem setForeignWrites (f n : Nat) : P (s.setForeignWrites f n) := h.lpu (.of_eq rfl rfl rfl rfl) hs

theorem lpuAnswer (r : Request) (resp : Response) : P (lpuAnswer r resp s) := h.lpu (.of_eq rfl rfl rfl rfl) hs

theorem setRing_event_or_result {id : RingId} (hid : id ≠ .billing) (x : RingIndexes) : P (s.setRing id x) := by
  cases id
  · exact h.rw ⟨rfl, rfl, rfl⟩ hs
  · exact h.rw ⟨rfl, rfl, rfl⟩ hs
  · exact absurd rfl hid

theorem rwNotice : P (rwNotice s) := h.rw ⟨rfl, rfl, rfl⟩ hs

theorem rwConsumerWrite (id : RingId) (v : Nat) : P (rwConsumerWrite id v s) := by
  unfold Machine.rwConsumerWrite
  dsimp only
  split
  · split
    · exact hs
    · split
      next hid => subst hid; exact h.ringward hs
      next hid => exact h.rwNotice (h.setRing_event_or_result hs hid _)
  · exact h.rw ⟨rfl, rfl, rfl⟩ hs

theorem lpuSnoop (offset : Nat) (r : Request) : P (lpuSnoop offset r s) := by
  unfold Machine.lpuSnoop
  split
  · exact hs
  · split
    · exact h.cuSlotWrite hs _ _ _
    · split
      · split
        · exact h.rwConsumerWrite hs _ _
        · exact hs
      · exact hs

theorem lpuObserve (f offset : Nat) (r : Request) : P (lpuObserve f offset r s) := by
  unfold Machine.lpuObserve
  dsimp only
  split
  · split
    · exact h.fmHeaderWrite (fun _ => trivial) hs trivial _ _
    · exact h.fmPartialWrite (fun _ => trivial) hs trivial _
  · split
    · exact h.fmCompletion (fun _ => trivial) hs trivial _
    · exact hs

theorem lpuPass (r : Request) : P (lpuPass r s) := h.forward hs

theorem lpuUnauthorisedRead (kind subject : Nat) (r : Request) : P (lpuUnauthorisedRead kind subject r s) :=
  h.raise (h.lpu (.of_eq rfl rfl rfl rfl) (h.lpuAnswer hs _ _))

theorem lpuRing (f offset : Nat) (r : Request) : P (lpuRing f offset r s) := by
  unfold Machine.lpuRing
  split
  · split
    · exact h.lpuObserve (h.lpuPass hs r) _ _ _
    · exact h.raise (h.setForeignWrites (h.lpuAnswer hs _ _) _ _)
  · split
    · exact h.lpuPass hs r
    · exact h.lpuUnauthorisedRead hs _ _ _

theorem lpuWindow (d : Nat) (r : Request) : P (lpuWindow d r s) := by
  unfold Machine.lpuWindow
  split
  · exact h.raise (h.lpu (.of_eq rfl rfl rfl rfl) (h.lpuAnswer hs _ _))
  · split
    · split
      · exact h.join trivial hs
      next hn => exact h.lpuReadWindow trivial hs (by simpa using hn) r
    · exact h.lpuUnauthorisedRead hs _ _ _

theorem lpuReceive (r : Request) : P (lpuReceive r s) := by
  unfold Machine.lpuReceive
  split
  · rw [lpuTreat_eq]
    dsimp only
    split
    · exact h.lpuSnoop (h.lpuPass hs r) _ _
    · exact h.lpuRing hs _ _ _
    · exact h.lpuWindow hs _ _
    · exact h.lpuPass hs r
  · exact hs

theorem lpuGrantOwn {o : OwnRequest} {rest : List OwnRequest} (ho : s.lpu.ownQueue = o :: rest) :
    P (lpuGrantOwn o rest s) := by
  have hs1 : P (s.withLpu { s.lpu with ownQueue := rest, waitingCount := 0, issued := s.lpu.issued ++ [.own o] }) :=
    h.lpu ⟨.inl le_rfl, .inl (by simp [ho]), rfl, .inl rfl⟩ hs
  unfold Machine.lpuGrantOwn
  dsimp only
  split
  next id index _ =>
    refine h.rwNotice ?_
    cases id
    · exact h.rw ⟨rfl, rfl, rfl⟩ hs1
    · exact h.rw ⟨rfl, rfl, rfl⟩ hs1
    · exact h.rw ⟨rfl, rfl, rfl⟩ hs1
  · exact hs1

theorem lpuRefill : P (lpuRefill s) := by
  unfold Machine.lpuRefill
  split
  · exact hs
  · split
    next hroom => exact h.lpu ⟨.inr (by simp; omega), .inl le_rfl, rfl, .inl rfl⟩ hs
    · exact hs

theorem lpuGrantPass {x : Forward} {rest : List Forward} (hf : s.lpu.forwarding = x :: rest) :
    P (lpuGrantPass x rest s) :=
  h.lpuRefill (h.lpu ⟨.inl (by simp [hf]), .inl le_rfl, rfl, .inl rfl⟩ hs)

theorem lpuGrant : P (lpuGrant s) := by
  unfold Machine.lpuGrant
  split
  · exact hs
  · split
    · exact hs
    next hf => exact h.lpuGrantPass hs hf
    next ho _ => exact h.lpuGrantOwn hs ho
    next ho hf =>
      split
      · exact h.lpuGrantOwn hs ho
      · exact h.lpuGrantPass hs hf

theorem rwSubmitWaiting : P (rwSubmitWaiting s) := by
  unfold Machine.rwSubmitWaiting
  split
  · exact hs
  · split
    next hroom =>
      refine h.lpu (s := s.withRw _) ⟨.inl le_rfl, .inr (by simp; omega), rfl, .inl rfl⟩ (h.rw ⟨rfl, rfl, rfl⟩ hs)
    · exact hs

theorem lpuAnswered (p : Issued → Bool) : P (lpuAnswered p s) := h.lpu (.of_eq rfl rfl rfl rfl) hs

theorem lpuReturn (i : Initiator) (tag : Nat) (resp : Response) : P (lpuReturn i tag resp s) :=
  h.lpu (.of_eq rfl rfl rfl rfl) hs

theorem lpuPassedResponse (i : Initiator) (tag : Nat) (resp : Response) : P (lpuPassedResponse i tag resp s) := by
  unfold Machine.lpuPassedResponse
  split
  · exact h.lpuReturn (h.lpuAnswered hs _) _ _ _
  · exact hs

theorem lpuWindowResponse (i : Initiator) (tag : Nat) (resp : Response) : P (lpuWindowResponse i tag resp s) := by
  have hs1 := h.lpuReturn (h.lpuAnswered hs (Issued.isUpstream true i tag)) i tag resp
  unfold Machine.lpuWindowResponse
  split
  · dsimp only
    split
    · exact h.dmReadError trivial hs1 _
    · exact hs1
  · exact hs

theorem rwWriteResponse (tag : Nat) (resp : Response) : P (rwWriteResponse tag resp s) := by
  have hs1 := h.lpuAnswered hs (Issued.isOwnWrite tag)
  unfold Machine.rwWriteResponse
  split
  · dsimp only
    split
    · exact h.rw ⟨rfl, rfl, rfl⟩ hs1
    · exact hs1
  · exact hs

/-! ### Fetches -/

omit h hs in
theorem fetchingEntry_state {tag e : Nat} {s : State} (he : fetchingEntry s tag = some e) :
    (s.entry e).state = .fetching := by
  have := List.find?_some he
  simp only [Bool.and_eq_true, beq_iff_eq] at this
  exact this.1

theorem cuFinishExecuting (r : Reply) : P (cuFinishExecuting r s) := by
  unfold Machine.cuFinishExecuting
  split
  · exact hs
  · exact h.cuFinish hs _ _ _

theorem btFetchFailed {e : Nat} (he : (s.entry e).state = .fetching) (kind detail : Nat) (r : Reply) :
    P (btFetchFailed e kind detail r s) := by
  unfold Machine.btFetchFailed
  dsimp only
  split
  · exact h.cuFinishExecuting (h.blank he hs) _
  · exact h.raise (h.blank he hs)

theorem btFetchEnds {e : Nat} (he : (s.entry e).state = .fetching) (resp : Response) : P (btFetchEnds e resp s) := by
  unfold Machine.btFetchEnds
  dsimp only
  split
  · exact h.btFetchFailed hs he _ _ _
  · split
    · exact h.btFetchFailed hs he _ _ _
    · exact h.btFetchFailed hs he _ _ _
    · split
      · exact h.cuFinishExecuting (h.btSchedule hs _ he) _
      · exact h.btSchedule hs _ he

theorem btDescriptorResponse (tag : Nat) (resp : Response) : P (btDescriptorResponse tag resp s) := by
  have hs1 : ∀ l, P (s.withLpu { s.lpu with issued := l }) := fun l => h.lpu (.of_eq rfl rfl rfl rfl) hs
  unfold Machine.btDescriptorResponse
  dsimp only
  split
  · split
    · exact hs1 _
    next he => exact h.btFetchEnds (hs1 _) (Whole.fetchingEntry_state he) _
  · exact hs

/-! ### The passing of time -/

theorem tbSetState (new : RefState) : P (tbSetState new s) := by
  unfold Machine.tbSetState
  dsimp only
  split
  · exact hs
  · exact h.raise (h.tb hs)

theorem tbDeadlinePassed (at_ : Nat) : P (tbDeadlinePassed at_ s) := by
  unfold Machine.tbDeadlinePassed
  split
  · exact h.tb hs
  · split
    · exact h.tbSetState (h.tb hs) _
    · exact h.tb hs
  · exact hs

theorem moveTo (pos : Nat) : P (moveTo pos s) := h.tb (h.age hs)

omit hs in
theorem passTime (pos n : Nat) : ∀ {s : State}, P s → P (passTime pos n s) := by
  induction n with
  | zero => intro s hs; exact hs
  | succ n ih =>
    intro s hs
    unfold Machine.passTime
    split
    · exact hs
    next x _ =>
      split
      · refine ih ?_
        cases x with
        | deadline a => exact h.tbDeadlinePassed (h.moveTo hs _) a
        | hold d => exact h.lpuHoldExpire trivial (h.moveTo hs _)
      · exact hs

theorem timeTo (pos : Nat) : P (timeTo pos s) := h.moveTo (h.passTime _ _ hs) _

theorem tbReport : P (tbReport s) := by
  unfold Machine.tbReport
  dsimp only
  split
  · exact h.tb (List.foldlRecOn (motive := P) _ _ hs fun _ ht _ _ => h.btReport ht _)
  · exact hs

theorem millisecondEvent : P (millisecondEvent s) := by
  unfold Machine.millisecondEvent
  dsimp only
  refine h.tbReport (h.btLimits ?_ _)
  refine forAll_preserves (P := P) (fun f t ht => h.fmMillisecond (fun _ => trivial) ht trivial) _ ?_
  refine forAll_preserves (P := P) (fun d t ht => h.ruMillisecond trivial ht) _ ?_
  refine forAll_preserves (P := P) (fun d t ht => h.dmMillisecond trivial ht) _ ?_
  exact forAll_preserves (P := P) (fun e t ht => h.muAccrue ht e) _ (h.tb hs)

theorem tbMillisecond : P (tbMillisecond s) := h.millisecondEvent (h.tb (h.timeTo hs _))

theorem tbInterval (due : State → Bool) : P (tbInterval due s) := by
  unfold Machine.tbInterval
  split
  · exact h.tbMillisecond hs
  · exact hs

theorem tbMarkDeadline : P (tbMarkDeadline s) := by
  unfold Machine.tbMarkDeadline
  split
  · exact hs
  · split
    · dsimp only
      split
      · exact h.timeTo hs _
      · exact h.tbDeadlinePassed (h.timeTo hs _) _
    · exact hs

theorem tbHoldExpiry (d : Nat) : P (tbHoldExpiry d s) := by
  unfold Machine.tbHoldExpiry
  split
  · exact hs
  · split
    · exact h.lpuHoldExpire trivial (h.timeTo hs _)
    · exact hs

theorem tbRephase : P (tbRephase s) := by
  unfold Machine.tbRephase
  dsimp only
  split
  · exact h.millisecondEvent (h.tb hs)
  · exact h.tb hs

omit h in
theorem unlessReset {t : State} (ht : P t) : P (if s.lpu.resetAsserted then s else t) := by
  split
  · exact hs
  · exact ht

theorem tbAlignedOnce : P (tbAlignedOnce s) := by
  unfold Machine.tbAlignedOnce
  split
  · exact h.tb hs
  · exact hs

theorem tbAccept (e : Int) (near : Nat) : P (tbAccept e near s).1 := by
  have hs1 : P (tbSetNT near (Machine.tbRephase s)) := h.tb (h.tbRephase hs)
  unfold Machine.tbAccept
  split
  · dsimp only
    exact h.tbAlignedOnce (h.btTimeStepped (h.raise (h.tb (h.tb (h.tbRephase hs)))))
  · split
    · dsimp only
      refine h.tbAlignedOnce ?_
      split
      · exact hs1
      · exact h.raise hs1
    · exact hs

theorem tbAcquiring (e : Int) (near : Nat) : P (tbAcquiring e near s) := by
  have hs1 := h.tbAccept hs e near
  unfold Machine.tbAcquiring
  dsimp only
  split
  · split
    · exact h.tb hs1
    · exact h.tb hs1
  · split
    · split
      · exact h.tbSetState (h.tb (h.tb hs1)) _
      · exact h.tb hs1
    · exact h.tb hs

theorem tbToAcquiring (e : Int) (near : Nat) : P (tbToAcquiring e near s) := by
  unfold Machine.tbToAcquiring
  exact h.tbAcquiring (h.tb (h.tbSetState hs _)) _ _

theorem tbTreat (e : Int) (near : Nat) : P (tbTreat e near s) := by
  unfold Machine.tbTreat
  dsimp only
  split
  · exact h.tbToAcquiring hs _ _
  · exact h.tbAcquiring hs _ _
  · split
    · exact h.tb (h.tbAccept hs _ _)
    · exact h.raise (h.tb hs)
  · split
    · exact h.tbToAcquiring hs _ _
    · exact h.tb hs

theorem tbMark : P (tbMark s) := by
  unfold Machine.tbMark
  dsimp only
  split
  · exact h.tb hs
  · exact h.tbReport (h.tbTreat (h.tb (h.tb hs)) _ _)

/-! ### Commands of the TB -/

theorem tbCancelStaged : P (tbCancelStaged s) := by
  unfold Machine.tbCancelStaged
  split
  · exact hs
  · exact h.raise (h.tb hs)

theorem tbEnterMode (m : RefMode) : P (tbEnterMode m s) := by
  unfold Machine.tbEnterMode
  split
  · exact h.tbCancelStaged (h.tb (h.tbSetState hs _))
  · dsimp only
    split
    · exact h.tb hs
    · exact h.tb (h.tbSetState hs _)
  · exact hs

theorem tbModeCommand (p : Nat → Nat) : P (tbModeCommand p s).1 := by
  unfold Machine.tbModeCommand
  split
  · exact hs
  · exact h.tbEnterMode (h.tb hs) _

theorem tbApplyTime (sec : Nat) : P (tbApplyTime sec s) := h.tbReport (h.btTimeStepped (h.tb (h.tb hs)))

theorem tbTimeCommand (p : Nat → Nat) : P (tbTimeCommand p s).1 := by
  unfold Machine.tbTimeCommand
  dsimp only
  split
  · exact hs
  · split
    · dsimp only
      exact h.tbApplyTime hs _
    · exact h.tb hs

omit h in
theorem tbReportCommand (p : Nat → Nat) : P (tbReportCommand p s).1 := by
  unfold Machine.tbReportCommand
  dsimp only
  split <;> exact hs

/-! ### Commands of the FM, the RU, the DM and the MU -/

theorem setFeedParams (f : Nat) (x : FeedParams) : P (s.setFeedParams f x) := h.fm hs

theorem fmSetParamsCommand (p : Nat → Nat) : P (fmSetParamsCommand p s).1 := by
  unfold Machine.fmSetParamsCommand
  dsimp only
  split
  · exact hs
  · split
    · exact hs
    · dsimp only
      split
      · exact forAll_preserves (P := P) (fun f t ht => h.setFeedParams ht f _) _ hs
      · exact h.setFeedParams hs _ _

theorem fmClearCommand (p : Nat → Nat) : P (fmClearCommand p s).1 := by
  unfold Machine.fmClearCommand
  split
  · exact hs
  · split
    · exact hs
    · split
      · exact hs
      · dsimp only
        split
        · exact h.fmChange (fun _ => trivial) (h.setForeignWrites (h.feed trivial hs) _ _) trivial _ _
        · exact h.setForeignWrites (h.feed trivial hs) _ _

omit h in
theorem fmReportCommand (p : Nat → Nat) : P (fmReportCommand p s).1 := by
  unfold Machine.fmReportCommand
  dsimp only
  split
  · exact hs
  · split
    · exact hs
    · split
      · exact hs
      · split <;> exact hs

theorem ruTakeCommand (p : Nat → Nat) : P (ruTakeCommand p s).1 := by
  unfold Machine.ruTakeCommand
  split
  · exact hs
  · split
    · exact hs
    · split
      · exact h.ruRequestTake trivial (h.ruSelect trivial hs _) _ _
      · exact hs

theorem ruCueCommand (p : Nat → Nat) : P (ruCueCommand p s).1 := by
  unfold Machine.ruCueCommand
  split
  · exact hs
  · split
    · exact hs
    · split
      · exact h.ruRequestTake trivial hs _ _
      · exact hs

theorem ruConfirmCommand (p : Nat → Nat) : P (ruConfirmCommand p s).1 := by
  unfold Machine.ruConfirmCommand
  split
  · exact hs
  · split
    · exact hs
    · split
      · exact hs
      · exact h.ruSelect trivial (h.route trivial hs) _

theorem ruUncueCommand (p : Nat → Nat) : P (ruUncueCommand p s).1 := by
  unfold Machine.ruUncueCommand
  split
  · exact hs
  · split
    · exact hs
    · split
      · exact hs
      · exact h.ruRestore trivial (h.ruDeferredFailover trivial (h.raise (h.route trivial hs)))

theorem setDestParams (d : Nat) (x : DestParams) : P (s.setDestParams d x) := h.ru hs

theorem ruSetParamsCommand (p : Nat → Nat) : P (ruSetParamsCommand p s).1 := by
  unfold Machine.ruSetParamsCommand
  split
  · exact hs
  · dsimp only
    split
    · exact forAll_preserves (P := P) (fun d t ht => h.setDestParams ht d _) _ hs
    · exact h.setDestParams hs _ _

theorem dmSetLagCommand (p : Nat → Nat) : P (dmSetLagCommand p s).1 := by
  unfold Machine.dmSetLagCommand
  split
  · exact hs
  · dsimp only
    split
    · exact forAll_preserves (P := P) (fun d t ht => h.dmSetLag trivial ht _ _ _ _) _ hs
    · exact h.dmSetLag trivial hs _ _ _ _

theorem muLoadCommand (p : Nat → Nat) : P (muLoadCommand p s).1 := by
  unfold Machine.muLoadCommand
  split
  · exact hs
  · split
    · exact hs
    · exact h.mu hs

omit h in
theorem gaReportCommand (p : Nat → Nat) : P (gaReportCommand p s).1 := by
  unfold Machine.gaReportCommand
  split
  · exact hs
  · split
    · exact hs
    · split
      · exact hs
      · split <;> exact hs

/-! ### Booking commands -/

omit h hs in
theorem emptyEntry_state {e : Nat} {s : State} (he : emptyEntry s = some e) : (s.entry e).state = .empty := by
  simpa using List.find?_some he

theorem btLoadCommand (p : Nat → Nat) : P (btLoadCommand p s).1 := by
  unfold Machine.btLoadCommand
  split
  · exact hs
  · split
    · exact hs
    · split
      · exact hs
      next he => exact h.fetch (Whole.emptyEntry_state he) hs

omit h in
theorem withBooking {p : Nat → Nat} {act : Nat → State → State × Reply} (ha : ∀ e, P (act e s).1) :
    P (withBooking p act s).1 := by
  unfold Machine.withBooking
  split
  · exact hs
  · exact ha _

theorem btEndCommand (refusal : BookingState → Option ResultCode) (reason : CloseReason) (p : Nat → Nat) :
    P (btEndCommand refusal reason p s).1 := by
  unfold Machine.btEndCommand
  split
  · exact hs
  · refine Whole.withBooking hs fun e => ?_
    split
    · exact hs
    · exact h.btCommandClose hs _ _ _

theorem btAdvanceCommand (p : Nat → Nat) : P (btAdvanceCommand p s).1 := by
  unfold Machine.btAdvanceCommand
  refine Whole.withBooking hs fun e => ?_
  dsimp only
  split
  · exact hs
  · split
    · exact hs
    · exact h.btAdvance hs _

theorem btExtendCommand (p : Nat → Nat) : P (btExtendCommand p s).1 := by
  unfold Machine.btExtendCommand
  split
  · exact hs
  · refine Whole.withBooking hs fun e => ?_
    dsimp only
    split
    · exact hs
    · split
      · exact hs
      · exact h.aside ⟨rfl, rfl, rfl, rfl, id⟩ hs

omit h in
theorem btReportCommand (p : Nat → Nat) : P (btReportCommand p s).1 := by
  unfold Machine.btReportCommand
  split
  · exact hs
  · exact Whole.withBooking hs fun e => hs

/-! ### Commands of the LPU and the RW -/

omit h in
theorem inConfig {p : Nat → Nat} {act : (Nat → Nat) → State → State × Reply} (ha : P (act p s).1) :
    P (inConfig act p s).1 := by
  unfold Machine.inConfig
  split
  · exact hs
  · exact ha

theorem lpuDepthCommand (p : Nat → Nat) : P (lpuDepthCommand p s).1 := by
  refine Whole.inConfig hs ?_
  dsimp only
  split
  next hp => exact h.lpu ⟨.inl le_rfl, .inl le_rfl, rfl, .inr (by simpa using hp)⟩ hs
  · exact hs

theorem lpuFeedCommand (p : Nat → Nat) : P (lpuFeedCommand p s).1 := by
  refine Whole.inConfig hs ?_
  dsimp only
  split
  · exact hs
  · dsimp only
    refine h.setForeignWrites ?_ _ _
    exact h.lpu (.of_eq rfl rfl rfl rfl) hs

theorem lpuWindowCommand (p : Nat → Nat) : P (lpuWindowCommand p s).1 := by
  refine Whole.inConfig hs ?_
  dsimp only
  split
  · exact hs
  · exact h.lpu (.of_eq rfl rfl rfl rfl) hs

theorem lpuMonitorCommand (p : Nat → Nat) : P (lpuMonitorCommand p s).1 := by
  refine Whole.inConfig hs ?_
  dsimp only
  split
  · exact h.lpu (.of_eq rfl rfl rfl rfl) hs
  · exact hs

theorem enterRun : P (enterRun s) :=
  forAll_preserves (P := P) (fun d _ ht => h.modDelivery trivial ht (d := d) _) _
    (h.ru (h.fm (h.lpu (.of_eq rfl rfl rfl rfl) hs)))

theorem lpuRunCommand (p : Nat → Nat) : P (lpuRunCommand p s).1 := by
  refine Whole.inConfig hs ?_
  split
  · exact hs
  · exact h.enterRun hs

theorem enterConfig : P (enterConfig s) :=
  h.ru (h.fm (h.lpu (.of_eq rfl rfl rfl rfl) (h.lpuAllHoldsToSlate (fun _ => trivial) hs)))

theorem lpuConfigCommand (p : Nat → Nat) : P (lpuConfigCommand p s).1 := by
  unfold Machine.lpuConfigCommand
  split
  · exact hs
  · exact hs
  · split
    · exact hs
    · exact h.enterConfig hs

theorem rwMaskCommand (p : Nat → Nat) : P (rwMaskCommand p s).1 := by
  unfold Machine.rwMaskCommand
  split
  · exact hs
  · exact h.rw ⟨rfl, rfl, rfl⟩ hs

theorem rwNoticeCommand (p : Nat → Nat) : P (rwNoticeCommand p s).1 := by
  unfold Machine.rwNoticeCommand
  split
  · exact hs
  · exact h.rwNotice (h.rw ⟨rfl, rfl, rfl⟩ hs)

omit h in
theorem rwStatusCommand (p : Nat → Nat) : P (rwStatusCommand p s).1 := by
  unfold Machine.rwStatusCommand
  dsimp only
  split <;> exact hs

/-! ### Restart -/

theorem restartTakes : P (restartTakes s) :=
  forAll_preserves (P := P) (fun d _ ht => h.modRoute trivial ht (d := d) _) _ hs

omit hs in
theorem blankEntries (l : List Nat) : ∀ {s : State}, P s →
    (∀ e ∈ l, (s.entry e).state = .fetching ∨ s.entry e = .blank) →
    P (l.foldl (fun t e => t.setEntry e .blank) s) := by
  induction l with
  | nil => exact fun hs _ => hs
  | cons a l ih =>
    intro s hs hl
    refine ih ?_ fun e he => ?_
    · rcases hl a List.mem_cons_self with ha | ha
      · exact h.blank ha hs
      · exact h.aside (by rw [ha]; exact ⟨rfl, rfl, rfl, rfl, id⟩) hs
    · by_cases hea : e = a
      · exact .inr (by rw [hea, State.entry_setEntry_self])
      · rw [State.entry_setEntry_of_ne _ _ hea]
        exact hl e (List.mem_cons_of_mem _ he)

theorem cuRestartCommand (p : Nat → Nat) : P (cuRestartCommand p s).1 := by
  unfold Machine.cuRestartCommand
  dsimp only
  refine List.foldlRecOn (motive := P) _ _ ?_ fun _ ht _ _ => h.closeAny ht
  refine h.blankEntries _ (h.restartTakes (h.lpuAllHoldsToSlate (fun _ => trivial)
    (h.lpu (.of_eq rfl rfl rfl rfl) hs))) fun e he => .inl ?_
  simpa using (List.mem_filter.mp he).2

theorem restartClear : P (restartClear s) :=
  h.lpu (.of_eq rfl rfl rfl rfl) (forAll_preserves (P := P) (fun d _ ht => h.modDelivery trivial ht (d := d) _) _
    (h.ga (h.ru (h.fm hs))))

theorem restartFinish : P (restartFinish s) := by
  unfold Machine.restartFinish
  split
  · split
    · exact hs
    · exact h.cuFinish (h.restartClear hs) _ _ _
  · exact hs

/-! ### The rows -/

/-- Every row of the table answers a next state, in which `P` still holds. -/
theorem exec (c : Instr) : ∃ t, exec c s = .next t ∧ P t := by
  cases c with
  | powerOnReset base init => exact ⟨_, rfl, h.powerOn hs⟩
  | commandSlotWrite r => exact ⟨_, rfl, h.lpuReceive hs r⟩
  | busyHandover => exact ⟨_, rfl, h.cuBusyHandover hs⟩
  | consumerIndexWrite r => exact ⟨_, rfl, h.lpuReceive hs r⟩
  | controlAreaRequest r => exact ⟨_, rfl, h.lpuReceive hs r⟩
  | ringWrite r => exact ⟨_, rfl, h.lpuReceive hs r⟩
  | ringRead r => exact ⟨_, rfl, h.lpuReceive hs r⟩
  | windowRead r => exact ⟨_, rfl, h.lpuReceive hs r⟩
  | windowWrite r => exact ⟨_, rfl, h.lpuReceive hs r⟩
  | otherRequest r => exact ⟨_, rfl, h.lpuReceive hs r⟩
  | downstreamGrant => exact ⟨_, rfl, h.lpuGrant hs⟩
  | ownRequestSubmit => exact ⟨_, rfl, h.rwSubmitWaiting hs⟩
  | passedResponse i tag resp => exact ⟨_, rfl, h.lpuPassedResponse hs i tag resp⟩
  | windowReadResponse i tag resp => exact ⟨_, rfl, h.lpuWindowResponse hs i tag resp⟩
  | ownWriteResponse tag resp => exact ⟨_, rfl, h.rwWriteResponse hs tag resp⟩
  | descriptorReadResponse tag resp => exact ⟨_, rfl, h.btDescriptorResponse hs tag resp⟩
  | referenceMark u => exact ⟨_, rfl, Whole.unlessReset hs (h.tbMark (h.timeTo hs _))⟩
  | markDeadline => exact ⟨_, rfl, Whole.unlessReset hs (h.tbMarkDeadline hs)⟩
  | localMillisecond => exact ⟨_, rfl, Whole.unlessReset hs (h.tbMillisecond hs)⟩
  | windowCeiling e => exact ⟨_, rfl, h.tbInterval hs _⟩
  | allowanceExpiry e => exact ⟨_, rfl, h.tbInterval hs _⟩
  | suspensionCeiling e => exact ⟨_, rfl, h.tbInterval hs _⟩
  | retryInterval f => exact ⟨_, rfl, h.tbInterval hs _⟩
  | lossTimeout f => exact ⟨_, rfl, h.tbInterval hs _⟩
  | barRelease f => exact ⟨_, rfl, h.tbInterval hs _⟩
  | takeTimeout d => exact ⟨_, rfl, h.tbInterval hs _⟩
  | freezeLimit d => exact ⟨_, rfl, h.tbInterval hs _⟩
  | revertHold d => exact ⟨_, rfl, h.tbInterval hs _⟩
  | adaptationPeriodEnd d => exact ⟨_, rfl, h.tbInterval hs _⟩
  | impairmentHoldEnd d => exact ⟨_, rfl, h.tbInterval hs _⟩
  | holdLimitExpiry d => exact ⟨_, rfl, Whole.unlessReset hs (h.tbHoldExpiry hs d)⟩
  | badCommand => exact ⟨_, rfl, h.cuBadCommand hs⟩
  | setRingDepth => exact ⟨_, rfl, h.runCommand hs _ fun p _ hs => h.lpuDepthCommand hs p⟩
  | defineFeedRing => exact ⟨_, rfl, h.runCommand hs _ fun p _ hs => h.lpuFeedCommand hs p⟩
  | defineWindow => exact ⟨_, rfl, h.runCommand hs _ fun p _ hs => h.lpuWindowCommand hs p⟩
  | setMonitorInitiators => exact ⟨_, rfl, h.runCommand hs _ fun p _ hs => h.lpuMonitorCommand hs p⟩
  | enterRun => exact ⟨_, rfl, h.runCommand hs _ fun p _ hs => h.lpuRunCommand hs p⟩
  | enterConfig => exact ⟨_, rfl, h.runCommand hs _ fun p _ hs => h.lpuConfigCommand hs p⟩
  | setEventMask => exact ⟨_, rfl, h.runCommand hs _ fun p _ hs => h.rwMaskCommand hs p⟩
  | setNotice => exact ⟨_, rfl, h.runCommand hs _ fun p _ hs => h.rwNoticeCommand hs p⟩
  | reportStatus => exact ⟨_, rfl, h.runCommand hs _ fun p _ hs => Whole.rwStatusCommand hs p⟩
  | restart => exact ⟨_, rfl, h.runLongCommand hs _ fun p _ hs => h.cuRestartCommand hs p⟩
  | restartFinish => exact ⟨_, rfl, h.restartFinish hs⟩
  | setTime => exact ⟨_, rfl, h.runCommand hs _ fun p _ hs => h.tbTimeCommand hs p⟩
  | setReferenceMode => exact ⟨_, rfl, h.runCommand hs _ fun p _ hs => h.tbModeCommand hs p⟩
  | setReferenceWindow => exact ⟨_, rfl, h.runCommand hs _ fun _ _ hs => h.tb hs⟩
  | reportTime => exact ⟨_, rfl, h.runCommand hs _ fun p _ hs => Whole.tbReportCommand hs p⟩
  | setFeedParameters => exact ⟨_, rfl, h.runCommand hs _ fun p _ hs => h.fmSetParamsCommand hs p⟩
  | clearFeed => exact ⟨_, rfl, h.runCommand hs _ fun p _ hs => h.fmClearCommand hs p⟩
  | reportFeed => exact ⟨_, rfl, h.runCommand hs _ fun p _ hs => Whole.fmReportCommand hs p⟩
  | loadBooking => exact ⟨_, rfl, h.runLongCommand hs _ fun p _ hs => h.btLoadCommand hs p⟩
  | cancel => exact ⟨_, rfl, h.runCommand hs _ fun p _ hs => h.btEndCommand hs _ _ p⟩
  | advance => exact ⟨_, rfl, h.runCommand hs _ fun p _ hs => h.btAdvanceCommand hs p⟩
  | release => exact ⟨_, rfl, h.runCommand hs _ fun p _ hs => h.btEndCommand hs _ _ p⟩
  | extend => exact ⟨_, rfl, h.runCommand hs _ fun p _ hs => h.btExtendCommand hs p⟩
  | reportBooking => exact ⟨_, rfl, h.runCommand hs _ fun p _ hs => Whole.btReportCommand hs p⟩
  | reportDestination => exact ⟨_, rfl, h.runCommand hs _ fun p _ hs => Whole.gaReportCommand hs p⟩
  | take => exact ⟨_, rfl, h.runCommand hs _ fun p _ hs => h.ruTakeCommand hs p⟩
  | cue => exact ⟨_, rfl, h.runCommand hs _ fun p _ hs => h.ruCueCommand hs p⟩
  | confirm => exact ⟨_, rfl, h.runCommand hs _ fun p _ hs => h.ruConfirmCommand hs p⟩
  | uncue => exact ⟨_, rfl, h.runCommand hs _ fun p _ hs => h.ruUncueCommand hs p⟩
  | setDestinationParameters => exact ⟨_, rfl, h.runCommand hs _ fun p _ hs => h.ruSetParamsCommand hs p⟩
  | setLag => exact ⟨_, rfl, h.runCommand hs _ fun p _ hs => h.dmSetLagCommand hs p⟩
  | loadTariff => exact ⟨_, rfl, h.runCommand hs _ fun p _ hs => h.muLoadCommand hs p⟩
  | resetAssertion => exact ⟨_, rfl, h.assertion hs⟩

/-- A step keeps `P`, where `P` stands with the front command taken. -/
theorem step {t : State} (hp : ∀ rest, P (s.withPending rest)) (ht : step s = .next t) : P t := by
  unfold Machine.step at ht
  split at ht
  · obtain rfl : s = t := by simpa using ht
    exact hs
  next c rest _ =>
    obtain ⟨u, hu, hP⟩ := h.exec (hp rest) c
    obtain rfl : u = t := by simpa [hu] using ht
    exact hP

end Whole

end Sys2Proof.Machine
end

section
/-! SUPPORT. The ring-ward moves of a property that does not look at the places of bookings, and the first two uses of
Whole: the queue of waiting commands (every row completes) and the capacities (every step keeps the bounds). -/

namespace Sys2Proof.Machine

namespace Loose

variable {F : Nat → Prop} {P : State → Prop} (h : Loose F P)
  (hpop : ∀ {r : BillRecord} {rest : List BillRecord} {s : State}, s.rw.pendingBilling = r :: rest → P s →
    P (s.withRw { s.rw with pendingBilling := rest }))
include h

theorem rwPassEntries (n : Nat) : ∀ {s : State}, P s → P (rwPassEntries n s) := by
  induction n with
  | zero => exact fun hs => hs
  | succ n ih =>
    intro s hs
    unfold Machine.rwPassEntries
    split
    · exact hs
    · split
      · exact hs
      · split
        · exact hs
        · exact ih (h.rwPlaceFinal hs _ _)

include hpop

theorem rwPassQueue (n : Nat) : ∀ {s : State}, P s → P (rwPassQueue n s) := by
  induction n with
  | zero => exact fun hs => hs
  | succ n ih =>
    intro s hs
    unfold Machine.rwPassQueue
    split
    · exact hs
    next hq =>
      split
      · exact hs
      · exact ih (h.accept (hpop hq hs))

theorem rwRingward {s : State} (hs : P s) : P (rwRingward s) := h.rwPassEntries _ (h.rwPassQueue hpop _ hs)

end Loose

/-! ### The queue of waiting commands -/

theorem pending_loose (p : List Instr) : Loose (fun _ => True) (fun s => s.pending = p) where
  raise hs := (raise_pending ..).trans hs
  route _ hs := hs
  delivery _ hs := hs
  feed _ hs := hs
  counts _ hs := hs
  latch _ hs := hs
  forward hs := (lpuForward_pending ..).trans hs
  hold _ _ _ hs := hs
  join _ hs := hs
  free _ hs := hs
  entry hs := hs
  bookingCounts hs := hs
  holder hs := hs
  queue hs := hs
  read hs := (rwRequest_pending ..).trans hs
  accept hs := (rwAccept_pending ..).trans hs
  push _ hs := hs
  lost hs := hs

theorem pending_whole (p : List Instr) : Whole (fun s => s.pending = p) where
  toBooking := (pending_loose p).placing.booking
  tb hs := hs
  cu hs := hs
  fm hs := hs
  ru hs := hs
  mu hs := hs
  ga hs := hs
  rw _ hs := hs
  lpu _ hs := hs
  age hs := hs
  result hs := (rwAccept_pending ..).trans hs
  ringward hs := (pending_loose p).rwRingward (fun _ hs => hs) hs
  powerOn hs := hs
  assertion hs := hs

/-- Settles O2: no change that a row is made of touches the queue of waiting commands, and every row is made of such
changes. -/
theorem everyCommandCompletes : Obligations.EveryCommandCompletes :=
  fun c s => (pending_whole s.pending).exec rfl c

/-! ### The capacities -/

/-- The bounds as a proposition, with names to its parts. -/
structure State.Bounded (s : State) : Prop where
  forwarding : s.lpu.forwarding.length ≤ 32
  ownQueue : s.lpu.ownQueue.length ≤ 16
  pendingBilling : s.rw.pendingBilling.length ≤ 8
  holds : s.lpu.holds.length ≤ 8
  dests : (s.lpu.holds.map HoldEntry.dest).Nodup
  depth : s.lpu.depth.all (fun n => [64, 128, 256, 512, 1024].contains n)

theorem State.inBounds_iff (s : State) : s.inBounds = true ↔ s.Bounded := by
  unfold State.inBounds
  simp only [Bool.and_eq_true, decide_eq_true_eq]
  exact ⟨fun ⟨⟨⟨⟨⟨h1, h2⟩, h3⟩, h4⟩, h5⟩, h6⟩ => ⟨h1, h2, h3, h4, h5, h6⟩,
    fun ⟨h1, h2, h3, h4, h5, h6⟩ => ⟨⟨⟨⟨⟨h1, h2⟩, h3⟩, h4⟩, h5⟩, h6⟩⟩

namespace State.Bounded

variable {s t : State} (hs : s.Bounded)
include hs

/-- The bounds look at the two queues, the pending billing queue, the hold list and the ring depth. -/
theorem congr (hf : t.lpu.forwarding = s.lpu.forwarding) (ho : t.lpu.ownQueue = s.lpu.ownQueue)
    (hb : t.rw.pendingBilling = s.rw.pendingBilling) (hh : t.lpu.holds = s.lpu.holds)
    (hd : t.lpu.depth = s.lpu.depth) : t.Bounded :=
  ⟨hf ▸ hs.forwarding, ho ▸ hs.ownQueue, hb ▸ hs.pendingBilling, hh ▸ hs.holds, hh ▸ hs.dests, hd ▸ hs.depth⟩

theorem rwSubmit (o : OwnRequest) : (rwSubmit o s).Bounded := by
  unfold Machine.rwSubmit
  split
  next hroom =>
    simp only [Bool.and_eq_true, decide_eq_true_eq] at hroom
    exact { hs with ownQueue := by simpa using hroom.2 }
  · exact { hs with }

theorem rwRequest (kind : OwnKind) (access : ReqKind) (addr len : Nat) (data : List Byte) :
    (rwRequest kind access addr len data s).Bounded := by
  have h : (s.withLpu { s.lpu with nextTag := s.lpu.nextTag + 1 }).Bounded := { hs with }
  exact h.rwSubmit _

theorem setRing (id : RingId) (x : RingIndexes) : (s.setRing id x).Bounded := by
  cases id <;> exact { hs with }

theorem rwAccept (id : RingId) (bytes : List Byte) : (rwAccept id bytes s).Bounded :=
  ((hs.setRing _ _).rwRequest ..).rwRequest ..

theorem withRw {x : Rw} (hx : x.pendingBilling = s.rw.pendingBilling) : (s.withRw x).Bounded :=
  hs.congr rfl rfl hx rfl rfl

theorem raise (cls : EventClass) (kind subject : Nat) (words : List Nat) : (raise cls kind subject words s).Bounded := by
  unfold Machine.raise
  split
  · split
    · refine hs.withRw ?_
      rfl
    · refine rwAccept (hs.withRw ?_) _ _
      rfl
  · exact hs

theorem lpuForward (x : Forward) : (lpuForward x s).Bounded := by
  unfold Machine.lpuForward
  split
  next hroom =>
    simp only [Bool.and_eq_true, decide_eq_true_eq] at hroom
    exact { hs with forwarding := by simpa using hroom.1 }
  · exact { hs with }

theorem lpuHold {d : Nat} (hn : s.hold d = none) (hl : s.lpu.holds.length < 8) (f q slot : Nat) (r : Request) :
    (lpuHold d f q slot r s).Bounded := by
  refine { hs with holds := by simpa [Machine.lpuHold] using hl, dests := ?_ }
  have hd : ∀ x ∈ s.lpu.holds, x.dest ≠ d := by simpa [State.hold] using hn
  have := hs.dests
  simp only [Machine.lpuHold, State.withLpu_lpu, List.map_append, List.map_cons, List.map_nil, List.nodup_append,
    List.mem_map, List.mem_singleton, List.nodup_cons, List.not_mem_nil, not_false_eq_true, List.nodup_nil, and_true]
  exact ⟨this, trivial, fun _ ⟨x, hx, hxd⟩ _ hb => hb ▸ hxd ▸ hd x hx⟩

theorem holds_map {g : HoldEntry → HoldEntry} (hg : ∀ x, (g x).dest = x.dest) :
    (s.withLpu { s.lpu with holds := s.lpu.holds.map g }).Bounded :=
  { hs with
    holds := by simpa using hs.holds
    dests := by simpa [Function.comp_def, hg] using hs.dests }

theorem holdJoin (d : Nat) (rs : List Request) : (holdJoin d rs s).Bounded :=
  hs.holds_map fun x => by split <;> rfl

theorem holdsAge (us : Nat) : (holdsAge us s).Bounded := hs.holds_map fun _ => rfl

theorem holdFree (d : Nat) : (holdFree d s).Bounded :=
  { hs with
    holds := (List.length_filter_le _ _).trans hs.holds
    dests := hs.dests.sublist (List.filter_sublist.map _) }

theorem withLpu {x : Lpu} (hx : s.lpu.Within x) : (s.withLpu x).Bounded := by
  obtain ⟨hf, ho, hh, hd⟩ := hx
  refine ⟨?_, ?_, hs.pendingBilling, ?_, ?_, ?_⟩
  · exact hf.elim (·.trans hs.forwarding) id
  · exact ho.elim (·.trans hs.ownQueue) id
  · exact hh ▸ hs.holds
  · exact hh ▸ hs.dests
  · exact hd.elim (fun hd => hd ▸ hs.depth) id

end State.Bounded

theorem bounded_loose : Loose (fun _ => True) State.Bounded where
  raise hs := hs.raise ..
  route _ hs := { hs with }
  delivery _ hs := { hs with }
  feed _ hs := { hs with }
  counts _ hs := { hs with }
  latch _ hs := { hs with }
  forward hs := hs.lpuForward _
  hold _ hn hl hs := hs.lpuHold hn hl ..
  join _ hs := hs.holdJoin ..
  free _ hs := hs.holdFree _
  entry hs := { hs with }
  bookingCounts hs := { hs with }
  holder hs := { hs with }
  queue hs := { hs with }
  read hs := hs.rwRequest ..
  accept hs := hs.rwAccept ..
  push hroom hs := { hs with pendingBilling := by simpa using hroom }
  lost hs := { hs with }

theorem bounded_whole : Whole State.Bounded where
  toBooking := bounded_loose.placing.booking
  tb hs := { hs with }
  cu hs := { hs with }
  fm hs := { hs with }
  ru hs := { hs with }
  mu hs := { hs with }
  ga hs := { hs with }
  rw hx hs := hs.congr rfl rfl hx.1 rfl rfl
  lpu hx hs := hs.withLpu hx
  age hs := hs.holdsAge _
  result hs := hs.rwAccept ..
  ringward hs := bounded_loose.rwRingward
    (fun hq hs => { hs with pendingBilling := by have := hs.pendingBilling; rw [hq] at this; simp at this ⊢; omega })
    (by exact { hs with })
  powerOn _ := by constructor <;> simp [powerOnReset, Lpu.afterReset, Rw.afterReset]
  assertion hs := { hs with pendingBilling := Nat.zero_le _ }

/-- Settles O7: the bounds are kept by every change that a row is made of: a queue grows only where it has room, the hold
list takes an entry only for a destination without one (Whole). -/
theorem stepKeepsTheBounds : Obligations.StepKeepsTheBounds := by
  intro s t hs ht
  rw [State.inBounds_iff] at hs ⊢
  exact bounded_whole.step hs (fun _ => { hs with }) ht

end Sys2Proof.Machine
end

section
/-! SUPPORT. The three billing stages (R190): what a placed record and the ring-ward moves do to them, and that every step keeps
their order. -/

namespace Sys2Proof.Machine

/-! ### The billing ring under the RW's operations -/

@[simp] theorem rwSubmit_ring (id : RingId) (o : OwnRequest) (s : State) : (rwSubmit o s).ring id = s.ring id := by
  unfold rwSubmit
  split <;> cases id <;> rfl

@[simp] theorem rwRequest_ring (id : RingId) (kind : OwnKind) (access : ReqKind) (addr len : Nat) (data : List Byte)
    (s : State) : (rwRequest kind access addr len data s).ring id = s.ring id := by
  rw [rwRequest, rwSubmit_ring]
  cases id <;> rfl

@[simp] theorem rwRequest_entry (kind : OwnKind) (access : ReqKind) (addr len : Nat) (data : List Byte) (e : Nat)
    (s : State) : (rwRequest kind access addr len data s).entry e = s.entry e := by
  simp [State.entry]

@[simp] theorem lpuForward_entry (x : Forward) (e : Nat) (s : State) : (lpuForward x s).entry e = s.entry e := by
  simp [State.entry]

@[simp] theorem State.withRw_entry (x : Rw) (e : Nat) (s : State) : (s.withRw x).entry e = s.entry e := rfl

theorem rwAccept_ring_of_ne {id other : RingId} (h : other ≠ id) (bytes : List Byte) (s : State) :
    (rwAccept id bytes s).ring other = s.ring other := by
  simp [rwAccept, State.ring_setRing_of_ne h]

@[simp] theorem rwNotice_ring (id : RingId) (s : State) : (rwNotice s).ring id = s.ring id := by cases id <;> rfl

@[simp] theorem raise_ring_billing (cls : EventClass) (kind subject : Nat) (words : List Nat) (s : State) :
    (raise cls kind subject words s).ring .billing = s.ring .billing := by
  unfold raise
  split
  · split
    · rfl
    · exact rwAccept_ring_of_ne (by decide) _ _
  · rfl

@[simp] theorem lpuForward_ring (id : RingId) (x : Forward) (s : State) : (lpuForward x s).ring id = s.ring id := by
  unfold lpuForward
  split <;> cases id <;> rfl

/-! ### The order -/

/-- The order of the billing stages but for the waiting entries: the queue keeps to its 8 places, and stands behind a full
ring. -/
structure State.Queued (s : State) : Prop where
  room : s.rw.pendingBilling.length ≤ 8
  full : s.rw.pendingBilling = [] ∨ s.ringFull .billing = true

/-- The order of the three billing stages (R190). -/
structure State.Billed (s : State) : Prop extends s.Queued where
  waiting : (∀ e < 128, (s.entry e).record = none) ∨ s.rw.pendingBilling.length = 8

theorem mem_waitingEntries {s : State} {e : Nat} : e ∈ waitingEntries s ↔ e < 128 ∧ (s.entry e).record ≠ none := by
  simp [waitingEntries, Option.isSome_iff_ne_none]

theorem waitingEntries_eq_nil {s : State} : waitingEntries s = [] ↔ ∀ e < 128, (s.entry e).record = none := by
  simp [waitingEntries, List.filter_eq_nil_iff]

theorem State.billingInOrder_iff (s : State) : s.billingInOrder = true ↔ s.Billed := by
  unfold State.billingInOrder
  simp only [Bool.and_eq_true, Bool.or_eq_true, decide_eq_true_eq, List.isEmpty_iff, waitingEntries_eq_nil, beq_iff_eq]
  exact ⟨fun ⟨⟨h1, h2⟩, h3⟩ => ⟨⟨h1, h2⟩, h3⟩, fun ⟨⟨h1, h2⟩, h3⟩ => ⟨⟨h1, h2⟩, h3⟩⟩

theorem State.Queued.congr {s t : State} (h : s.Queued) (hb : t.rw.pendingBilling = s.rw.pendingBilling)
    (hr : t.ring .billing = s.ring .billing) : t.Queued :=
  ⟨hb ▸ h.room, by rw [State.ringFull, hb, hr]; exact h.full⟩

theorem State.Billed.congr {s t : State} (h : s.Billed) (hb : t.rw.pendingBilling = s.rw.pendingBilling)
    (hr : t.ring .billing = s.ring .billing)
    (he : ∀ e, (t.entry e).record = none ∨ (t.entry e).record = (s.entry e).record) : t.Billed := by
  refine ⟨h.toQueued.congr hb hr, ?_⟩
  rw [hb]
  refine h.waiting.imp (fun hw e hlt => ?_) id
  exact (he e).elim id fun hsame => hsame.trans (hw e hlt)

theorem entry_setEntry_record {s : State} {e : Nat} {x : Entry} (hx : x.record = none ∨ x.record = (s.entry e).record)
    (f : Nat) : ((s.setEntry e x).entry f).record = none ∨ ((s.setEntry e x).entry f).record = (s.entry f).record := by
  by_cases hf : f = e
  · rw [hf, State.entry_setEntry_self]
    exact hx
  · exact .inr (by rw [State.entry_setEntry_of_ne _ _ hf])

theorem billed_reading : Reading (fun _ => True) (fun _ => True) State.Billed where
  raise hs := hs.congr (by simp) (by simp) fun _ => .inr (by simp)
  route _ hs := hs.congr rfl rfl fun _ => .inr rfl
  delivery _ hs := hs.congr rfl rfl fun _ => .inr rfl
  feed _ hs := hs.congr rfl rfl fun _ => .inr rfl
  counts hx hs := hs.congr rfl rfl (entry_setEntry_record (.inr hx.aside.2.2.1))
  latch _ hs := hs.congr rfl rfl fun _ => .inr rfl
  forward hs := hs.congr (by simp) (by simp) fun _ => .inr (by simp)
  hold _ _ _ hs := hs.congr rfl rfl fun _ => .inr rfl
  join _ hs := hs.congr rfl rfl fun _ => .inr rfl
  free _ hs := hs.congr rfl rfl fun _ => .inr rfl

/-! ### The end of an entry in CLOSING -/

@[simp] theorem btFetch_ring (e addr : Nat) (origin : LoadOrigin) (s : State) (id : RingId) :
    (btFetch e addr origin s).ring id = s.ring id := by
  rw [btFetch, rwRequest_ring]
  cases id <;> rfl

@[simp] theorem btLeaveClosing_ring_billing (e : Nat) (s : State) :
    (btLeaveClosing e s).ring .billing = s.ring .billing := by
  unfold btLeaveClosing btStateEvent
  dsimp only
  split <;> simp <;> rfl

@[simp] theorem btLeaveClosing_rw_pendingBilling (e : Nat) (s : State) :
    (btLeaveClosing e s).rw.pendingBilling = s.rw.pendingBilling := by
  unfold btLeaveClosing btStateEvent
  dsimp only
  split <;> simp

theorem btFetch_entry_self (e addr : Nat) (origin : LoadOrigin) (s : State) : (btFetch e addr origin s).entry e =
    { Entry.blank with state := .fetching, origin := origin, address := addr, fetchTag := some s.lpu.nextTag } := by
  simp [btFetch]

theorem btFetch_entry_of_ne {e f : Nat} (h : f ≠ e) (addr : Nat) (origin : LoadOrigin) (s : State) :
    (btFetch e addr origin s).entry f = s.entry f := by
  simp [btFetch, State.entry_setEntry_of_ne _ _ h]

theorem btLeaveClosing_entry_of_ne {e f : Nat} (h : f ≠ e) (s : State) : (btLeaveClosing e s).entry f = s.entry f := by
  unfold btLeaveClosing btStateEvent
  dsimp only
  split <;> simp [btFetch_entry_of_ne h, State.entry_setEntry_of_ne _ _ h]

theorem btLeaveClosing_record (e : Nat) (s : State) : ((btLeaveClosing e s).entry e).record = none := by
  unfold btLeaveClosing btStateEvent
  dsimp only
  split
  · rw [btFetch_entry_self]
    rfl
  · simp [Entry.blank]

/-! ### Placement (R191, R192) -/

theorem rwPlaceFinal_entry_of_ne {e f : Nat} (h : f ≠ e) (r : BillRecord) (s : State) :
    (rwPlaceFinal e r s).entry f = s.entry f := by
  unfold rwPlaceFinal rwBillingEvent modEntry
  split
  · simp [btLeaveClosing_entry_of_ne h, State.entry_setEntry_of_ne _ _ h]
  · split
    · dsimp only
      rw [btLeaveClosing_entry_of_ne h, raise_entry, State.withRw_entry, State.entry_setEntry_of_ne _ _ h]
    · simp [State.entry_setEntry_of_ne _ _ h]

/-- A record that finds a place in the ring or in the queue does not stay in its entry. -/
theorem rwPlaceFinal_record {s : State} (hroom : s.rw.pendingBilling.length < 8) (e : Nat) (r : BillRecord) :
    ((rwPlaceFinal e r s).entry e).record = none := by
  unfold rwPlaceFinal
  split
  · exact btLeaveClosing_record ..
  · exact btLeaveClosing_record ..

/-- A record that finds a place keeps the queue behind a full ring. -/
theorem State.Queued.rwPlaceFinal {s : State} (hs : s.Queued) (hroom : s.rw.pendingBilling.length < 8) (e : Nat)
    (r : BillRecord) : (rwPlaceFinal e r s).Queued := by
  unfold Machine.rwPlaceFinal
  split
  next hfree =>
    simp only [Bool.and_eq_true, List.isEmpty_iff] at hfree
    exact ⟨by simp [modEntry, hfree.2], .inl (by simp [modEntry, hfree.2])⟩
  next hfree =>
    have hfull : s.ringFull .billing = true := by
      rcases hs.full with he | hf
      · simpa [he] using hfree
      · exact hf
    refine ⟨by simpa [rwBillingEvent, modEntry] using hroom, .inr ?_⟩
    rw [State.ringFull, btLeaveClosing_ring_billing, rwBillingEvent, raise_ring_billing]
    exact hfull

theorem State.Billed.rwPlaceFinal {s : State} (hs : s.Billed) (e : Nat) (r : BillRecord) : (rwPlaceFinal e r s).Billed := by
  rcases Nat.lt_or_ge s.rw.pendingBilling.length 8 with hroom | hroom
  · refine ⟨hs.toQueued.rwPlaceFinal hroom e r, .inl fun f hf => ?_⟩
    by_cases hfe : f = e
    · rw [hfe, rwPlaceFinal_record hroom]
    · rw [rwPlaceFinal_entry_of_ne hfe]
      exact (hs.waiting.resolve_right (by omega)) f hf
  · have hlen : s.rw.pendingBilling.length = 8 := by have := hs.room; omega
    have hne : s.rw.pendingBilling ≠ [] := by intro h; simp [h] at hlen
    have hq : (Machine.rwPlaceFinal e r s).rw.pendingBilling = s.rw.pendingBilling := by
      simp [Machine.rwPlaceFinal, hne, hlen, rwBillingEvent, modEntry]
    refine ⟨hs.toQueued.congr hq ?_, .inr (by rw [hq, hlen])⟩
    simp [Machine.rwPlaceFinal, hne, hlen, rwBillingEvent, modEntry]
    rfl

theorem State.Billed.rwPlaceCheckpoint {s : State} (hs : s.Billed) (e : Nat) (r : BillRecord) :
    (rwPlaceCheckpoint e r s).Billed := by
  unfold Machine.rwPlaceCheckpoint
  split
  next hfree =>
    simp only [Bool.and_eq_true, List.isEmpty_iff] at hfree
    refine ⟨⟨by simp [hfree.2], .inl (by simp [hfree.2])⟩, .inl fun f hf => ?_⟩
    rw [rwAccept_entry]
    exact (hs.waiting.resolve_right (by simp [hfree.2])) f hf
  next hfree =>
    split
    next hroom =>
      have hfull : s.ringFull .billing = true := by
        rcases hs.full with he | hf
        · simpa [he] using hfree
        · exact hf
      exact ⟨⟨by simpa using hroom, .inr hfull⟩, .inl (hs.waiting.resolve_right (by omega))⟩
    · exact hs.congr (by simp [rwBillingEvent]) (by simp [rwBillingEvent]; rfl) fun _ => .inr (by simp [rwBillingEvent])

theorem billed_placing : Placing (fun _ => True) State.Billed where
  toReading := billed_reading
  entry hx hs := hs.congr rfl rfl (entry_setEntry_record hx)
  bookingCounts hs := hs.congr rfl rfl fun _ => .inr rfl
  holder hs := hs.congr rfl rfl fun _ => .inr rfl
  queue hs := hs.congr rfl rfl fun _ => .inr rfl
  read hs := hs.congr (by simp) (by simp) fun _ => .inr (by simp)
  place hs := hs.rwPlaceFinal ..
  placeCheckpoint hs := hs.rwPlaceCheckpoint ..

/-! ### Ring-ward moves (R193) -/

/-- Pass 1 with a turn for each record of the queue ends with the queue empty or the ring full. -/
theorem rwPassQueue_queued (n : Nat) : ∀ {s : State}, s.rw.pendingBilling.length ≤ n → n ≤ 8 → (rwPassQueue n s).Queued := by
  induction n with
  | zero =>
    intro s hn _
    exact ⟨by simp [rwPassQueue]; omega, .inl (List.length_eq_zero_iff.mp (Nat.le_zero.mp hn))⟩
  | succ n ih =>
    intro s hn h8
    unfold rwPassQueue
    split
    next hq => exact ⟨by simp [hq], .inl hq⟩
    next r rest hq =>
      split
      next hfull => exact ⟨by omega, .inr hfull⟩
      · refine ih ?_ (by omega)
        simp [hq] at hn ⊢
        omega

theorem rwPassQueue_entry (n e : Nat) (s : State) : (rwPassQueue n s).entry e = s.entry e := by
  induction n generalizing s with
  | zero => rfl
  | succ n ih =>
    unfold rwPassQueue
    split
    · rfl
    · split
      · rfl
      · rw [ih, rwAccept_entry]
        rfl

theorem firstWaiting_mem {s : State} {l : List Nat} {e : Nat} (h : firstWaiting s l = some e) : e ∈ l := by
  induction l with
  | nil => simp [firstWaiting] at h
  | cons a l ih =>
    unfold firstWaiting at h
    split at h
    · simp_all
    next f hf =>
      split at h
      · exact List.mem_cons_of_mem _ (ih (hf.trans h))
      · simp_all

theorem firstWaiting_eq_none {s : State} {l : List Nat} (h : firstWaiting s l = none) : l = [] := by
  cases l with
  | nil => rfl
  | cons a l =>
    unfold firstWaiting at h
    split at h
    · simp at h
    · split at h <;> simp at h

/-- Each placed record leaves one entry fewer waiting. -/
theorem waitingEntries_rwPlaceFinal {s : State} (hroom : s.rw.pendingBilling.length < 8) (e : Nat) (r : BillRecord) :
    waitingEntries (rwPlaceFinal e r s) = (waitingEntries s).filter (· != e) := by
  unfold waitingEntries
  rw [List.filter_filter]
  refine List.filter_congr fun f _ => ?_
  by_cases hfe : f = e
  · simp [hfe, rwPlaceFinal_record hroom]
  · simp [rwPlaceFinal_entry_of_ne hfe, hfe]

/-- Pass 2 with a turn for each waiting entry ends with none waiting or the queue full. -/
theorem rwPassEntries_billed (n : Nat) : ∀ {s : State}, s.Queued → (waitingEntries s).length ≤ n →
    (rwPassEntries n s).Billed := by
  induction n with
  | zero =>
    intro s hs hn
    exact ⟨hs, .inl (waitingEntries_eq_nil.mp (List.length_eq_zero_iff.mp (Nat.le_zero.mp hn)))⟩
  | succ n ih =>
    intro s hs hn
    unfold rwPassEntries
    split
    next h8 => exact ⟨hs, .inr (Nat.le_antisymm hs.room h8)⟩
    next h8 =>
      split
      next hw => exact ⟨hs, .inl (waitingEntries_eq_nil.mp (firstWaiting_eq_none hw))⟩
      next e hw =>
        have he := firstWaiting_mem hw
        split
        next hr => exact absurd hr (mem_waitingEntries.mp he).2
        next r _ =>
          refine ih (hs.rwPlaceFinal (by omega) e r) ?_
          rw [waitingEntries_rwPlaceFinal (by omega)]
          have hlt : ((waitingEntries s).filter (· != e)).length < (waitingEntries s).length :=
            List.length_filter_lt_length_iff_exists.mpr ⟨e, he, by simp⟩
          omega

theorem rwRingward_billed {s : State} (h : s.rw.pendingBilling.length ≤ 8) : (rwRingward s).Billed := by
  refine rwPassEntries_billed _ (rwPassQueue_queued _ le_rfl h) ?_
  exact (List.length_filter_le _ _).trans (by simp)

/-! ### Every row -/

theorem billed_whole : Whole State.Billed where
  toBooking := billed_placing.booking
  tb hs := hs.congr rfl rfl fun _ => .inr rfl
  cu hs := hs.congr rfl rfl fun _ => .inr rfl
  fm hs := hs.congr rfl rfl fun _ => .inr rfl
  ru hs := hs.congr rfl rfl fun _ => .inr rfl
  mu hs := hs.congr rfl rfl fun _ => .inr rfl
  ga hs := hs.congr rfl rfl fun _ => .inr rfl
  rw hx hs :=
    ⟨⟨hx.1 ▸ hs.room, by
      have := hs.full
      simp only [State.ringFull, State.ring, RingIndexes.full, RingIndexes.count, hx.1, hx.2.1, hx.2.2,
        State.withRw_rw] at this ⊢
      exact this⟩, hx.1 ▸ hs.waiting⟩
  lpu _ hs := hs.congr rfl rfl fun _ => .inr rfl
  age hs := hs.congr rfl rfl fun _ => .inr rfl
  result hs := hs.congr (by simp) (rwAccept_ring_of_ne (by decide) _ _) fun _ => .inr (by simp)
  ringward hs := rwRingward_billed hs.room
  powerOn _ := ⟨⟨by simp [powerOnReset, Rw.afterReset], .inl rfl⟩, .inl fun _ _ => rfl⟩
  assertion _ := ⟨⟨Nat.zero_le _, .inl rfl⟩, .inl fun _ _ => rfl⟩

/-- Settles O8: a record joins the queue only behind a full ring and stays in its entry only behind a full queue; after an
advanced consumer index the ring-ward moves restore both. -/
theorem stepKeepsTheBillingOrder : Obligations.StepKeepsTheBillingOrder := by
  intro s t hs ht
  rw [State.billingInOrder_iff] at hs ⊢
  exact billed_whole.step hs (fun _ => hs.congr rfl rfl fun _ => .inr rfl) ht

end Sys2Proof.Machine
end

section
/-! SUPPORT. Holders and grant queues (R115, R116): what a request, a release, a withdrawal and a close do to them, and that every
step keeps them in order. -/

namespace Sys2Proof.Machine

/-! ### Entries under the acts of the GA -/

theorem btGranted_entry_self (e : Nat) (s : State) : (btGranted e s).entry e =
    (s.entry e).enter (grantedState s.tb.seconds (s.entry e)) s.tb.seconds := by
  simp [btGranted]

theorem btGranted_entry_of_ne {e f : Nat} (h : f ≠ e) (s : State) : (btGranted e s).entry f = s.entry f := by
  simp [btGranted, State.entry_setEntry_of_ne _ _ h]

theorem btQueued_entry_self (e : Nat) (s : State) :
    (btQueued e s).entry e = { s.entry e with state := .waiting } := by
  simp [btQueued]

theorem btQueued_entry_of_ne {e f : Nat} (h : f ≠ e) (s : State) : (btQueued e s).entry f = s.entry f := by
  simp [btQueued, State.entry_setEntry_of_ne _ _ h]

/-- R101: booking `x` suspended by preemption. -/
def Entry.suspend (x : Entry) : Entry := { x with state := .suspended, resume := some x.state }

theorem btSuspended_entry_self (e : Nat) (s : State) : (btSuspended e s).entry e = (s.entry e).suspend := by
  simp [btSuspended, Entry.suspend]

theorem btSuspended_entry_of_ne {e f : Nat} (h : f ≠ e) (s : State) : (btSuspended e s).entry f = s.entry f := by
  simp [btSuspended, State.entry_setEntry_of_ne _ _ h]

/-! ### The order of holders and queues -/

/-- `x` is a booking that may hold destination `d`. -/
def Entry.Holds (d : Nat) (x : Entry) : Prop := x.state.holds = true ∧ x.desc.dest = d

/-- `x` is a booking that may stand in the grant queue of `d`. -/
def Entry.Waits (d : Nat) (x : Entry) : Prop :=
  (x.state = .waiting ∨ x.state = .suspended ∧ ∃ st, x.resume = some st ∧ st.holds = true) ∧ x.desc.dest = d

/-- A record stands only in an entry in CLOSING. -/
def Entry.RecordInClosing (x : Entry) : Prop := x.record ≠ none → x.state = .closing

/-- Holders, queues and records are in order but for entry `a`, which may be anything to its own destination. -/
structure State.GrantedBut (a : Option Nat) (s : State) : Prop where
  holders : ∀ {d e}, s.holder d = some e → some e ≠ a → (s.entry e).Holds d
  nodup : ∀ d, (s.grantQueue d).Nodup
  queued : ∀ {d e}, e ∈ s.grantQueue d → some e ≠ a → (s.entry e).Waits d
  records : ∀ e, (s.entry e).RecordInClosing

theorem BookingState.holds_iff {st : BookingState} : st.holds = true ↔ st ∈ [.preroll, .live, .overrun] := by
  cases st <;> decide

theorem Entry.waits_iff {x : Entry} {d : Nat} : x.Waits d ↔ x.state ∈ [.waiting, .suspended] ∧ x.desc.dest = d ∧
    (x.state = .suspended → x.resume ∈ [some .preroll, some .live, some .overrun]) := by
  have hres : x.resume ∈ [some .preroll, some .live, some .overrun] ↔ ∃ st, x.resume = some st ∧ st.holds = true := by
    cases x.resume with
    | none => simp
    | some st => simp [BookingState.holds_iff]
  rw [hres]
  unfold Entry.Waits
  constructor
  · rintro ⟨hw | ⟨hsu, hr⟩, hd⟩
    · exact ⟨by simp [hw], hd, by simp [hw]⟩
    · exact ⟨by simp [hsu], hd, fun _ => hr⟩
  · rintro ⟨hst, hd, hr⟩
    rcases List.mem_pair.mp hst with hw | hsu
    · exact ⟨.inl hw, hd⟩
    · exact ⟨.inr ⟨hsu, hr hsu⟩, hd⟩

theorem State.grantsInOrder_iff (s : State) : s.grantsInOrder ↔ s.GrantedBut none := by
  constructor
  · rintro ⟨hh, hq, hr⟩
    exact
      { holders := fun h _ => ⟨BookingState.holds_iff.mpr (hh _ _ h).1, (hh _ _ h).2⟩
        nodup := fun d => (hq d).1
        queued := fun h _ => Entry.waits_iff.mpr ((hq _).2 _ h)
        records := hr }
  · intro h
    exact ⟨fun d e he => (h.holders he (by simp)).imp BookingState.holds_iff.mp id,
      fun d => ⟨h.nodup d, fun e he => Entry.waits_iff.mp (h.queued he (by simp))⟩, h.records⟩

/-- Entry `e` holds no destination and stands in no queue. -/
def State.Unplaced (e : Nat) (s : State) : Prop := (∀ d, s.holder d ≠ some e) ∧ ∀ d, e ∉ s.grantQueue d

namespace State.GrantedBut

variable {a : Option Nat} {s t : State}

theorem congr (h : s.GrantedBut a) (hg : t.ga = s.ga) (hb : t.bt.entries = s.bt.entries) : t.GrantedBut a := by
  have hh : t.holder = s.holder := by funext d; simp [State.holder, hg]
  have hq : t.grantQueue = s.grantQueue := by funext d; simp [State.grantQueue, hg]
  have he : t.entry = s.entry := by funext e; simp [State.entry, hb]
  constructor
  · rw [hh, he]; exact h.holders
  · rw [hq]; exact h.nodup
  · rw [hq, he]; exact h.queued
  · rw [he]; exact h.records

/-- An entry that neither holds nor waits is unplaced. -/
theorem unplaced (h : s.GrantedBut none) {e : Nat} (hh : (s.entry e).state.holds = false)
    (hw : (s.entry e).state ≠ .waiting) (hsu : (s.entry e).state ≠ .suspended) : s.Unplaced e := by
  refine ⟨fun d hd => ?_, fun d hd => ?_⟩
  · have := (h.holders hd (by simp)).1
    simp [hh] at this
  · exact (h.queued hd (by simp)).1.elim hw fun hx => hsu hx.1

/-- A holder stands in no queue. -/
theorem not_queued (h : s.GrantedBut none) {e : Nat} (hh : (s.entry e).state.holds = true) (d : Nat) :
    e ∉ s.grantQueue d := by
  intro hd
  rcases (h.queued hd (by simp)).1 with hw | ⟨hw, _⟩ <;> rw [hw] at hh <;> exact absurd hh (by decide)

/-- A waiting or suspended entry is no holder. -/
theorem not_holder (h : s.GrantedBut none) {e : Nat} (hw : (s.entry e).state.holds = false) (d : Nat) :
    s.holder d ≠ some e := by
  intro hd
  have := (h.holders hd (by simp)).1
  simp [hw] at this

/-- The order but for an entry that is unplaced is the order. -/
theorem all {e : Nat} (h : s.GrantedBut (some e)) (he : s.Unplaced e) : s.GrantedBut none where
  holders hd _ := h.holders hd fun hx => he.1 _ (Option.some.inj hx ▸ hd)
  nodup := h.nodup
  queued hd _ := h.queued hd fun hx => he.2 _ (Option.some.inj hx ▸ hd)
  records := h.records

/-- A change of entry `e` leaves the others in order. -/
theorem setEntry_but (h : s.GrantedBut none) {e : Nat} {x : Entry} (hx : x.RecordInClosing) :
    (s.setEntry e x).GrantedBut (some e) where
  holders hd hne := by
    rw [State.entry_setEntry_of_ne _ _ (by simpa using hne)]
    exact h.holders hd (by simp)
  nodup := h.nodup
  queued hd hne := by
    rw [State.entry_setEntry_of_ne _ _ (by simpa using hne)]
    exact h.queued hd (by simp)
  records f := by
    by_cases hf : f = e
    · rw [hf, State.entry_setEntry_self]; exact hx
    · rw [State.entry_setEntry_of_ne _ _ hf]; exact h.records f

theorem setEntry_unplaced (h : s.GrantedBut none) {e : Nat} (he : s.Unplaced e) {x : Entry} (hx : x.RecordInClosing) :
    (s.setEntry e x).GrantedBut none :=
  (h.setEntry_but hx).all he

/-- A changed entry that is to its destination what it was keeps the order. -/
theorem setEntry (h : s.GrantedBut none) {e : Nat} {x : Entry} (hx : x.RecordInClosing)
    (hh : ∀ d, (s.entry e).Holds d → x.Holds d) (hw : ∀ d, (s.entry e).Waits d → x.Waits d) :
    (s.setEntry e x).GrantedBut none where
  holders := by
    intro d f hd _
    by_cases hf : f = e
    · rw [hf, State.entry_setEntry_self]; exact hh d (hf ▸ h.holders hd (by simp))
    · rw [State.entry_setEntry_of_ne _ _ hf]; exact h.holders hd (by simp)
  nodup := h.nodup
  queued := by
    intro d f hd _
    by_cases hf : f = e
    · rw [hf, State.entry_setEntry_self]; exact hw d (hf ▸ h.queued hd (by simp))
    · rw [State.entry_setEntry_of_ne _ _ hf]; exact h.queued hd (by simp)
  records := (h.setEntry_but hx).records

/-- R117, R121: an entry that holds no destination yet is granted `d`, whoever held it. -/
theorem granted (h : s.GrantedBut none) {e d : Nat} (he : s.Unplaced e) (hr : (s.entry e).record = none) {st : BookingState}
    (hst : st.holds = true) (hd : (s.entry e).desc.dest = d) (nt : Nat) :
    ((s.setHolder d (some e)).setEntry e ((s.entry e).enter st nt)).GrantedBut none where
  holders := by
    intro d' f hf _
    by_cases hfe : f = e
    · subst hfe
      rw [State.entry_setEntry_self]
      by_cases hd' : d' = d
      · exact ⟨by rw [Entry.enter_state]; exact hst, by rw [Entry.enter_desc, hd, hd']⟩
      · exact absurd ((State.holder_setHolder_of_ne _ _ hd').symm.trans hf) (he.1 d')
    · rw [State.entry_setEntry_of_ne _ _ hfe]
      by_cases hd' : d' = d
      · subst hd'
        exact absurd (Option.some.inj ((State.holder_setHolder_self ..).symm.trans hf)).symm hfe
      · exact h.holders ((State.holder_setHolder_of_ne _ _ hd').symm.trans hf) (by simp)
  nodup := h.nodup
  queued := by
    intro d' f hf _
    have hfe : f ≠ e := fun hfe => he.2 d' (hfe ▸ hf)
    rw [State.entry_setEntry_of_ne _ _ hfe]
    exact h.queued hf (by simp)
  records := (h.setEntry_but (by simp [Entry.RecordInClosing, hr])).records

/-- R116: an unplaced entry that may wait joins the queue of its destination. -/
theorem joined (h : s.GrantedBut none) {e d : Nat} (he : ∀ d, e ∉ s.grantQueue d) (hh : ∀ d', s.holder d' ≠ some e) {x : Entry}
    (hx : x.Waits d) (hr : x.record = none) {q : List Nat} (hq : q.Perm (e :: s.grantQueue d)) :
    ((s.setGrantQueue d q).setEntry e x).GrantedBut none where
  holders := by
    intro d' f hf _
    have hfe : f ≠ e := fun hfe => hh d' (hfe ▸ hf)
    rw [State.entry_setEntry_of_ne _ _ hfe]
    exact h.holders hf (by simp)
  nodup := by
    intro d'
    by_cases hd' : d' = d
    · subst hd'
      have : ((s.setGrantQueue d' q).setEntry e x).grantQueue d' = q := State.grantQueue_setGrantQueue_self ..
      rw [this, hq.nodup_iff]
      exact List.nodup_cons.mpr ⟨he d', h.nodup d'⟩
    · have : ((s.setGrantQueue d q).setEntry e x).grantQueue d' = s.grantQueue d' :=
        State.grantQueue_setGrantQueue_of_ne _ _ hd'
      rw [this]
      exact h.nodup d'
  queued := by
    intro d' f hf _
    by_cases hd' : d' = d
    · subst hd'
      have hself : ((s.setGrantQueue d' q).setEntry e x).grantQueue d' = q := State.grantQueue_setGrantQueue_self ..
      have hmem : f ∈ e :: s.grantQueue d' := hq.mem_iff.mp (hself ▸ hf)
      by_cases hfe : f = e
      · rw [hfe, State.entry_setEntry_self]; exact hx
      · rw [State.entry_setEntry_of_ne _ _ hfe]
        exact h.queued ((List.mem_cons.mp hmem).resolve_left hfe) (by simp)
    · have hother : ((s.setGrantQueue d q).setEntry e x).grantQueue d' = s.grantQueue d' :=
        State.grantQueue_setGrantQueue_of_ne _ _ hd'
      have hmem : f ∈ s.grantQueue d' := hother ▸ hf
      have hfe : f ≠ e := fun hfe => he d' (hfe ▸ hmem)
      rw [State.entry_setEntry_of_ne _ _ hfe]
      exact h.queued hmem (by simp)
  records := (h.setEntry_but (x := x) (by simp [Entry.RecordInClosing, hr])).records

/-- R120: without its holder a destination is in order. -/
theorem vacated (h : s.GrantedBut a) (d : Nat) : (s.setHolder d none).GrantedBut a where
  holders := by
    intro d' f hf hne
    by_cases hd' : d' = d
    · subst hd'
      exact absurd ((State.holder_setHolder_self ..).symm.trans hf) (by simp)
    · exact h.holders ((State.holder_setHolder_of_ne _ _ hd').symm.trans hf) hne
  nodup := h.nodup
  queued := h.queued
  records := h.records

/-- R120: with its own destination vacated, an entry that stands in no queue is out of the GA. -/
theorem released {e d : Nat} (h : s.GrantedBut (some e)) (ho : ∀ d', s.holder d' = some e → d' = d)
    (hq : ∀ d', e ∉ s.grantQueue d') : (s.setHolder d none).GrantedBut none := by
  refine (h.vacated d).all ⟨fun d' hd' => ?_, hq⟩
  by_cases hd : d' = d
  · subst hd
    exact absurd ((State.holder_setHolder_self ..).symm.trans hd') (by simp)
  · exact hd (ho d' ((State.holder_setHolder_of_ne _ _ hd).symm.trans hd'))

/-- A shorter queue is in order. -/
theorem shortened (h : s.GrantedBut a) {d : Nat} {q : List Nat} (hq : q.Sublist (s.grantQueue d)) :
    (s.setGrantQueue d q).GrantedBut a where
  holders := h.holders
  nodup := by
    intro d'
    by_cases hd' : d' = d
    · subst hd'
      rw [State.grantQueue_setGrantQueue_self]
      exact (h.nodup d').sublist hq
    · rw [State.grantQueue_setGrantQueue_of_ne _ _ hd']
      exact h.nodup d'
  queued := by
    intro d' f hf hne
    by_cases hd' : d' = d
    · subst hd'
      rw [State.grantQueue_setGrantQueue_self] at hf
      exact h.queued (hq.subset hf) hne
    · rw [State.grantQueue_setGrantQueue_of_ne _ _ hd'] at hf
      exact h.queued hf hne
  records := h.records

theorem record_eq_none (h : s.GrantedBut a) {e : Nat} (he : (s.entry e).state ≠ .closing) : (s.entry e).record = none :=
  by_contra fun hne => he (h.records e hne)

/-- A queued entry stands in no other queue and holds nothing. -/
theorem queued_only (h : s.GrantedBut none) {e d : Nat} (he : e ∈ s.grantQueue d) :
    (∀ d', s.holder d' ≠ some e) ∧ (∀ d', e ∈ s.grantQueue d' → d' = d) ∧ (s.entry e).record = none := by
  obtain ⟨hst, hd⟩ := h.queued he (by simp)
  refine ⟨h.not_holder ?_, fun d' he' => ?_, h.record_eq_none ?_⟩
  · rcases hst with hw | ⟨hw, _⟩ <;> rw [hw] <;> rfl
  · exact (h.queued he' (by simp)).2.symm.trans hd
  · rcases hst with hw | ⟨hw, _⟩ <;> rw [hw] <;> decide

/-- R121: the head of a queue that leaves it is out of the GA. -/
theorem dequeued (h : s.GrantedBut none) {e d : Nat} {rest : List Nat} (hq : s.grantQueue d = e :: rest) :
    (s.setGrantQueue d rest).GrantedBut none ∧ (s.setGrantQueue d rest).Unplaced e := by
  obtain ⟨hh, honly, _⟩ := h.queued_only (e := e) (d := d) (by simp [hq])
  refine ⟨h.shortened (by simp [hq]), hh, fun d' hd' => ?_⟩
  by_cases hdd : d' = d
  · subst hdd
    rw [State.grantQueue_setGrantQueue_self] at hd'
    have := h.nodup d'
    rw [hq] at this
    exact (List.nodup_cons.mp this).1 hd'
  · rw [State.grantQueue_setGrantQueue_of_ne _ _ hdd] at hd'
    exact hdd (honly d' hd')

end State.GrantedBut

/-! ### Requests and releases -/

theorem grantedState_holds {x : Entry} (h : x.state ≠ .suspended ∨ ∃ st, x.resume = some st ∧ st.holds = true) (nt : Nat) :
    (grantedState nt x).holds = true := by
  have hearly : ∀ c : Bool, (if c then BookingState.preroll else .live).holds = true := by decide
  unfold grantedState
  dsimp only
  split
  · exact hearly _
  next st _ hsus hres =>
    obtain ⟨st', hst', hholds⟩ := h.resolve_left (not_not_intro hsus)
    obtain rfl : st = st' := Option.some.inj (hres.symm.trans hst')
    exact hholds
  · exact hearly _

theorem Entry.Waits.grantedState_holds {x : Entry} {d : Nat} (h : x.Waits d) (nt : Nat) :
    (grantedState nt x).holds = true :=
  Machine.grantedState_holds (h.1.imp (fun hw => by simp [hw]) (fun hw => hw.2)) nt

namespace State.GrantedBut

variable {s : State}

/-- R117, R118, R101: a request of a SCHEDULED booking. -/
theorem gaRequest (h : s.GrantedBut none) {b : Nat} (hb : (s.entry b).state = .scheduled) :
    (gaRequest b s).GrantedBut none := by
  have hun : s.Unplaced b := h.unplaced (by rw [hb]; rfl) (by simp [hb]) (by simp [hb])
  have hrec : (s.entry b).record = none := h.record_eq_none (by simp [hb])
  have hst := Machine.grantedState_holds (x := s.entry b) (.inl (by simp [hb])) s.tb.seconds
  unfold Machine.gaRequest
  dsimp only
  split
  · refine (h.granted hun hrec hst rfl s.tb.seconds).congr ?_ ?_
    · simp
    · simp [btGranted]
  next a ha =>
    obtain ⟨hholds, hdest⟩ := h.holders ha (by simp)
    have hab : b ≠ a := by rintro rfl; rw [hb] at hholds; exact absurd hholds (by decide)
    split
    · have hwaits : (s.entry a).suspend.Waits (s.entry b).desc.dest := ⟨.inr ⟨rfl, _, rfl, hholds⟩, hdest⟩
      have hjoin : (((s.setHolder (s.entry b).desc.dest none).setGrantQueue (s.entry b).desc.dest
          (gaInsert s a (s.grantQueue (s.entry b).desc.dest))).setEntry a (s.entry a).suspend).GrantedBut none := by
        refine (h.vacated _).joined (h.not_queued hholds) (fun d' hd' => ?_) hwaits (h.record_eq_none (e := a) ?_)
          (gaInsert_perm ..)
        · by_cases hd : d' = (s.entry b).desc.dest
          · subst hd
            exact absurd ((State.holder_setHolder_self ..).symm.trans hd') (by simp)
          · have := (h.holders ((State.holder_setHolder_of_ne _ _ hd).symm.trans hd') (by simp)).2
            exact hd (this.symm.trans hdest)
        · intro hc; rw [hc] at hholds; exact absurd hholds (by decide)
      have hbe : (((s.setHolder (s.entry b).desc.dest none).setGrantQueue (s.entry b).desc.dest
          (gaInsert s a (s.grantQueue (s.entry b).desc.dest))).setEntry a (s.entry a).suspend).entry b = s.entry b :=
        State.entry_setEntry_of_ne _ _ hab
      refine (hjoin.granted (e := b) (d := (s.entry b).desc.dest)
        (hjoin.unplaced (by rw [hbe, hb]; rfl) (by simp [hbe, hb]) (by simp [hbe, hb])) (by rw [hbe, hrec])
        hst (by rw [hbe]) s.tb.seconds).congr ?_ ?_
      · simp [gaJoin, State.setHolder, State.setGrantQueue, Tbl.set_set]
      · simp [btGranted, btSuspended_entry_of_ne hab, hbe]
        simp [State.setEntry, btSuspended, gaJoin, Entry.suspend]
    · refine (h.joined (d := (s.entry b).desc.dest) hun.2 hun.1 (x := { s.entry b with state := .waiting })
        ⟨.inl rfl, rfl⟩ hrec (gaInsert_perm s b _)).congr ?_ ?_
      · simp [gaJoin]
      · simp [btQueued, gaJoin]

/-- R120, R121: the release of `a`, which is out of the queues and may hold only `d`. -/
theorem gaRelease {a d : Nat} (h : s.GrantedBut (some a)) (ho : ∀ d', s.holder d' = some a → d' = d)
    (hq : ∀ d', a ∉ s.grantQueue d') : (gaRelease d a s).GrantedBut none := by
  have hrel := h.released ho hq
  unfold Machine.gaRelease
  split
  next e rest _ hqueue =>
    have hqueue' : (s.setHolder d none).grantQueue d = e :: rest := hqueue
    obtain ⟨hgrant, hun⟩ := hrel.dequeued hqueue'
    obtain ⟨_, _, hrec⟩ := hrel.queued_only (e := e) (d := d) (by simp [hqueue])
    have hwaits : (s.entry e).Waits d := hrel.queued (e := e) (d := d) (by simp [hqueue]) (by simp)
    refine (hgrant.granted hun hrec (hwaits.grantedState_holds s.tb.seconds) hwaits.2 s.tb.seconds).congr ?_ ?_
    · simp [State.setHolder, State.setGrantQueue, Tbl.set_set]
    · simp [btGranted]
      simp [State.setEntry]
  · exact hrel.congr (by simp) (by simp)

/-- R122: the withdrawal of `a`, which holds nothing and may wait only for its own destination. -/
theorem gaWithdraw {a : Nat} (h : s.GrantedBut (some a)) (hh : ∀ d, s.holder d ≠ some a)
    (ho : ∀ d, a ∈ s.grantQueue d → d = (s.entry a).desc.dest) : (gaWithdraw a s).GrantedBut none := by
  unfold Machine.gaWithdraw
  refine (h.shortened List.filter_sublist).all ⟨hh, fun d hd => ?_⟩
  by_cases hda : d = (s.entry a).desc.dest
  · rw [hda, State.grantQueue_setGrantQueue_self] at hd
    simp at hd
  · rw [State.grantQueue_setGrantQueue_of_ne _ _ hda] at hd
    exact hda (ho d hd)

end State.GrantedBut

/-! ### Closing -/

theorem gaRelease_entry_of_not_queued {a d : Nat} {s : State} (h : a ∉ s.grantQueue d) :
    (gaRelease d a s).entry a = s.entry a := by
  unfold gaRelease
  split
  next e rest _ hq =>
    have hne : a ≠ e := by rintro rfl; simp [hq] at h
    simp [btGranted_entry_of_ne hne]
  · simp

namespace State.GrantedBut

variable {s : State}

/-- R112: an entry that enters CLOSING leaves the GA. -/
theorem btLeaveGa (h : s.GrantedBut none) {e : Nat} {x : Entry} (hst : x.state = .closing)
    (hd : x.desc.dest = (s.entry e).desc.dest) :
    (btLeaveGa e (s.entry e).state (s.setEntry e x)).GrantedBut none ∧
    (btLeaveGa e (s.entry e).state (s.setEntry e x)).entry e = x := by
  have hbut : (s.setEntry e x).GrantedBut (some e) := h.setEntry_but fun _ => hst
  unfold Machine.btLeaveGa
  rw [State.entry_setEntry_self, hd]
  split
  next hholds =>
    have hq : ∀ d, e ∉ (s.setEntry e x).grantQueue d := h.not_queued hholds
    have ho : ∀ d, (s.setEntry e x).holder d = some e → d = (s.entry e).desc.dest := fun d hd' => by
      have hd' : s.holder d = some e := hd'
      exact (h.holders hd' (by simp)).2.symm
    exact ⟨hbut.gaRelease ho hq, by rw [gaRelease_entry_of_not_queued (hq _), State.entry_setEntry_self]⟩
  next hholds =>
    have hh := h.not_holder (by simpa using hholds)
    split
    · refine ⟨hbut.gaWithdraw hh fun d' hd' => ?_, ?_⟩
      · rw [State.entry_setEntry_self, hd]
        exact (h.queued hd' (by simp)).2.symm
      · rw [gaWithdraw_entry, State.entry_setEntry_self]
    next hw =>
      simp only [Bool.or_eq_true, beq_iff_eq, not_or] at hw
      exact ⟨hbut.all (h.unplaced (by simpa using hholds) hw.1 hw.2), State.entry_setEntry_self ..⟩

theorem closing_unplaced (h : s.GrantedBut none) {e : Nat} (he : (s.entry e).state = .closing) : s.Unplaced e :=
  h.unplaced (by rw [he]; rfl) (by simp [he]) (by simp [he])

theorem raise (h : s.GrantedBut none) (cls : EventClass) (kind subject : Nat) (words : List Nat) :
    (raise cls kind subject words s).GrantedBut none :=
  h.congr (by simp) (by simp)

theorem btFetch (h : s.GrantedBut none) {e : Nat} (he : s.Unplaced e) (addr : Nat) (origin : LoadOrigin) :
    (btFetch e addr origin s).GrantedBut none := by
  have hset := h.setEntry_unplaced he (x := { Entry.blank with
    state := .fetching, origin := origin, address := addr, fetchTag := some s.lpu.nextTag })
    (fun hne => absurd rfl hne)
  exact hset.congr (by simp [Machine.btFetch]) (by simp [Machine.btFetch])

/-- R113: an entry in CLOSING that leaves it is EMPTY or FETCHING. -/
theorem btLeaveClosing (h : s.GrantedBut none) {e : Nat} (he : (s.entry e).state = .closing) :
    (btLeaveClosing e s).GrantedBut none := by
  have hun := h.closing_unplaced he
  have hset : (s.setEntry e .blank).GrantedBut none := h.setEntry_unplaced hun fun hne => absurd rfl hne
  have hev := hset.raise .booking 1 e [(s.entry e).desc.ref, BookingState.closing.num, BookingState.empty.num, 0]
  unfold Machine.btLeaveClosing
  dsimp only
  split
  · refine hev.btFetch ⟨fun d => ?_, fun d => ?_⟩ _ _
    · rw [raise_holder]; exact hun.1 d
    · rw [raise_grantQueue]; exact hun.2 d
  · exact hev

/-- R191: the record of an entry in CLOSING is placed. -/
theorem rwPlaceFinal (h : s.GrantedBut none) {e : Nat} (he : (s.entry e).state = .closing) (r : BillRecord) :
    (rwPlaceFinal e r s).GrantedBut none := by
  have hset : ∀ x : Option BillRecord, (s.setEntry e { s.entry e with record := x }).GrantedBut none := fun x =>
    h.setEntry_unplaced (h.closing_unplaced he) fun _ => he
  have hst : ∀ x : Option BillRecord, ((s.setEntry e { s.entry e with record := x }).entry e).state = .closing := by
    intro x; rw [State.entry_setEntry_self]; exact he
  unfold Machine.rwPlaceFinal
  split
  · refine btLeaveClosing ((hset none).congr (by simp [modEntry]) (by simp [modEntry])) ?_
    rw [rwAccept_entry]
    exact hst none
  · split
    · refine btLeaveClosing ((hset none).congr (by simp [modEntry]) (by simp [modEntry])) ?_
      rw [rwBillingEvent_entry]
      exact hst none
    · exact (hset (some r)).raise ..

theorem btClose (h : s.GrantedBut none) (e : Nat) (reason : CloseReason) : (btClose e reason s).GrantedBut none := by
  have hcount : (s.withBt { s.bt with closeCount := satAdd max64 s.bt.closeCount 1 }).GrantedBut none := h.congr rfl rfl
  obtain ⟨hleave, hentry⟩ := hcount.btLeaveGa (e := e) (x := { s.entry e with
    state := .closing, reason := reason, closeSeq := some (satAdd max64 s.bt.closeCount 1) }) rfl rfl
  refine rwPlaceFinal (raise hleave ..) ?_ _
  rw [raise_entry]
  exact congrArg Entry.state hentry

end State.GrantedBut

/-! ### Every row -/

theorem Entry.Aside.setEntry {s : State} {e : Nat} {x : Entry} (hx : (s.entry e).Aside x) (h : s.GrantedBut none) :
    (s.setEntry e x).GrantedBut none := by
  obtain ⟨hst, hres, hrec, hdest, -⟩ := hx
  refine h.setEntry ?_ ?_ ?_
  · intro hne
    rw [hst]
    exact h.records e (hrec ▸ hne)
  · intro d ⟨hh, hd⟩
    exact ⟨hst ▸ hh, hdest ▸ hd⟩
  · intro d ⟨hw, hd⟩
    refine ⟨?_, hdest ▸ hd⟩
    rw [hst, hres]
    exact hw

theorem granted_booking : Booking (fun _ => True) (State.GrantedBut none) where
  raise h := h.raise ..
  route _ h := h.congr rfl rfl
  delivery _ h := h.congr rfl rfl
  feed _ h := h.congr rfl rfl
  counts hx h := hx.aside.setEntry h
  latch _ h := h.congr rfl rfl
  forward h := h.congr (by simp) (by simp)
  hold _ _ _ h := h.congr rfl rfl
  join _ h := h.congr rfl rfl
  free _ h := h.congr rfl rfl
  aside hx h := hx.setEntry h
  requestCount h := h.congr rfl rfl
  request hb h := h.gaRequest hb
  close _ h := h.btClose ..
  closeAny h := h.btClose ..
  move := by
    intro e nt st s he hst h
    have hrec := h.record_eq_none (e := e) (by intro hc; rw [hc] at he; exact absurd he (by decide))
    refine h.setEntry ?_ ?_ ?_
    · exact fun hne => absurd ((Entry.enter_record ..).trans hrec) hne
    · exact fun d hd => ⟨by rw [Entry.enter_state]; exact hst, by rw [Entry.enter_desc]; exact hd.2⟩
    · rintro d ⟨hw | ⟨hw, _⟩, _⟩ <;> rw [hw] at he <;> exact absurd he (by decide)
  resume := by
    intro e s he h
    refine h.setEntry ?_ ?_ ?_
    · exact fun hne => absurd (h.record_eq_none (by simp [he])) hne
    · exact fun d hd => hd
    · exact fun d hd => ⟨.inr ⟨he, _, rfl, rfl⟩, hd.2⟩
  schedule he h := h.setEntry_unplaced (h.unplaced (by rw [he]; rfl) (by simp [he]) (by simp [he]))
    fun hne => absurd rfl hne
  blank he h := h.setEntry_unplaced (h.unplaced (by rw [he]; rfl) (by simp [he]) (by simp [he]))
    fun hne => absurd rfl hne
  fetch he h := h.btFetch (h.unplaced (by rw [he]; rfl) (by simp [he]) (by simp [he])) _ _
  checkpoint h := h.congr (by simp) (by simp)

theorem rwPassQueue_ga (n : Nat) (s : State) : (rwPassQueue n s).ga = s.ga := by
  induction n generalizing s with
  | zero => rfl
  | succ n ih =>
    unfold rwPassQueue
    split
    · rfl
    · split
      · rfl
      · rw [ih, rwAccept_ga]
        rfl

theorem rwPassQueue_bt (n : Nat) (s : State) : (rwPassQueue n s).bt = s.bt := by
  induction n generalizing s with
  | zero => rfl
  | succ n ih =>
    unfold rwPassQueue
    split
    · rfl
    · split
      · rfl
      · rw [ih, rwAccept_bt]
        rfl

theorem State.GrantedBut.rwPassEntries (n : Nat) : ∀ {s : State}, s.GrantedBut none →
    (rwPassEntries n s).GrantedBut none := by
  induction n with
  | zero => exact fun h => h
  | succ n ih =>
    intro s h
    unfold Machine.rwPassEntries
    split
    · exact h
    · split
      · exact h
      · split
        · exact h
        next hr => exact ih (h.rwPlaceFinal (h.records _ (by simp [hr])) _)

theorem granted_whole : Whole (State.GrantedBut none) where
  toBooking := granted_booking
  tb h := h.congr rfl rfl
  cu h := h.congr rfl rfl
  fm h := h.congr rfl rfl
  ru h := h.congr rfl rfl
  mu h := h.congr rfl rfl
  ga h :=
    { holders := fun hd => absurd hd (by simp [State.holder, Ga.afterReset, Tbl.get])
      nodup := fun d => by simp [State.grantQueue, Ga.afterReset, Tbl.get]
      queued := fun hd => absurd hd (by simp [State.grantQueue, Ga.afterReset, Tbl.get])
      records := h.records }
  rw _ h := h.congr rfl rfl
  lpu _ h := h.congr rfl rfl
  age h := h.congr rfl rfl
  result h := h.congr (by simp) (by simp)
  ringward h := State.GrantedBut.rwPassEntries _
    (h.congr (by rw [rwPassQueue_ga]; rfl) (by rw [rwPassQueue_bt]; rfl))
  powerOn _ :=
    { holders := fun hd => absurd hd (by simp [powerOnReset, State.holder, Ga.afterReset, Tbl.get])
      nodup := fun d => by simp [powerOnReset, State.grantQueue, Ga.afterReset, Tbl.get]
      queued := fun hd => absurd hd (by simp [powerOnReset, State.grantQueue, Ga.afterReset, Tbl.get])
      records := fun _ hne => absurd rfl hne }
  assertion _ :=
    { holders := fun hd => absurd hd (by simp [resetAssertion, State.withGa, State.holder, Ga.afterReset, Tbl.get])
      nodup := fun d => by simp [resetAssertion, State.withGa, State.grantQueue, Ga.afterReset, Tbl.get]
      queued := fun hd => absurd hd (by simp [resetAssertion, State.withGa, State.grantQueue, Ga.afterReset, Tbl.get])
      records := fun _ hne => absurd rfl hne }

/-- Settles O9: a booking holds or waits only in the states in which the GA has put it there; a close takes it out of the GA
before its record is placed. -/
theorem stepKeepsTheGrants : Obligations.StepKeepsTheGrants := by
  intro s t hs ht
  rw [State.grantsInOrder_iff] at hs ⊢
  exact granted_whole.step hs (fun _ => hs.congr rfl rfl) ht

/-- Settles O6: at reset every queue, table and ring is empty. -/
theorem invariantsHoldAtReset : Obligations.InvariantsHoldAtReset := by
  refine ⟨rfl, rfl, ?_, ?_, ?_⟩
  · exact fun d e h => absurd h (by simp [State.reset, State.holder, Ga.afterReset, Tbl.get])
  · exact fun d => by simp [State.reset, State.grantQueue, Ga.afterReset, Tbl.get]
  · exact fun e h => absurd rfl h

end Sys2Proof.Machine
end

section
/-! SUPPORT. The reset rows, the classes of requests and what each class's requests do: the step, power-on reset and its
assertion (O1, O3, O4, O5), classification (O10), unreported requests (O11), access faults (O12) and command slots (O13). -/

namespace Sys2Proof.Machine

/-! ### The step and the reset rows -/

/-- Settles O1: the definition of the step by the queue. -/
theorem stepRunsTheFrontCommand : Obligations.StepRunsTheFrontCommand :=
  ⟨fun _ _ _ => rfl, fun s h => by rw [step, h]⟩

theorem resetMask_getLsbD (i : Nat) : Rw.afterReset.mask.getLsbD i = decide (i < 9 ∧ i ≠ 2) := by
  have hlow : ∀ j < 32, (0x1FB : Word).getLsbD j = decide (j < 9 ∧ j ≠ 2) := by decide
  rcases Nat.lt_or_ge i 32 with hi | hi
  · exact hlow i hi
  · rw [BitVec.getLsbD_of_ge _ _ hi, eq_comm, decide_eq_false_iff_not]
    omega

/-- Settles O3: every table of the reset state lists nothing, so each object rests at its value. -/
theorem resetLeavesTheTables : Obligations.ResetLeavesTheTables := by
  rintro s rfl
  refine ⟨⟨rfl, rfl, fun _ => ⟨rfl, rfl⟩, fun _ => ⟨rfl, rfl⟩, rfl, rfl, rfl, rfl, rfl, rfl, rfl⟩,
    ⟨fun _ => rfl, rfl, rfl, rfl, rfl⟩,
    ⟨fun id => by cases id <;> rfl, rfl, resetMask_getLsbD, rfl, rfl, rfl, rfl, rfl, rfl, rfl, rfl, rfl⟩,
    ⟨rfl, rfl, rfl, rfl, rfl, rfl, rfl, rfl, rfl, rfl, rfl, rfl, rfl, rfl, rfl⟩,
    fun _ => ⟨rfl, rfl⟩, ⟨fun _ => rfl, rfl, rfl⟩, fun _ => ⟨rfl, rfl, rfl, rfl, rfl⟩, fun _ => rfl⟩

theorem exec_powerOnReset (base : BitVec 20) (init : Initiator) (s : State) :
    exec (.powerOnReset base init) s = .next (powerOnReset base init s) := by rfl

/-- Settles O4. -/
theorem powerOnResetRestoresEveryBlock : Obligations.PowerOnResetRestoresEveryBlock := by
  intro base init s
  rw [exec_powerOnReset, powerOnReset, resetErrors, ← List.flatMap_def]
  rfl

theorem exec_resetAssertion (s : State) : exec .resetAssertion s = .next (resetAssertion s) := by rfl

/-- R2: while the reset input is asserted a request is held back. -/
theorem lpuReceive_of_resetAsserted {s : State} (h : s.lpu.resetAsserted = true) (r : Request) : lpuReceive r s = s := by
  simp [lpuReceive, lpuAccepts, h]

/-- R61: nor is a mark counted. -/
theorem exec_referenceMark_of_resetAsserted {s : State} (h : s.lpu.resetAsserted = true) (u : Nat) :
    exec (.referenceMark u) s = .next s := by
  have hdef : exec (.referenceMark u) s = .next (if s.lpu.resetAsserted then s else
    tbMark (timeTo (max s.tb.subMicros (min 999 u)) s)) := by rfl
  rw [hdef, if_pos h]

section
variable (r : Request) (s : State)

theorem exec_controlAreaRequest : exec (.controlAreaRequest r) s = .next (lpuReceive r s) := by rfl
theorem exec_ringWrite : exec (.ringWrite r) s = .next (lpuReceive r s) := by rfl
theorem exec_ringRead : exec (.ringRead r) s = .next (lpuReceive r s) := by rfl
theorem exec_windowWrite : exec (.windowWrite r) s = .next (lpuReceive r s) := by rfl
theorem exec_otherRequest : exec (.otherRequest r) s = .next (lpuReceive r s) := by rfl

end

/-- Settles O5: the assertion takes away what R2 names, and the LPU and the TB look at the level of the input first. -/
theorem resetAssertionStopsThePart : Obligations.ResetAssertionStopsThePart := by
  intro s
  have hrec : ∀ r, lpuReceive r (resetAssertion s) = resetAssertion s := lpuReceive_of_resetAsserted rfl
  refine ⟨_, exec_resetAssertion s, rfl, rfl, rfl, rfl, fun _ => rfl, fun _ => ⟨rfl, rfl⟩, fun r => ?_,
    exec_referenceMark_of_resetAsserted rfl⟩
  rw [exec_commandSlotWrite, exec_consumerIndexWrite, exec_controlAreaRequest, exec_ringWrite, exec_ringRead,
    exec_windowRead, exec_windowWrite, exec_otherRequest, hrec]
  exact ⟨rfl, rfl, rfl, rfl, rfl, rfl, rfl, rfl⟩

/-! ### Classes -/

theorem Region.contains_iff {size a : Nat} {x : Region} : x.contains size a = true ↔ x.Covers size a := by
  simp [Region.contains, Region.Covers]

/-- The lowest-numbered object whose region covers the address is the one found. -/
theorem findRegion_eq_some {n size a i : Nat} {definition : Nat → Option Region} {x : Region} (hi : i < n)
    (hx : definition i = some x) (hc : x.Covers size a)
    (hlow : ∀ j y, j < i → definition j = some y → ¬y.Covers size a) : findRegion n size a definition = some i := by
  rw [findRegion, List.find?_range_eq_some]
  refine ⟨by simpa [hx] using Region.contains_iff.mpr hc, List.mem_range.mpr hi, fun j hj => ?_⟩
  cases hd : definition j with
  | none => rfl
  | some y => simpa [← Region.contains_iff] using hlow j y hj hd

theorem findRegion_eq_none {n size a : Nat} {definition : Nat → Option Region}
    (h : ∀ j y, j < n → definition j = some y → ¬y.Covers size a) : findRegion n size a definition = none := by
  rw [findRegion, List.find?_eq_none]
  intro j hj
  cases hd : definition j with
  | none => simp
  | some y => simpa [Region.contains_iff] using h j y (List.mem_range.mp hj) hd

/-- Settles O10: the clauses are the branches of the classification, in its order. -/
theorem classifyTakesTheFirstRegion : Obligations.ClassifyTakesTheFirstRegion := by
  intro s a
  refine ⟨fun hlo hhi => if_pos (by simp [hlo, hhi]), fun hc => ?_⟩
  have hout : ¬(decide (s.controlBase ≤ a) && decide (a < s.controlBase + 1048576)) = true := by simpa using hc
  refine ⟨fun hm => ?_, fun hm => ⟨?_, fun hnoRing => ⟨?_, ?_⟩⟩⟩
  · rw [classify, if_neg hout, if_pos hm]
  · intro f x hf hx hcov hlow
    simp only [classify, if_neg hout, if_neg hm, findRegion_eq_some (size := regionSize s) hf hx hcov hlow, hx,
      Option.map_some, Option.getD_some]
  · intro d x hd hx hcov hlow
    simp only [classify, if_neg hout, if_neg hm, findRegion_eq_none (size := regionSize s) hnoRing,
      findRegion_eq_some (size := regionSize s) hd hx hcov hlow]
  · intro hnoWindow
    simp only [classify, if_neg hout, if_neg hm, findRegion_eq_none (size := regionSize s) hnoRing,
      findRegion_eq_none (size := regionSize s) hnoWindow]

/-! ### Requests of each class -/

theorem lpuReceive_of_other {s : State} {r : Request} (h : lpuAccepts s = true) (hc : classify s r.addr.toNat = .other) :
    lpuReceive r s = s.passed r := by
  simp only [lpuReceive_of_accepts h, lpuTreat_eq, hc, lpuPass_of_accepts h]

/-- R11: what is neither a command slot write nor a 4-byte write of a consumer word is not reported. -/
theorem lpuSnoop_of_unreported {offset : Nat} {r : Request}
    (h : r.kind = .read ∨ 0x400 ≤ offset ∧ (r.len ≠ 4 ∨ offset ≠ 0x404 ∧ offset ≠ 0x40C ∧ offset ≠ 0x414)) (s : State) :
    lpuSnoop offset r s = s := by
  unfold lpuSnoop
  rcases h with hread | ⟨ho, hlen | ⟨h1, h2, h3⟩⟩
  · rw [if_pos hread]
  · simp [Nat.not_lt.2 ho, hlen]
  · simp [Nat.not_lt.2 ho, consumerWord, h1, h2, h3]

section
variable {s : State} {f w o : Nat} {x : Region} {r : Request}

/-- R10, R12: a request at an offset of a ring. -/
theorem RingAt.lpuReceive_eq (h : RingAt s f w o x r) : lpuReceive r s = lpuRing f (r.addr.toNat - x.base.toNat) r s := by
  obtain ⟨hacc, _, hclass, _⟩ := h
  simp only [lpuReceive_of_accepts hacc, lpuTreat_eq, hclass]

/-- R12: a monitor's read of a ring is passed. -/
theorem RingAt.lpuReceive_of_monitor (h : RingAt s f w o x r) (hkind : r.kind = .read)
    (hm : r.initiator.toNat ∈ s.lpu.monitors) : lpuReceive r s = s.passed r := by
  rw [h.lpuReceive_eq]
  simp [lpuRing, hkind, hm, lpuPass_of_accepts h.1]

/-- R12: a write of the assigned writer is passed and observed. -/
theorem WriterAt.lpuReceive_eq (h : WriterAt s f w o r) : lpuReceive r s =
    if o = 0 then (if 16 ≤ r.len then fmHeaderWrite f w (r.data.take 16) (s.passed r) else fmPartialWrite f w (s.passed r))
    else if o + r.len = 2048 then fmCompletion f w (s.passed r) else s.passed r := by
  obtain ⟨hkind, x, hring, hagent⟩ := h
  obtain ⟨hacc, hdef, _, hw, ho⟩ := id hring
  rw [hring.lpuReceive_eq, lpuRing, hkind, lpuPass_of_accepts hacc, lpuObserve, ← hw, ← ho]
  simp [hdef, hagent]

end

/-- Settles O11: in each of the four classes nothing is reported, and the request is passed. -/
theorem unreportedRequestsPassUnchanged : Obligations.UnreportedRequestsPassUnchanged := by
  intro s r
  refine ⟨fun hacc hc => ?_, fun offset hctl hun => ?_, fun f w o x hring hkind hm => ?_, fun f w o hwr ho hlen => ?_⟩
  · rw [exec_otherRequest, lpuReceive_of_other hacc hc]
  · rw [exec_controlAreaRequest, hctl.lpuReceive_eq, lpuSnoop_of_unreported hun]
  · rw [exec_ringRead, hring.lpuReceive_of_monitor hkind hm]
  · rw [exec_ringWrite, hwr.lpuReceive_eq, if_neg ho, if_neg hlen]

/-! ### Access faults -/

/-- R12, R14: an unauthorised read is answered ERROR, counted, and raises its ACCESS event. -/
theorem lpuUnauthorisedRead_raised (kind subject : Nat) (r : Request) (s : State) :
    Raised .access kind subject (accessWords r)
      ((s.answered r .error).withLpu { (s.answered r .error).lpu with
        unauthReads := min 4294967295 (s.lpu.unauthReads + 1) }) (lpuUnauthorisedRead kind subject r s) :=
  raise_raised ..

theorem lpuForeignWrite_raised (f : Nat) (r : Request) (s : State) :
    Raised .access 1 f (accessWords r)
      ((s.answered r .error).setForeignWrites f (min 4294967295 (s.foreignWrites f + 1))) (lpuForeignWrite f r s) :=
  raise_raised ..

theorem lpuWindowWrite_raised (d : Nat) (r : Request) (s : State) :
    Raised .access 4 d (accessWords r)
      ((s.answered r .error).withLpu { (s.answered r .error).lpu with
        windowWrites := min 4294967295 (s.lpu.windowWrites + 1) }) (lpuWindowWrite d r s) :=
  raise_raised ..

/-- Settles O12: each of the four requests is refused by the initiator or the kind, and the refusal is the act named. -/
theorem accessFaultsAreCountedAndAnswered : Obligations.AccessFaultsAreCountedAndAnswered := by
  intro s r
  refine ⟨fun f w o x hring hkind hagent => ?_, fun f w o x hring hkind hm => ?_, fun d x hacc hc hdef hkind hagent => ?_,
    fun d hacc hc hkind => ?_⟩
  · refine ⟨_, exec_ringWrite r s, ?_⟩
    have hrefused : lpuReceive r s = lpuForeignWrite f r s := by
      rw [hring.lpuReceive_eq]
      simp [lpuRing, hkind, hring.2.1, hagent]
    rw [hrefused]
    exact lpuForeignWrite_raised f r s
  · refine ⟨_, exec_ringRead r s, ?_⟩
    have hrefused : lpuReceive r s = lpuUnauthorisedRead 2 f r s := by
      rw [hring.lpuReceive_eq]
      simp [lpuRing, hkind, hm]
    rw [hrefused]
    exact lpuUnauthorisedRead_raised 2 f r s
  · refine ⟨_, exec_windowRead r s, ?_⟩
    have hrefused : lpuReceive r s = lpuUnauthorisedRead 3 d r s := by
      rw [lpuReceive_of_accepts hacc, lpuTreat_of_window hc]
      simp [lpuWindow, hkind, hdef, hagent]
    rw [hrefused]
    exact lpuUnauthorisedRead_raised 3 d r s
  · refine ⟨_, exec_windowWrite r s, ?_⟩
    have hrefused : lpuReceive r s = lpuWindowWrite d r s := by
      rw [lpuReceive_of_accepts hacc, lpuTreat_of_window hc, lpuWindow, hkind]
    rw [hrefused]
    exact lpuWindowWrite_raised d r s

/-! ### Command slots -/

/-- Settles O13: the report of a full block write reaches the CU after the request has been passed, and the CU's three
cases are those of the slot and of the busy list. -/
theorem commandWriteIsCapturedOrBusy : Obligations.CommandWriteIsCapturedOrBusy := by
  intro s r offset hctl ho hkind hlen hdata hcode
  have hexec : exec (.commandSlotWrite r) s = .next (cuSlotWrite (offset / 64) true r.data (s.passed r)) := by
    rw [exec_commandSlotWrite, hctl.lpuReceive_eq, lpuSnoop_of_commandSlot hkind ho]
    simp [hlen]
  have htake : r.data.take 64 = r.data := List.take_of_length_le (le_of_eq hdata)
  have hslot : (s.passed r).slotData (offset / 64) = s.slotData (offset / 64) := rfl
  have hbusy : (s.passed r).cu = s.cu := rfl
  rw [hexec, cuSlotWrite]
  refine ⟨fun hfree => ?_, fun hocc hnone => ?_, fun hocc hany => ?_⟩
  · simp [hcode, hslot, hfree, htake]
    rfl
  · obtain ⟨bytes, hbytes⟩ := Option.ne_none_iff_exists'.mp hocc
    have hany : s.cu.busy.any (fun b => b.slot == offset / 64) = false := by simpa using hnone
    simp [hcode, hslot, hbytes, hbusy, -List.any_eq_true, hany]
  · obtain ⟨bytes, hbytes⟩ := Option.ne_none_iff_exists'.mp hocc
    simp [hcode, hslot, hbytes, hbusy, hany]
    rfl

end Sys2Proof.Machine
end

section
/-! SUPPORT. The memory side: the waiting own requests (O18), the responses that return upstream (O19) and the read errors of
windows (O20). -/

namespace Sys2Proof.Machine

/-! ### Own requests -/

theorem exec_ownRequestSubmit (s : State) : exec .ownRequestSubmit s = .next (rwSubmitWaiting s) := by rfl

/-- R34, R42: a producer word that goes downstream publishes its index, and the notice line is looked at again. -/
theorem lpuGrantOwn_of_producer {o : OwnRequest} {id : RingId} {index : Nat} (h : o.kind = .producer id index)
    (rest : List OwnRequest) (s : State) : lpuGrantOwn o rest s = rwNotice
      ((s.withLpu { s.lpu with ownQueue := rest, waitingCount := 0, issued := s.lpu.issued ++ [.own o] }).setRing id
        { s.ring id with published := index }) := by
  simp only [lpuGrantOwn, h]
  cases id <;> rfl

/-- Settles O18. -/
theorem ownRequestsKeepTheirOrder : Obligations.OwnRequestsKeepTheirOrder := by
  refine ⟨fun s => ⟨fun o rest hw hroom => ?_, fun h => ?_⟩, fun s o rest id index hr ho hf hk => ?_⟩
  · simp only [exec_ownRequestSubmit, rwSubmitWaiting, hw, hroom, if_true]
  · rw [exec_ownRequestSubmit, rwSubmitWaiting]
    split
    · rfl
    next hw => rw [if_neg (Nat.not_lt.mpr (h.resolve_left (by simp [hw])))]
  · rw [exec_downstreamGrant, lpuGrant_eq_own hr ho (.inr hf), lpuGrantOwn_of_producer hk]
    rfl

/-! ### Responses upstream -/

theorem exec_passedResponse (i : Initiator) (tag : Nat) (resp : Response) (s : State) :
    exec (.passedResponse i tag resp) s = .next (lpuPassedResponse i tag resp s) := by rfl

theorem exec_windowReadResponse (i : Initiator) (tag : Nat) (resp : Response) (s : State) :
    exec (.windowReadResponse i tag resp) s = .next (lpuWindowResponse i tag resp s) := by rfl

/-- Whether a forwarded request was a window read (R21). -/
def Origin.isWindow : Origin → Bool
  | .passed => false
  | .window _ _ => true

theorem isUpstream_iff {window : Bool} {i : Initiator} {tag : Nat} {y : Issued} : y.isUpstream window i tag = true ↔
    ∃ x, y = .upstream x ∧ x.req.initiator = i ∧ x.req.tag = tag ∧ window = x.origin.isWindow := by
  cases y with
  | own o => simp [Issued.isUpstream]
  | upstream x =>
    rcases hx : x.origin with _ | ⟨d, k⟩ <;> simp [Issued.isUpstream, Origin.isWindow, hx, and_assoc]

section
variable {s : State} {x : Forward} {before after : List Issued} {window : Bool}
  (hissued : s.lpu.issued = before ++ .upstream x :: after)
  (hfirst : ∀ y ∈ before, ∀ z, y = .upstream z → z.req.initiator ≠ x.req.initiator ∨ z.req.tag ≠ x.req.tag)
  (hwindow : window = x.origin.isWindow)
include hissued hfirst hwindow

/-- The answered request is the first one under its initiator and tag among those that memory holds. -/
theorem find_isUpstream : s.lpu.issued.find? (Issued.isUpstream window x.req.initiator x.req.tag) = some (.upstream x) := by
  rw [hissued, List.find?_append, List.find?_eq_none.mpr, Option.none_or,
    List.find?_cons_of_pos (isUpstream_iff.mpr ⟨x, rfl, rfl, rfl, hwindow⟩)]
  intro y hy hup
  obtain ⟨z, hz, hi, ht, _⟩ := isUpstream_iff.mp hup
  exact (hfirst y hy z hz).elim (absurd hi) (absurd ht)

theorem eraseP_isUpstream :
    s.lpu.issued.eraseP (Issued.isUpstream window x.req.initiator x.req.tag) = before ++ after := by
  rw [hissued, List.eraseP_append_right, List.eraseP_cons_of_pos (isUpstream_iff.mpr ⟨x, rfl, rfl, rfl, hwindow⟩)]
  intro y hy hup
  obtain ⟨z, hz, hi, ht, _⟩ := isUpstream_iff.mp hup
  exact (hfirst y hy z hz).elim (absurd hi) (absurd ht)

/-- R21: the response has left memory and gone upstream. -/
theorem lpuReturn_answered (resp : Response) :
    lpuReturn x.req.initiator x.req.tag resp (lpuAnswered (Issued.isUpstream window x.req.initiator x.req.tag) s) =
      s.withLpu { s.lpu with
        issued := before ++ after, answers := s.lpu.answers ++ [⟨x.req.initiator, x.req.tag, resp⟩] } := by
  rw [lpuAnswered, eraseP_isUpstream hissued hfirst hwindow]
  rfl

end

/-- R21: the response to a passed request, whole. -/
theorem lpuPassedResponse_eq {s : State} {x : Forward} {before after : List Issued}
    (hissued : s.lpu.issued = before ++ .upstream x :: after)
    (hfirst : ∀ y ∈ before, ∀ z, y = .upstream z → z.req.initiator ≠ x.req.initiator ∨ z.req.tag ≠ x.req.tag)
    (hx : x.origin = .passed) (resp : Response) : lpuPassedResponse x.req.initiator x.req.tag resp s =
      s.withLpu { s.lpu with
        issued := before ++ after, answers := s.lpu.answers ++ [⟨x.req.initiator, x.req.tag, resp⟩] } := by
  have hwindow : false = x.origin.isWindow := by rw [hx]; rfl
  have hany : s.lpu.issued.any (Issued.isUpstream false x.req.initiator x.req.tag) = true :=
    List.any_eq_true.mpr ⟨_, List.mem_of_find?_eq_some (find_isUpstream hissued hfirst hwindow),
      isUpstream_iff.mpr ⟨x, rfl, rfl, rfl, hwindow⟩⟩
  rw [lpuPassedResponse, if_pos hany, lpuReturn_answered hissued hfirst hwindow]

/-- R21, R165: the response to a window read, whole but for what the DM does with an ERROR. -/
theorem lpuWindowResponse_eq {s : State} {x : Forward} {before after : List Issued} {d slot : Nat}
    (hissued : s.lpu.issued = before ++ .upstream x :: after)
    (hfirst : ∀ y ∈ before, ∀ z, y = .upstream z → z.req.initiator ≠ x.req.initiator ∨ z.req.tag ≠ x.req.tag)
    (hx : x.origin = .window d slot) (resp : Response) : lpuWindowResponse x.req.initiator x.req.tag resp s =
      (if resp = .error then dmReadError d slot else id) (s.withLpu { s.lpu with
        issued := before ++ after, answers := s.lpu.answers ++ [⟨x.req.initiator, x.req.tag, resp⟩] }) := by
  have hwindow : true = x.origin.isWindow := by rw [hx]; rfl
  rw [lpuWindowResponse, find_isUpstream hissued hfirst hwindow]
  simp only [lpuReturn_answered hissued hfirst hwindow, hx]
  cases resp <;> rfl

/-- Settles O19. -/
theorem responsesReturnUpstream : Obligations.ResponsesReturnUpstream := by
  intro s x before after resp hissued hfirst t
  refine ⟨fun hx => ?_, fun d slot hx ⟨data, hresp⟩ => ?_⟩
  · rw [exec_passedResponse, lpuPassedResponse_eq hissued hfirst hx]
  · rw [exec_windowReadResponse, lpuWindowResponse_eq hissued hfirst hx, if_neg (by simp [hresp])]
    rfl

/-! ### Read errors of windows -/

/-- R164: what a start of the impairment hold makes of the delivery. -/
theorem dmImpair_delivery_self (d : Nat) (s : State) : (dmImpair d s).delivery d =
    { s.delivery d with
      impairment := max (s.delivery d).impairment (s.destParams d).impairmentHold
      condition := ((dmImpair d s).delivery d).condition } := by
  simp [dmImpair, dmReclass, modDelivery]

/-- R165: a read error while the route stands in RUN or RESTARTING. -/
theorem dmReadError_raised {s : State} {d slot : Nat} {rt : Route} (hroute : s.route d = some rt)
    (hmode : s.lpu.mode ≠ .config) (hreset : s.lpu.resetAsserted = false) :
    ∃ u, Raised .slip 5 d [slot, rt.source.num, (u.delivery d).readErrors] u (dmReadError d slot s) ∧
      u = dmImpair d (modDelivery d (fun x => { x with readErrors := satAdd max32 x.readErrors 1 }) s) := by
  refine ⟨_, ?_, rfl⟩
  simp only [dmReadError, hroute]
  rw [if_neg (by simp [hmode, hreset])]
  exact raise_raised ..

/-- Settles O20: the request that memory answers stands first among those it holds, and R165 is the act of the DM. -/
theorem windowReadErrorIsCounted : Obligations.WindowReadErrorIsCounted := by
  intro s x after d slot rt hissued hx hroute hmode hreset n
  have hreturn := lpuWindowResponse_eq (before := []) hissued (fun _ hy => absurd hy List.not_mem_nil) hx .error
  obtain ⟨u, hraised, hu⟩ := dmReadError_raised (slot := slot) (s := s.withLpu { s.lpu with
    issued := [] ++ after, answers := s.lpu.answers ++ [⟨x.req.initiator, x.req.tag, .error⟩] }) hroute hmode hreset
  have hdel := dmImpair_delivery_self d (modDelivery d (fun x => { x with readErrors := satAdd max32 x.readErrors 1 })
    (s.withLpu { s.lpu with
      issued := [] ++ after, answers := s.lpu.answers ++ [⟨x.req.initiator, x.req.tag, .error⟩] }))
  rw [← hu] at hdel
  have hn : (u.delivery d).readErrors = n := by
    rw [hdel]
    simp [modDelivery]
    rfl
  rw [hn] at hraised
  refine ⟨_, u, exec_windowReadResponse .., ?_, ?_⟩
  · rw [hreturn]
    exact hraised
  · refine ⟨by rw [hu]; rfl, by rw [hu]; rfl, hn, ?_, ?_, ?_, by rw [hu]; rfl, by rw [hu]; rfl, by rw [hu]; rfl,
      by rw [hu]; rfl⟩
    · rw [hdel]; simp [modDelivery]; rfl
    · rw [hdel]; simp [modDelivery]; rfl
    · rw [hdel]; simp [modDelivery]; rfl

end Sys2Proof.Machine
end

section
/-! SUPPORT. What each command row runs, said once; when a command starts (O33), the commands of the region map (O34), of the RW
(O37) and the reports (O38). -/

namespace Sys2Proof.Machine

/-! ### The command rows -/

section
variable (s : State)

theorem exec_busyHandover : exec .busyHandover s = .next (cuBusyHandover s) := by rfl
theorem exec_badCommand : exec .badCommand s = .next (cuBadCommand s) := by rfl
theorem exec_setRingDepth : exec .setRingDepth s = .next (runCommand 0x0101 lpuDepthCommand s) := by rfl
theorem exec_defineFeedRing : exec .defineFeedRing s = .next (runCommand 0x0102 lpuFeedCommand s) := by rfl
theorem exec_defineWindow : exec .defineWindow s = .next (runCommand 0x0103 lpuWindowCommand s) := by rfl
theorem exec_setMonitorInitiators : exec .setMonitorInitiators s = .next (runCommand 0x0104 lpuMonitorCommand s) := by rfl
theorem exec_enterRun : exec .enterRun s = .next (runCommand 0x0105 lpuRunCommand s) := by rfl
theorem exec_enterConfig : exec .enterConfig s = .next (runCommand 0x0106 lpuConfigCommand s) := by rfl
theorem exec_setEventMask : exec .setEventMask s = .next (runCommand 0x0201 rwMaskCommand s) := by rfl
theorem exec_setNotice : exec .setNotice s = .next (runCommand 0x0202 rwNoticeCommand s) := by rfl
theorem exec_reportStatus : exec .reportStatus s = .next (runCommand 0x0203 rwStatusCommand s) := by rfl
theorem exec_restart : exec .restart s = .next (runLongCommand 0x0204 cuRestartCommand s) := by rfl
theorem exec_setTime : exec .setTime s = .next (runCommand 0x0301 tbTimeCommand s) := by rfl
theorem exec_setReferenceMode : exec .setReferenceMode s = .next (runCommand 0x0302 tbModeCommand s) := by rfl
theorem exec_setReferenceWindow : exec .setReferenceWindow s = .next (runCommand 0x0303 tbWindowCommand s) := by rfl
theorem exec_reportTime : exec .reportTime s = .next (runCommand 0x0304 tbReportCommand s) := by rfl
theorem exec_setFeedParameters : exec .setFeedParameters s = .next (runCommand 0x0401 fmSetParamsCommand s) := by rfl
theorem exec_clearFeed : exec .clearFeed s = .next (runCommand 0x0402 fmClearCommand s) := by rfl
theorem exec_reportFeed : exec .reportFeed s = .next (runCommand 0x0403 fmReportCommand s) := by rfl
theorem exec_loadBooking : exec .loadBooking s = .next (runLongCommand 0x0501 btLoadCommand s) := by rfl
theorem exec_cancel : exec .cancel s = .next (runCommand 0x0502 btCancelCommand s) := by rfl
theorem exec_advance : exec .advance s = .next (runCommand 0x0503 btAdvanceCommand s) := by rfl
theorem exec_release : exec .release s = .next (runCommand 0x0504 btReleaseCommand s) := by rfl
theorem exec_extend : exec .extend s = .next (runCommand 0x0505 btExtendCommand s) := by rfl
theorem exec_reportBooking : exec .reportBooking s = .next (runCommand 0x0506 btReportCommand s) := by rfl
theorem exec_reportDestination : exec .reportDestination s = .next (runCommand 0x0601 gaReportCommand s) := by rfl
theorem exec_take : exec .take s = .next (runCommand 0x0701 ruTakeCommand s) := by rfl
theorem exec_cue : exec .cue s = .next (runCommand 0x0702 ruCueCommand s) := by rfl
theorem exec_confirm : exec .confirm s = .next (runCommand 0x0703 ruConfirmCommand s) := by rfl
theorem exec_uncue : exec .uncue s = .next (runCommand 0x0704 ruUncueCommand s) := by rfl
theorem exec_setDestinationParameters :
    exec .setDestinationParameters s = .next (runCommand 0x0705 ruSetParamsCommand s) := by rfl
theorem exec_setLag : exec .setLag s = .next (runCommand 0x0801 dmSetLagCommand s) := by rfl
theorem exec_loadTariff : exec .loadTariff s = .next (runCommand 0x0901 muLoadCommand s) := by rfl

end

/-- A command that starts gives what its owner makes of the state with the head taken from the queue. -/
theorem gives_of_owner {c : Instr} {code : Nat} {owner : (Nat → Nat) → State → State × Reply} {s u : State} {n : Nat}
    {data : List Byte} {rest : List Nat} {r : Reply} (hc : exec c s = .next (runCommand code owner s))
    (h : Starts code s n data rest) (ho : owner (commandParam data) (s.started rest) = (u, r)) : Gives c s n data u r := by
  have hgives := runCommand_gives h owner
  rw [ho] at hgives
  exact ⟨_, hc, hgives⟩

/-- A long command that starts and answers at once gives what its owner makes of the state. -/
theorem gives_of_longOwner {c : Instr} {code : Nat} {owner : (Nat → Nat) → State → State × (Reply ⊕ Job)} {s u : State}
    {n : Nat} {data : List Byte} {rest : List Nat} {r : Reply} (hc : exec c s = .next (runLongCommand code owner s))
    (h : Starts code s n data rest) (ho : owner (commandParam data) (s.started rest) = (u, .inl r)) :
    Gives c s n data u r := by
  rcases runLongCommand_cases h owner with ⟨u', r', ho', hgives⟩ | ⟨u', j, ho', _⟩
  · obtain ⟨rfl, hr⟩ := Prod.mk.inj (ho.symm.trans ho')
    obtain rfl := Sum.inl.inj hr
    exact ⟨_, hc, hgives⟩
  · exact absurd (congrArg Prod.snd (ho.symm.trans ho')) (by simp)

/-- A long command that starts and does not answer at once goes on executing. -/
theorem runLongCommand_of_job {code : Nat} {owner : (Nat → Nat) → State → State × (Reply ⊕ Job)} {s u : State} {n : Nat}
    {data : List Byte} {rest : List Nat} {j : Job} (h : Starts code s n data rest)
    (ho : owner (commandParam data) (s.started rest) = (u, .inr j)) :
    runLongCommand code owner s = u.withCu { u.cu with executing := some ⟨n, data, j⟩ } := by
  rcases runLongCommand_cases h owner with ⟨u', r', ho', _⟩ | ⟨u', j', ho', hrun⟩
  · exact absurd (congrArg Prod.snd (ho.symm.trans ho')) (by simp)
  · obtain ⟨rfl, hj⟩ := Prod.mk.inj (ho.symm.trans ho')
    obtain rfl := Sum.inr.inj hj
    exact hrun

/-! ### Start and hand-over -/

theorem resultPlaces_eq_zero {s : State} :
    resultPlaces s = 0 ↔ ¬modSub 64 s.rw.result.producer s.rw.result.consumer < 63 := by
  simp only [resultPlaces, RingIndexes.count]
  omega

/-- R30: when the head of the command queue starts. -/
theorem cuNext_iff {s : State} {n : Nat} {data : List Byte} {rest : List Nat} : cuNext s = some (n, data, rest) ↔
    s.lpu.resetAsserted = false ∧ s.cu.executing = none ∧ s.cu.busy = [] ∧
    modSub 64 s.rw.result.producer s.rw.result.consumer < 63 ∧ s.cu.queue = n :: rest ∧
    data = (s.slotData n).getD [] := by
  have hguard : (s.lpu.resetAsserted || s.cu.executing.isSome || !s.cu.busy.isEmpty || resultPlaces s == 0) = false ↔
      s.lpu.resetAsserted = false ∧ s.cu.executing = none ∧ s.cu.busy = [] ∧
        modSub 64 s.rw.result.producer s.rw.result.consumer < 63 := by
    simp [resultPlaces_eq_zero, and_assoc]
  unfold cuNext
  split
  next hstop =>
    refine ⟨fun h => by simp at h, fun ⟨h1, h2, h3, h4, _⟩ => ?_⟩
    simp [hguard.mpr ⟨h1, h2, h3, h4⟩] at hstop
  next hgo =>
    obtain ⟨h1, h2, h3, h4⟩ := hguard.mp (by simpa using hgo)
    cases hq : s.cu.queue with
    | nil => simp
    | cons m ms =>
      simp only [Option.some.injEq, Prod.mk.injEq, h1, h2, h3, h4, List.cons.injEq, true_and]
      constructor
      · rintro ⟨rfl, rfl, rfl⟩; exact ⟨⟨rfl, rfl⟩, rfl⟩
      · rintro ⟨⟨rfl, rfl⟩, rfl⟩; exact ⟨rfl, rfl, rfl⟩

section
variable {s : State} (h : cuNext s = none)
include h

theorem runCommand_idle (code : Nat) (owner : (Nat → Nat) → State → State × Reply) : runCommand code owner s = s := by
  rw [runCommand, h]

theorem runLongCommand_idle (code : Nat) (owner : (Nat → Nat) → State → State × (Reply ⊕ Job)) :
    runLongCommand code owner s = s := by
  rw [runLongCommand, h]

theorem cuBadCommand_idle : cuBadCommand s = s := by rw [cuBadCommand, h]

end

/-- R30: the oldest BUSY answer is handed over where a place is free beyond the reservation. -/
theorem cuBusyHandover_eq {s : State} {b : BusyAnswer} {rest : List BusyAnswer} (hb : s.cu.busy = b :: rest)
    (hr : s.lpu.resetAsserted = false) : cuBusyHandover s =
      if (if s.cu.executing = none then 0 else 1) < 63 - modSub 64 s.rw.result.producer s.rw.result.consumer then
        rwAccept .result (resultBytes b.code b.tag b.slot ⟨.busy, 0, []⟩) (s.withCu { s.cu with busy := rest })
      else s := by
  have hres : (if s.cu.executing.isSome then 1 else 0) = if s.cu.executing = none then 0 else 1 := by
    cases s.cu.executing <;> rfl
  simp only [cuBusyHandover, hb, hr, hres, resultPlaces, RingIndexes.count, Bool.not_false, Bool.true_and,
    decide_eq_true_eq]
  rfl

/-- R31: a code outside Table 11-3. -/
theorem badCommand_gives {s : State} {n : Nat} {data : List Byte} {rest : List Nat} (h : cuNext s = some (n, data, rest))
    (hcode : commandCode data ∉ commandCodes) :
    Gives .badCommand s n data (s.started rest) ⟨.badCommand, 0, []⟩ := by
  refine ⟨_, exec_badCommand s, ?_⟩
  have hrun : cuBadCommand s = cuFinish n data (.refuse .badCommand) (s.started rest) := by
    simp only [cuBadCommand, h]
    rw [if_neg (by simpa using hcode)]
    rfl
  rw [hrun]
  exact cuFinish_answered ..

/-- Settles O33. -/
theorem commandsStartInOrder : Obligations.CommandsStartInOrder := by
  refine ⟨fun s n data rest => cuNext_iff, fun s h => ?_, fun s b rest hb hr => ⟨fun hroom => ?_, fun hfull => ?_⟩,
    fun s hb => ?_, fun s n data rest h hcode => badCommand_gives h hcode⟩
  · simp only [List.forall_mem_cons, exec_badCommand, exec_setRingDepth, exec_defineFeedRing, exec_defineWindow,
      exec_setMonitorInitiators, exec_enterRun, exec_enterConfig, exec_setEventMask, exec_setNotice, exec_reportStatus,
      exec_restart, exec_setTime, exec_setReferenceMode, exec_setReferenceWindow, exec_reportTime, exec_setFeedParameters,
      exec_clearFeed, exec_reportFeed, exec_loadBooking, exec_cancel, exec_advance, exec_release, exec_extend,
      exec_reportBooking, exec_reportDestination, exec_take, exec_cue, exec_confirm, exec_uncue,
      exec_setDestinationParameters, exec_setLag, exec_loadTariff, runCommand_idle h, runLongCommand_idle h,
      cuBadCommand_idle h, true_and]
    exact fun _ hc => absurd hc List.not_mem_nil
  · exact ⟨_, exec_busyHandover s, by rw [cuBusyHandover_eq hb hr, if_pos hroom]; exact rwAccept_accepted ..⟩
  · rw [exec_busyHandover, cuBusyHandover_eq hb hr, if_neg (Nat.not_lt.mpr hfull)]
  · rw [exec_busyHandover, cuBusyHandover, hb]

/-! ### The region map -/

theorem inConfig_of_config {s : State} (h : s.lpu.mode = .config) (act : (Nat → Nat) → State → State × Reply)
    (p : Nat → Nat) : inConfig act p s = act p s := by
  simp [inConfig, h]

theorem inConfig_of_ne {s : State} (h : s.lpu.mode ≠ .config) (act : (Nat → Nat) → State → State × Reply)
    (p : Nat → Nat) : inConfig act p s = (s, ⟨.wrongMode, 0, []⟩) := by
  rw [inConfig, if_pos (by simpa using h)]
  rfl

theorem all_monitorOk_iff {p : Nat → Nat} :
    [p 0, p 1, p 2, p 3].all monitorOk = true ↔ ∀ i < 4, p i ≤ 127 ∨ p i = 255 := by
  simp only [List.all_cons, List.all_nil, monitorOk, Bool.and_true, Bool.and_eq_true, Bool.or_eq_true, decide_eq_true_eq,
    beq_iff_eq]
  constructor
  · rintro ⟨h0, h1, h2, h3⟩ i hi
    interval_cases i <;> assumption
  · exact fun h => ⟨h 0 (by omega), h 1 (by omega), h 2 (by omega), h 3 (by omega)⟩

theorem defineRefused_iff {objects : Nat} {p : Nat → Nat} :
    defineRefused objects p = true ↔ objects ≤ p 0 ∨ 255 < p 2 ∨ 1 < p 4 ∨ p 4 = 1 ∧ 127 < p 3 := by
  simp [defineRefused, or_assoc]

section
variable {s : State} (hm : s.lpu.mode = .config) (p : Nat → Nat)
include hm

theorem lpuDepthCommand_eq : lpuDepthCommand p s =
    if p 0 ∈ [64, 128, 256, 512, 1024] then (s.withLpu { s.lpu with depth := some (p 0) }, ⟨.done, 0, []⟩)
    else (s, ⟨.range, 0, []⟩) := by
  rw [lpuDepthCommand, inConfig_of_config hm]
  simp only [List.contains_iff_mem]
  rfl

theorem lpuMonitorCommand_eq : lpuMonitorCommand p s =
    if [p 0, p 1, p 2, p 3].all monitorOk then
      (s.withLpu { s.lpu with monitors := [p 0, p 1, p 2, p 3] }, ⟨.done, 0, []⟩)
    else (s, ⟨.range, 0, []⟩) := by
  rw [lpuMonitorCommand, inConfig_of_config hm]
  rfl

theorem lpuFeedCommand_eq : lpuFeedCommand p s =
    if defineRefused 64 p then (s, ⟨.range, 0, []⟩)
    else ((s.withLpu { s.lpu with rings := Tbl.set none s.lpu.rings (p 0) (definitionOf p) }).setForeignWrites (p 0) 0,
      ⟨.done, 0, []⟩) := by
  rw [lpuFeedCommand, inConfig_of_config hm]
  rfl

theorem lpuWindowCommand_eq : lpuWindowCommand p s =
    if defineRefused 48 p then (s, ⟨.range, 0, []⟩)
    else (s.withLpu { s.lpu with windows := Tbl.set none s.lpu.windows (p 0) (definitionOf p) }, ⟨.done, 0, []⟩) := by
  rw [lpuWindowCommand, inConfig_of_config hm]
  rfl

end

/-- Settles O34. -/
theorem definitionsActInConfig : Obligations.DefinitionsActInConfig := by
  constructor
  · intro s n data rest hm p
    have hms : (s.started rest).lpu.mode = .config := hm
    refine ⟨fun h => ⟨fun hp => ?_, fun hp => ?_⟩, fun h => ⟨fun hp => ?_, fun ⟨i, hi, hlo, hne⟩ => ?_⟩⟩
    · exact gives_of_owner (exec_setRingDepth s) h (by rw [lpuDepthCommand_eq hms, if_pos hp]; rfl)
    · exact gives_of_owner (exec_setRingDepth s) h (by rw [lpuDepthCommand_eq hms, if_neg hp])
    · exact gives_of_owner (exec_setMonitorInitiators s) h
        (by rw [lpuMonitorCommand_eq hms, if_pos (all_monitorOk_iff.mpr hp)]; rfl)
    · refine gives_of_owner (exec_setMonitorInitiators s) h ?_
      rw [lpuMonitorCommand_eq hms, if_neg fun hall =>
        (all_monitorOk_iff.mp hall i hi).elim (Nat.not_le.mpr hlo) hne]
  · intro s n data rest p bad given
    refine ⟨fun hm => ?_, fun hm c code hc h => ?_⟩
    · have hms : (s.started rest).lpu.mode = .config := hm
      refine ⟨fun h => ⟨fun hgood => ⟨_, gives_of_owner (exec_defineFeedRing s) h
          (by rw [lpuFeedCommand_eq hms, if_neg (mt defineRefused_iff.mp hgood)]), ?_⟩, fun hbad => ?_⟩,
        fun h => ⟨fun hgood => ⟨_, gives_of_owner (exec_defineWindow s) h
          (by rw [lpuWindowCommand_eq hms, if_neg (mt defineRefused_iff.mp hgood)]), ?_⟩, fun hbad => ?_⟩⟩
      · exact ⟨Tbl.get_set_self, State.foreignWrites_setForeignWrites_self .., fun f hf =>
          ⟨Tbl.get_set_of_ne hf, State.foreignWrites_setForeignWrites_of_ne _ _ hf⟩, rfl⟩
      · exact gives_of_owner (exec_defineFeedRing s) h
          (by rw [lpuFeedCommand_eq hms, if_pos (defineRefused_iff.mpr hbad)])
      · exact ⟨Tbl.get_set_self, fun d hd => Tbl.get_set_of_ne hd, rfl⟩
      · exact gives_of_owner (exec_defineWindow s) h
          (by rw [lpuWindowCommand_eq hms, if_pos (defineRefused_iff.mpr hbad)])
    · have hwrong := fun act => inConfig_of_ne (s := s.started rest) hm act p
      simp only [List.mem_cons, Prod.mk.injEq, List.not_mem_nil, or_false] at hc
      rcases hc with ⟨rfl, rfl⟩ | ⟨rfl, rfl⟩ | ⟨rfl, rfl⟩ | ⟨rfl, rfl⟩ | ⟨rfl, rfl⟩
      · exact gives_of_owner (exec_setRingDepth s) h (hwrong _)
      · exact gives_of_owner (exec_defineFeedRing s) h (hwrong _)
      · exact gives_of_owner (exec_defineWindow s) h (hwrong _)
      · exact gives_of_owner (exec_setMonitorInitiators s) h (hwrong _)
      · exact gives_of_owner (exec_enterRun s) h (hwrong _)

end Sys2Proof.Machine
end

section
/-! SUPPORT. The commands of the RW (O37), the reports (O38), the header checks (O29), the commands of the TB that set it (O44),
Clear Feed (O46), Load Booking (O47) and validation (O48). -/

namespace Sys2Proof.Machine

/-! ### The RW's commands and the reports -/

/-- R42, R43: the notice line after its three enables have been set. -/
theorem rwNoticeCommand_eq {p : Nat → Nat} (hp : ∀ i < 3, p i ≤ 1) (s : State) : rwNoticeCommand p s =
    let line := (p 0 = 1 ∧ s.rw.result.published ≠ s.rw.result.consumer) ∨
      (p 1 = 1 ∧ s.rw.event.published ≠ s.rw.event.consumer) ∨
      (p 2 = 1 ∧ s.rw.billing.published ≠ s.rw.billing.consumer)
    (s.withRw { s.rw with
        noticeResult := p 0 == 1, noticeEvent := p 1 == 1, noticeBilling := p 2 == 1, noticeLine := decide line },
      ⟨.done, 0, [if line then 1 else 0]⟩) := by
  have hline : ((p 0 == 1 && s.rw.result.notEmpty) || (p 1 == 1 && s.rw.event.notEmpty) ||
      (p 2 == 1 && s.rw.billing.notEmpty)) = decide ((p 0 = 1 ∧ s.rw.result.published ≠ s.rw.result.consumer) ∨
        (p 1 = 1 ∧ s.rw.event.published ≠ s.rw.event.consumer) ∨
        (p 2 = 1 ∧ s.rw.billing.published ≠ s.rw.billing.consumer)) := by
    simp [RingIndexes.notEmpty, Bool.or_assoc, bne, Bool.beq_eq_decide_eq]
  have h0 := hp 0 (by omega)
  have h1 := hp 1 (by omega)
  have h2 := hp 2 (by omega)
  rw [rwNoticeCommand, if_neg (by simp; omega)]
  simp only [rwNotice, State.withRw_rw, State.withRw_withRw, hline, flag, decide_eq_true_eq]

/-- Settles O37. -/
theorem maskAndNoticeAreSet : Obligations.MaskAndNoticeAreSet := by
  intro s n data rest p
  refine ⟨fun h => ⟨fun hp => ?_, fun hp => ?_⟩, fun h => ⟨fun hp => ?_, fun hp => ?_⟩⟩
  · exact gives_of_owner (exec_setEventMask s) h (by rw [rwMaskCommand, if_neg (Nat.not_le.mpr hp)]; rfl)
  · exact gives_of_owner (exec_setEventMask s) h (by rw [rwMaskCommand, if_pos hp]; rfl)
  · exact gives_of_owner (exec_setNotice s) h (rwNoticeCommand_eq hp _)
  · obtain ⟨i, hi, hp⟩ := hp
    refine gives_of_owner (exec_setNotice s) h ?_
    rw [rwNoticeCommand, if_pos]
    · rfl
    · simp only [Bool.or_eq_true, decide_eq_true_eq, or_assoc]
      interval_cases i
      · exact .inl hp
      · exact .inr (.inl hp)
      · exact .inr (.inr hp)

/-- Settles O38: each report leaves the state as its command finds it. -/
theorem reportsGiveTheirWords : Obligations.ReportsGiveTheirWords := by
  constructor
  · intro s n data rest p status time
    have hstatus : pack 8 s.tb.refState.num s.lpu.mode.num = status := by simp only [pack, status]; omega
    have htime : pack 8 s.tb.refState.num s.tb.refMode.num = time := by simp only [pack, time]; omega
    refine ⟨fun h => ⟨fun hp => ?_, fun hp => ?_, fun hp => ?_⟩, fun h => ⟨fun hp => ?_, fun hp => ?_, fun hp => ?_⟩⟩
    · refine gives_of_owner (exec_reportStatus s) h ?_
      have hin : entriesInUse s = ((List.range 128).filter (fun e => (s.entry e).state ≠ .empty)).length := by
        simp [entriesInUse, bne, Bool.beq_eq_decide_eq]
      rw [← hin, ← hstatus, rwStatusCommand, show commandParam data 0 = 0 from hp]
      rfl
    · refine gives_of_owner (exec_reportStatus s) h ?_
      rw [← hstatus, rwStatusCommand, show commandParam data 0 = 1 from hp]
      rfl
    · refine gives_of_owner (exec_reportStatus s) h ?_
      obtain ⟨k, hk⟩ := Nat.exists_eq_add_of_le' (show 2 ≤ commandParam data 0 from hp)
      rw [rwStatusCommand, hk]
      rfl
    · refine gives_of_owner (exec_reportTime s) h ?_
      rw [← htime, tbReportCommand, show commandParam data 0 = 0 from hp]
      rfl
    · refine gives_of_owner (exec_reportTime s) h ?_
      have hstaged : flag s.tb.staged.isSome = if s.tb.staged = none then 0 else 1 := by
        cases s.tb.staged <;> rfl
      rw [← htime, ← hstaged, tbReportCommand, show commandParam data 0 = 1 from hp]
      rfl
    · refine gives_of_owner (exec_reportTime s) h ?_
      obtain ⟨k, hk⟩ := Nat.exists_eq_add_of_le' (show 2 ≤ commandParam data 0 from hp)
      rw [tbReportCommand, hk]
      rfl
  · intro s n data rest p
    have hdata : commandParam data = p := rfl
    refine ⟨fun h => ?feed, fun h => ?booking, fun h => ?destination⟩
    case feed =>
      refine ⟨fun hp => ?_, fun h0 h1 hf => ?_, fun x h0 h1 hf => ?_, fun h0 h1 => ?_⟩
      · refine gives_of_owner (exec_reportFeed s) h ?_
        rw [hdata, fmReportCommand, if_pos (by simpa using hp)]
        rfl
      · refine gives_of_owner (exec_reportFeed s) h ?_
        have hf' : (s.started rest).feedRec (p 0) = none := hf
        rw [hdata, fmReportCommand, if_neg (by simp; omega), if_neg (by omega), if_neg (by omega), hf']
        rfl
      · refine gives_of_owner (exec_reportFeed s) h ?_
        have hf' : (s.started rest).feedRec (p 0) = some x := hf
        have hpack : pack 8 (flag x.testSignal) x.health.num = x.health.num + 256 * (if x.testSignal then 1 else 0) := by
          simp only [pack, flag]; omega
        rw [hdata, ← hpack, fmReportCommand, if_neg (by simp; omega), if_neg (by omega), if_neg (by omega), hf',
          h1]
        rfl
      · refine gives_of_owner (exec_reportFeed s) h ?_
        rw [hdata, fmReportCommand, if_neg (by simp; omega), if_neg (by omega), if_pos h1]
        rfl
    case booking =>
      refine ⟨fun hp => ?_, fun h1 hb => ?_, fun e h1 hb => ?_⟩
      · refine gives_of_owner (exec_reportBooking s) h ?_
        rw [hdata, btReportCommand, if_pos hp]
        rfl
      · refine gives_of_owner (exec_reportBooking s) h ?_
        have hb' : bookingOf (s.started rest) (p 0) = none := hb
        rw [hdata, btReportCommand, if_neg (by omega), withBooking, hb']
        rfl
      · refine gives_of_owner (exec_reportBooking s) h ?_
        have hb' : bookingOf (s.started rest) (p 0) = some e := hb
        rw [hdata, btReportCommand, if_neg (by omega), withBooking, hb', h1]
        rfl
    case destination =>
      refine ⟨fun hp => ?_, fun h0 h1 hr => ?_, fun h0 h1 => ?_⟩
      · refine gives_of_owner (exec_reportDestination s) h ?_
        rw [hdata, gaReportCommand, if_pos (by simpa using hp)]
        rfl
      · refine gives_of_owner (exec_reportDestination s) h ?_
        have hr' : (s.started rest).route (p 0) = none := hr
        rw [hdata, gaReportCommand, if_neg (by simp; omega), if_neg (by omega), if_neg (by omega), hr']
        rfl
      · refine gives_of_owner (exec_reportDestination s) h ?_
        rw [hdata, gaReportCommand, if_neg (by simp; omega), if_neg (by omega), if_pos h1]
        rfl

/-! ### Header checks -/

/-- Settles O29: the checks in their order, then Table 4-4 by the distance. -/
theorem headerChecksFollowTheTable : Obligations.HeaderChecksFollowTheTable := by
  intro f bytes r y seq delta resynced kept
  refine ⟨fun hm => ?_, fun hm ht => ?_, fun hm ht => ?_⟩
  · have hy : y = ({ r with counters := r.counters.count .malformed 0 }, ⟨.malformed, false, false⟩, 8) := by
      simp [y, checkHeader, hm]
    simp [kept, hy]
  · have hy : y = ({ r with counters := r.counters.count .misrouted 0 }, ⟨.misrouted, false, false⟩, 16) := by
      simp [y, checkHeader, hm, ht]
    simp [kept, hy]
  · have hhead : ∀ v : HeaderResult, (⟨v, headerPictureStart (headerFlags bytes), headerTestSignal (headerFlags bytes)⟩ :
        UnitHead) = ⟨v, (headerFlags bytes).testBit 0, (headerFlags bytes).testBit 2⟩ := fun _ => rfl
    have hunknown : r.seqKnown = false → y = (r.resync seq,
        ⟨.first, (headerFlags bytes).testBit 0, (headerFlags bytes).testBit 2⟩, 0) := fun hk => by
      simp [y, checkHeader, hm, ht, hk, hhead, seq]
    have hknown : r.seqKnown = true → y =
        let x := sequenceClass ((headerFlags bytes).testBit 1) delta seq r.lastSeq
        (if x.2.2 then ({ r with counters := r.counters.count x.1 delta } : FeedRecord).resync seq
          else { r with counters := r.counters.count x.1 delta },
          ⟨x.1, (headerFlags bytes).testBit 0, (headerFlags bytes).testBit 2⟩, x.2.1) := fun hk => by
      simp [y, checkHeader, hm, ht, hk, hhead, seq, delta, headerDiscontinuity, flagBit]
    refine ⟨?_, ?_, fun hk => ?_, fun hk hd => ?_, fun hk hd => ⟨fun h => ?_, fun h1 h2 => ?_, fun h1 h2 => ?_,
      fun h1 h2 => ?_, fun h1 h2 => ?_⟩⟩
    · cases hk : r.seqKnown
      · rw [hunknown hk]
      · rw [hknown hk]
    · cases hk : r.seqKnown
      · rw [hunknown hk]
      · rw [hknown hk]
    · simp [resynced, hunknown hk, FeedRecord.resync]
    · simp [resynced, hknown hk, sequenceClass, hd, FeedRecord.resync]
    · simp [resynced, hknown hk, sequenceClass, hd, FeedRecord.resync, h]
    · have h0 : delta ≠ 0 := by omega
      simp [resynced, hknown hk, sequenceClass, hd, FeedRecord.resync, h0, h2]
    · have h0 : delta ≠ 0 ∧ ¬delta ≤ 1023 := by omega
      simp [kept, hknown hk, sequenceClass, hd, h0, h1, h2]
    · have h0 : delta ≠ 0 ∧ ¬delta ≤ 1023 := by omega
      simp [kept, hknown hk, sequenceClass, hd, h0, h1, h2]
    · have h0 : delta ≠ 0 ∧ ¬delta ≤ 1023 ∧ ¬65472 ≤ delta := by omega
      simp [resynced, hknown hk, sequenceClass, hd, FeedRecord.resync, h0]

end Sys2Proof.Machine
end

section
/-! SUPPORT. The reference mode and window (O44), Clear Feed (O46), Load Booking (O47) and validation (O48). -/

namespace Sys2Proof.Machine

/-! ### Reference mode and window -/

theorem tbSetState_tb (new : RefState) (s : State) : (tbSetState new s).tb = { s.tb with refState := new } := by
  unfold tbSetState tbEvent
  dsimp only
  split
  next h => rw [← h]
  · simp

theorem tbCancelStaged_tb (s : State) : (tbCancelStaged s).tb = { s.tb with staged := none } := by
  unfold tbCancelStaged tbEvent
  split
  next h => rw [← h]
  · simp

theorem tbEnterMode_off_tb (s : State) : (tbEnterMode .off s).tb =
    { s.tb with
      refState := .absent, consecutive := 0, failed := 0, firstMarkDue := true, expected := none, staged := none } := by
  simp [tbEnterMode, tbCancelStaged_tb, tbSetState_tb, Tb.startAfresh]

theorem tbEnterMode_alignOnce_tb (s : State) : (tbEnterMode .alignOnce s).tb =
    { s.tb with
      refState := if s.tb.refState = .absent then .absent else .acquiring, consecutive := 0, failed := 0,
      firstMarkDue := true, expected := none } := by
  simp only [tbEnterMode]
  split
  next h => simp [h, Tb.startAfresh]
  · simp [tbSetState_tb, Tb.startAfresh]

theorem tbModeCommand_of_mode {p : Nat → Nat} {m : RefMode} (h : refModeOf (p 0) = some m) (s : State) :
    tbModeCommand p s = (tbEnterMode m (s.withTb { s.tb with refMode := m }),
      ⟨.done, 0, [s.tb.refMode.num, m.num, (tbEnterMode m (s.withTb { s.tb with refMode := m })).tb.refState.num]⟩) := by
  simp only [tbModeCommand, h]

theorem carried_eq (same : Prop) [Decidable same] (detail : Nat) (words : List Nat) {clamped : Bool}
    (h : clamped = true ↔ ¬same) :
    Reply.carried clamped detail words = ⟨if same then .done else .clamped, detail, words⟩ := by
  by_cases hs : same
  · have : clamped = false := by simpa [hs] using h
    simp [Reply.carried, this, hs]
  · simp [Reply.carried, h.mpr hs, hs]

/-- Settles O44. -/
theorem referenceModeAndWindowAreSet : Obligations.ReferenceModeAndWindowAreSet := by
  intro s n data rest p old afresh
  have hdata : commandParam data = p := rfl
  refine ⟨fun h => ⟨fun hp => ?off, fun hp => ?monitor, fun hp => ?track, fun hp => ?alignOnce, fun hp => ?range⟩,
    fun h => ?window⟩
  case off =>
    refine ⟨tbEnterMode .off ((s.started rest).withTb { s.tb with refMode := .off }),
      gives_of_owner (exec_setReferenceMode s) h ?_, ?_⟩
    · rw [hdata, tbModeCommand_of_mode (m := .off) (by rw [hp]; rfl), tbEnterMode_off_tb]
      rfl
    · rw [tbEnterMode_off_tb]
      rfl
  case monitor =>
    refine gives_of_owner (exec_setReferenceMode s) h ?_
    rw [hdata, tbModeCommand_of_mode (m := .monitor) (by rw [hp]; rfl)]
    rfl
  case track =>
    refine gives_of_owner (exec_setReferenceMode s) h ?_
    rw [hdata, tbModeCommand_of_mode (m := .track) (by rw [hp]; rfl)]
    rfl
  case alignOnce =>
    refine ⟨tbEnterMode .alignOnce ((s.started rest).withTb { s.tb with refMode := .alignOnce }),
      gives_of_owner (exec_setReferenceMode s) h ?_, ?_⟩
    · have hnum : (if s.tb.refState = .absent then RefState.absent else .acquiring).num =
          if s.tb.refState = .absent then 0 else 1 := by split <;> rfl
      rw [hdata, tbModeCommand_of_mode (m := .alignOnce) (by rw [hp]; rfl), tbEnterMode_alignOnce_tb, ← hnum]
      rfl
    · rw [tbEnterMode_alignOnce_tb]
      rfl
  case range =>
    refine gives_of_owner (exec_setReferenceMode s) h ?_
    obtain ⟨k, hk⟩ := Nat.exists_eq_add_of_le' (show 4 ≤ p 0 from hp)
    rw [hdata, tbModeCommand, show refModeOf (p 0) = none by rw [hk]; rfl]
    rfl
  case window =>
    intro w
    refine gives_of_owner (exec_setReferenceWindow s) h ?_
    have hw : clamp 10 10000 (p 0) = w := clamp_eq (by decide) _
    rw [hdata, tbWindowCommand, hw, carried_eq (w = p 0) _ _ (by simp)]
    rfl

/-! ### Clear Feed -/

/-- The reports of a feed leave the feed records. -/
theorem reading_fm (x : Fm) : Reading (fun _ => True) (fun _ => False) (fun t => t.fm = x) where
  raise hs := (raise_fm ..).trans hs
  route _ hs := hs
  delivery _ hs := hs
  feed hf := hf.elim
  counts _ hs := hs
  latch _ hs := hs
  forward hs := (lpuForward_fm ..).trans hs
  hold _ _ _ hs := hs
  join _ hs := hs
  free _ hs := hs

/-- No report of a feed touches the foreign write counts. -/
theorem reading_foreignWrites (x : Tbl Nat) :
    Reading (fun _ => True) (fun _ => True) (fun t => t.lpu.foreignWrites = x) where
  raise hs := (raise_lpu_foreignWrites ..).trans hs
  route _ hs := hs
  delivery _ hs := hs
  feed _ hs := hs
  counts _ hs := hs
  latch _ hs := hs
  forward := by
    intro y s hs
    unfold lpuForward
    split <;> exact hs
  hold _ _ _ hs := hs
  join _ hs := hs
  free _ hs := hs

theorem fmEnter_feedRec_self {f : Nat} {r : FeedRecord} {s : State} (h : s.feedRec f = some r) (new : Health)
    (x : FeedRecord) : (fmEnter f new x s).feedRec f = some { x with health := new } := by
  simp [fmEnter, h]

theorem fmEnter_feedRec_of_ne {f g : Nat} (hg : g ≠ f) (new : Health) (x : FeedRecord) (s : State) :
    (fmEnter f new x s).feedRec g = s.feedRec g := by
  unfold fmEnter
  split
  · rfl
  · simp [State.feedRec_setFeedRec_of_ne _ _ hg]

theorem fmChange_feedRec (f g : Nat) (new : Health) (x : FeedRecord) (s : State) :
    (fmChange f new x s).feedRec g = (fmEnter f new x s).feedRec g := by
  unfold fmChange
  cases h : s.feedRec f with
  | none => simp [fmEnter, h]
  | some r =>
    have hfm := (reading_fm (fmEnter f new x s).fm).healthReport (fun _ => trivial) rfl f r.health new
    exact congrArg (fun m : Fm => Tbl.get none m.records g) hfm

theorem fmChange_foreignWrites (f g : Nat) (new : Health) (x : FeedRecord) (s : State) :
    (fmChange f new x s).foreignWrites g = s.foreignWrites g :=
  congrArg (fun l => Tbl.get 0 l g)
    ((reading_foreignWrites s.lpu.foreignWrites).fmChange (fun _ => trivial) rfl trivial new x)

/-- Settles O46. -/
theorem clearFeedClearsTheErrors : Obligations.ClearFeedClearsTheErrors := by
  intro s n data rest h p
  have hdata : commandParam data = p := rfl
  refine ⟨fun hm => ?_, fun hm hp => ?_, fun hm hp hf => ?_, fun x hm hp hf => ?_⟩
  · refine gives_of_owner (exec_clearFeed s) h ?_
    have hm' : (s.started rest).lpu.mode ≠ .run := hm
    rw [fmClearCommand, if_pos (by simpa using hm')]
    rfl
  · refine gives_of_owner (exec_clearFeed s) h ?_
    have hm' : (s.started rest).lpu.mode = .run := hm
    rw [hdata, fmClearCommand, if_neg (by simp [hm']), if_pos hp]
    rfl
  · refine gives_of_owner (exec_clearFeed s) h ?_
    have hm' : (s.started rest).lpu.mode = .run := hm
    have hf' : (s.started rest).feedRec (p 0) = none := hf
    rw [hdata, fmClearCommand, if_neg (by simp [hm']), if_neg (by omega), hf']
    rfl
  · intro cleared
    have hm' : (s.started rest).lpu.mode = .run := hm
    have hf' : (s.started rest).feedRec (p 0) = some x := hf
    have hcleared : x.counters.cleared = cleared := rfl
    refine ⟨fun hb => gives_of_owner (exec_clearFeed s) h ?_, fun hb => ?_⟩
    · simp [hdata, fmClearCommand, hm', Nat.not_lt.mpr hp, hf', hb, hcleared]
    · have hself : (fmChange (p 0) .absent { x with counters := cleared, attempts := 0, seqKnown := false }
          (((s.started rest).setFeedRec (p 0) (some { x with counters := cleared })).setForeignWrites (p 0) 0)).feedRec
          (p 0) = some { x with counters := cleared, health := .absent, attempts := 0, seqKnown := false } := by
        have hrec : (((s.started rest).setFeedRec (p 0) (some { x with counters := cleared })).setForeignWrites
            (p 0) 0).feedRec (p 0) = some { x with counters := cleared } := State.feedRec_setFeedRec_self ..
        rw [fmChange_feedRec, fmEnter_feedRec_self hrec]
      refine ⟨_, gives_of_owner (exec_clearFeed s) h (u := fmChange (p 0) .absent
        { x with counters := cleared, attempts := 0, seqKnown := false } (((s.started rest).setFeedRec (p 0)
          (some { x with counters := cleared })).setForeignWrites (p 0) 0)) ?_, ?_, hself, fun f hne => ⟨?_, ?_⟩⟩
      · have hbarred : ({ x with counters := cleared } : FeedRecord).health = .barred := hb
        rw [hdata, fmClearCommand, if_neg (by simp [hm']), if_neg (by omega), hf']
        simp only [hcleared, FeedRecord.forget]
        rw [if_pos (by simp [hb]), hself, hb]
        rfl
      · rw [fmChange_foreignWrites, State.foreignWrites_setForeignWrites_self]
      · rw [fmChange_feedRec, fmEnter_feedRec_of_ne hne]
        exact State.feedRec_setFeedRec_of_ne _ _ hne
      · rw [fmChange_foreignWrites, State.foreignWrites_setForeignWrites_of_ne _ _ hne]
        rfl

/-! ### Load Booking -/

/-- The lowest-numbered object of `n` that meets a test. -/
theorem find_range_eq_some {n e : Nat} {p : Nat → Bool} (he : e < n) (hp : p e = true) (hlow : ∀ i < e, p i = false) :
    (List.range n).find? p = some e := by
  rw [List.find?_range_eq_some]
  exact ⟨hp, List.mem_range.mpr he, fun i hi => by simp [hlow i hi]⟩

theorem emptyEntry_eq_some {s : State} {e : Nat} (he : e < 128) (hempty : (s.entry e).state = .empty)
    (hlow : ∀ i < e, (s.entry i).state ≠ .empty) : emptyEntry s = some e :=
  find_range_eq_some he (by simp [hempty]) fun i hi => by simp [hlow i hi]

theorem emptyEntry_eq_none {s : State} (h : ∀ e < 128, (s.entry e).state ≠ .empty) : emptyEntry s = none := by
  simpa [emptyEntry, List.find?_eq_none] using h

/-- R95: the fetch of a descriptor, whole. -/
theorem btFetch_spec (e addr : Nat) (origin : LoadOrigin) (s : State) : ∃ q w,
    btFetch e addr origin s = (s.setEntry e { Entry.blank with
      state := .fetching, origin := origin, address := addr, fetchTag := some s.lpu.nextTag }).withOwnWork q w
        (s.lpu.nextTag + 1) ∧
    q ++ w = ownWork s ++
      [⟨⟨.read, BitVec.ofNat 40 addr, 64, s.lpu.strapInit, s.lpu.nextTag, []⟩, .descriptor⟩] :=
  rwRequest_spec ..

/-- Settles O47. -/
theorem loadBookingFetchesADescriptor : Obligations.LoadBookingFetchesADescriptor := by
  intro s n data rest h p
  have hdata : commandParam data = p := rfl
  refine ⟨fun hm => ?_, fun hm hp => ?_, fun hm h1 h0 hfull => ?_, fun e hm h1 h0 he hempty hlow => ?_⟩
  · refine gives_of_longOwner (exec_loadBooking s) h ?_
    have hm' : (s.started rest).lpu.mode ≠ .run := hm
    rw [btLoadCommand, if_pos (by simpa using hm')]
    rfl
  · refine gives_of_longOwner (exec_loadBooking s) h ?_
    have hm' : (s.started rest).lpu.mode = .run := hm
    rw [hdata, btLoadCommand, if_neg (by simp [hm']), if_pos (by simpa using hp)]
    rfl
  · refine gives_of_longOwner (exec_loadBooking s) h ?_
    have hm' : (s.started rest).lpu.mode = .run := hm
    rw [hdata, btLoadCommand, if_neg (by simp [hm']), if_neg (by simp [h0]; omega),
      emptyEntry_eq_none (s := s.started rest) hfull]
    rfl
  · intro addr
    have hm' : (s.started rest).lpu.mode = .run := hm
    obtain ⟨q, w, hfetch, hwork⟩ := btFetch_spec e addr .command (s.started rest)
    have howner : btLoadCommand p (s.started rest) = (btFetch e addr .command (s.started rest), .inr (.loading e)) := by
      rw [btLoadCommand, if_neg (by simp [hm']), if_neg (by simp [h0]; omega),
        emptyEntry_eq_some (s := s.started rest) he hempty hlow]
      rfl
    refine ⟨_, exec_loadBooking s, ?_⟩
    rw [runLongCommand_of_job h howner, hfetch]
    refine ⟨?_, fun i hi => ?_, hwork, rfl, rfl⟩
    · exact State.entry_setEntry_self ..
    · exact State.entry_setEntry_of_ne _ _ hi

/-! ### Validation -/

/-- The first failing check of a list of checks, each the failure of its condition. -/
theorem firstFailure {bs : List Bool} {ps : List Prop} (h : List.Forall₂ (fun b x => b = true ↔ ¬x) bs ps) :
    ((bs.findIdx? id).map (· + 1) = none ↔ ∀ x ∈ ps, x) ∧
    ∀ k, (bs.findIdx? id).map (· + 1) = some k ↔
      1 ≤ k ∧ (∃ x, ps[k - 1]? = some x ∧ ¬x) ∧ ∀ j < k - 1, ∀ x, ps[j]? = some x → x := by
  induction h with
  | nil => simp
  | @cons b x bs ps hbx _ ih =>
    obtain ⟨ihnone, ihsome⟩ := ih
    cases b with
    | true =>
      have hx : ¬x := hbx.mp rfl
      have hfirst : ((true :: bs).findIdx? id).map (· + 1) = some 1 := by simp [List.findIdx?_cons]
      rw [hfirst]
      refine ⟨iff_of_false (Option.some_ne_none _) fun hall => hx (hall x List.mem_cons_self), fun k => ?_⟩
      constructor
      · intro hk
        obtain rfl : 1 = k := Option.some.inj hk
        exact ⟨le_rfl, ⟨x, rfl, hx⟩, fun j hj => absurd hj (Nat.not_lt_zero j)⟩
      · rintro ⟨h1, _, hlow⟩
        by_contra hk
        have hk : k ≠ 1 := fun h => hk (by rw [h])
        exact hx (hlow 0 (by omega) x rfl)
    | false =>
      have hx : x := by simpa using hbx
      have hshift : ((false :: bs).findIdx? id).map (· + 1) = ((bs.findIdx? id).map (· + 1)).map (· + 1) := by
        simp [List.findIdx?_cons]
      rw [hshift]
      refine ⟨?_, fun k => ?_⟩
      · rw [Option.map_eq_none_iff, ihnone, List.forall_mem_cons]
        exact ⟨fun hall => ⟨hx, hall⟩, fun hall => hall.2⟩
      rw [Option.map_eq_some_iff]
      constructor
      · rintro ⟨m, hm, rfl⟩
        obtain ⟨h1, hfail, hlow⟩ := (ihsome m).mp hm
        obtain ⟨m, rfl⟩ := Nat.exists_eq_add_of_le' h1
        refine ⟨by omega, hfail, fun j hj y hy => ?_⟩
        cases j with
        | zero => exact (Option.some.inj hy : x = y) ▸ hx
        | succ j => exact hlow j (by omega) y hy
      · rintro ⟨h1, ⟨y, hy, hny⟩, hlow⟩
        obtain ⟨k, rfl⟩ := Nat.exists_eq_add_of_le' h1
        cases k with
        | zero => exact absurd hx ((Option.some.inj hy : x = y) ▸ hny)
        | succ k =>
          refine ⟨k + 1, (ihsome (k + 1)).mpr ⟨by omega, ⟨y, hy, hny⟩, fun j hj z hz => ?_⟩, rfl⟩
          exact hlow (j + 1) (by omega) z hz

theorem bookingOf_isSome {s : State} {ref : Nat} : (bookingOf s ref).isSome = true ↔
    ¬∀ e < 128, (s.entry e).state ∉ [.empty, .fetching] → (s.entry e).desc.ref ≠ ref := by
  have hstate : ∀ st : BookingState, (st.isOpen || st == .closing) = true ↔ st ∉ [.empty, .fetching] := by
    intro st; cases st <;> decide
  simp only [bookingOf, List.find?_isSome, List.mem_range, Bool.and_eq_true, hstate, beq_iff_eq, not_forall, not_not,
    exists_prop, ne_eq]

theorem feedBad_iff {s : State} {f : Nat} : feedBad s f = true ↔ ¬(f ≤ 63 ∧ s.ringDef f ≠ none) := by
  rw [feedBad, Bool.or_eq_true, decide_eq_true_iff, Option.isNone_iff_eq_none, not_and_or, not_not, Nat.not_le]

/-- The fourteen conditions on the bytes of the descriptor (Table 11-8). -/
theorem validationFailures_eq (s : State) (data : List Byte) : validationFailures s data =
    [ field data 0 2 != 0x6A4B, field data 4 4 == 0, (bookingOf s (field data 4 4)).isSome, 1023 < field data 8 2,
      47 < field data 10 1 || (s.windowDef (field data 10 1)).isNone,
      (descriptorOf data).feedSet.any (feedBad s) || !decide (descriptorOf data).feedSet.Nodup,
      field data 24 4 ≤ field data 20 4 || 86400 < field data 24 4 - field data 20 4,
      field data 24 4 ≤ s.tb.seconds, 600 < field data 18 2, 240 < field data 28 2,
      15 < field data 17 1 || (s.tariff (field data 17 1)).isNone, 3 < field data 16 1, 15 < field data 15 1,
      field data 32 8 != 0 && (field data 32 8 % 64 != 0 || 1099511627776 ≤ field data 32 8) ] :=
  rfl

/-- Settles O48. -/
theorem validationMakesTheChecks : Obligations.ValidationMakesTheChecks := by
  intro s data ref dest feeds startSec endSec next passes
  have hset : (descriptorOf data).feedSet = feeds := by
    simp [descriptorOf, Descriptor.withFlags, Descriptor.feedSet, feeds, bne, Bool.beq_eq_decide_eq]
  have hfeeds : ((descriptorOf data).feedSet.any (feedBad s) || !decide (descriptorOf data).feedSet.Nodup) = true ↔
      ¬((∀ f ∈ feeds, f ≤ 63 ∧ s.ringDef f ≠ none) ∧ feeds.Nodup) := by
    rw [hset]
    simp only [Bool.or_eq_true, List.any_eq_true, feedBad_iff, Bool.not_eq_true', decide_eq_false_iff_not]
    constructor
    · rintro (⟨f, hf, hbad⟩ | hdup) ⟨hall, hnodup⟩
      · exact hbad (hall f hf)
      · exact hdup hnodup
    · intro hnot
      by_cases hnodup : feeds.Nodup
      · refine .inl ?_
        by_contra hall
        exact hnot ⟨fun f hf => by_contra fun hbad => hall ⟨f, hf, hbad⟩, hnodup⟩
      · exact .inr hnodup
  rw [validation, validationFailures_eq]
  refine firstFailure ?_
  refine .cons ?_ <| .cons ?_ <| .cons bookingOf_isSome <| .cons ?_ <| .cons ?_ <| .cons hfeeds <| .cons ?_ <|
    .cons ?_ <| .cons ?_ <| .cons ?_ <| .cons ?_ <| .cons ?_ <| .cons ?_ <| .cons ?_ .nil
  · simp
  · simp [ref]
  · simp
  · simp [dest, imp_iff_not_or]
  · simp [startSec, endSec, imp_iff_not_or]
    omega
  · simp [endSec]
  · simp
  · simp
  · simp [imp_iff_not_or]
  · simp
  · simp
  · simp [next]
    omega

end Sys2Proof.Machine
end

section
/-! SUPPORT. The settings of feeds, destinations, deliveries and tariffs (O45). -/

namespace Sys2Proof.Machine

/-! ### A setting for one object or for all -/

/-- Where each treatment changes its own object alone, by `f`, the setting for object `k`, or for all with 255, changes
what it names. -/
theorem oneOrAll_each {β : Type} (get : State → Nat → β) (f : Nat → β → β) {g : Nat → State → State}
    (own : ∀ i s, get (g i s) i = f i (get s i)) (other : ∀ i j s, j ≠ i → get (g i s) j = get s j) {n k j : Nat}
    (hj : j < n) (s : State) :
    get (if k = 255 then forAll n g s else g k s) j = if k = 255 ∨ j = k then f j (get s j) else get s j := by
  by_cases hall : k = 255
  · simp [hall, forAll_each get f own other, hj]
  · by_cases hjk : j = k
    · subst hjk
      simp [hall, own]
    · simp [hall, hjk, other _ _ _ hjk]

theorem oneOrAll_preserves {P : State → Prop} {g : Nat → State → State} (h : ∀ i s, P s → P (g i s)) (n k : Nat)
    {s : State} (hs : P s) : P (if k = 255 then forAll n g s else g k s) := by
  split
  · exact forAll_preserves (P := P) h n hs
  · exact h k s hs

/-! ### Set Lag for one destination -/

/-- What Set Lag writes of the delivery state. -/
def Delivery.withLag (lag lagMax : Nat) (adapt : Bool) (limit : Nat) (x : Delivery) : Delivery :=
  { x with lag := lag, lagMax := lagMax, adapt := adapt, holdLimit := limit }

/-- The change of a route after a lag reset is asked: nothing displaces a change to slate. -/
def Route.askLagReset (r : Route) : Route :=
  { r with change := if r.change ≠ some .toSlate then some .lagReset else r.change }

theorem dmAskLagReset_route_self (d : Nat) (s : State) :
    (dmAskLagReset d s).route d = (s.route d).map Route.askLagReset := by
  rw [dmAskLagReset, modRoute_route_self]
  congr 1
  funext r
  unfold Route.askLagReset
  split
  next h => rw [if_neg (by simp [h])]
  next h => rw [if_pos h]

/-- What Set Lag sees and changes of one destination. -/
def lagView (s : State) (d : Nat) : Mode × Delivery × Option Route := (s.lpu.mode, s.delivery d, s.route d)

/-- R168 for the view of one destination. -/
def setLagView (lag lagMax : Nat) (adapt : Bool) (limit : Nat) (v : Mode × Delivery × Option Route) :
    Mode × Delivery × Option Route :=
  (v.1, v.2.1.withLag lag lagMax adapt limit,
    if v.1 = .run ∧ v.2.1.lag ≠ lag then v.2.2.map Route.askLagReset else v.2.2)

theorem dmSetLag_view_self (lag lagMax : Nat) (adapt : Bool) (limit d : Nat) (s : State) :
    lagView (dmSetLag lag lagMax adapt limit d s) d = setLagView lag lagMax adapt limit (lagView s d) := by
  have hdelivery : (modDelivery d (Delivery.withLag lag lagMax adapt limit) s).delivery d =
      (s.delivery d).withLag lag lagMax adapt limit := State.delivery_setDelivery_self ..
  have hroute : (modDelivery d (Delivery.withLag lag lagMax adapt limit) s).route d = s.route d := rfl
  have hset : dmSetLag lag lagMax adapt limit d s = if s.lpu.mode == .run && (s.delivery d).lag != lag
      then dmAskLagReset d (modDelivery d (Delivery.withLag lag lagMax adapt limit) s)
      else modDelivery d (Delivery.withLag lag lagMax adapt limit) s := rfl
  rw [hset, lagView, setLagView, lagView]
  by_cases hask : s.lpu.mode = .run ∧ (s.delivery d).lag ≠ lag
  · rw [if_pos (by simpa using hask), if_pos hask, dmAskLagReset_route_self, hroute]
    refine Prod.ext ?_ (Prod.ext ?_ rfl)
    · exact congrArg Lpu.mode (modRoute_lpu ..)
    · exact (modRoute_delivery ..).trans hdelivery
  · rw [if_neg (by simpa using hask), if_neg hask, hdelivery, hroute]
    rfl

theorem dmSetLag_view_of_ne (lag lagMax : Nat) (adapt : Bool) (limit : Nat) {d j : Nat} (s : State) (h : j ≠ d) :
    lagView (dmSetLag lag lagMax adapt limit d s) j = lagView s j := by
  have hview : lagView (modDelivery d (Delivery.withLag lag lagMax adapt limit) s) j = lagView s j :=
    Prod.ext rfl (Prod.ext (State.delivery_setDelivery_of_ne _ _ h) rfl)
  have hset : dmSetLag lag lagMax adapt limit d s = if s.lpu.mode == .run && (s.delivery d).lag != lag
      then dmAskLagReset d (modDelivery d (Delivery.withLag lag lagMax adapt limit) s)
      else modDelivery d (Delivery.withLag lag lagMax adapt limit) s := rfl
  rw [hset, ← hview]
  split
  · exact Prod.ext (congrArg Lpu.mode (modRoute_lpu ..))
      (Prod.ext (modRoute_delivery ..) (modRoute_route_of_ne h ..))
  · rfl

/-- R168: Set Lag touches the deliveries and the routes alone. -/
def OnlyLag (s t : State) : Prop := t = (s.withDm t.dm).withRu { s.ru with routes := t.ru.routes }

theorem OnlyLag.modRoute {s t : State} (h : OnlyLag s t) (d : Nat) (g : Route → Route) :
    OnlyLag s (modRoute d g t) := by
  unfold Machine.modRoute
  split
  · exact h
  · unfold OnlyLag at h ⊢
    rw [h]
    rfl

theorem OnlyLag.modDelivery {s t : State} (h : OnlyLag s t) (d : Nat) (g : Delivery → Delivery) :
    OnlyLag s (modDelivery d g t) := by
  unfold OnlyLag at h ⊢
  rw [h]
  rfl

theorem OnlyLag.dmSetLag {s t : State} (h : OnlyLag s t) (lag lagMax : Nat) (adapt : Bool) (limit d : Nat) :
    OnlyLag s (dmSetLag lag lagMax adapt limit d t) := by
  unfold Machine.dmSetLag
  dsimp only
  split
  · exact (h.modDelivery ..).modRoute ..
  · exact h.modDelivery ..

/-! ### The tariff in use -/

theorem inUse_iff {st : BookingState} : (st.isOpen || st == .closing) = true ↔ st ≠ .empty ∧ st ≠ .fetching := by
  cases st <;> decide

theorem tariffUsers_eq (s : State) (i : Nat) : tariffUsers s i = (List.range 128).filter (fun e =>
    decide ((s.entry e).state ≠ .empty ∧ (s.entry e).state ≠ .fetching ∧ (s.entry e).desc.tariff = i)) := by
  unfold tariffUsers
  congr 1
  funext e
  rw [Bool.eq_iff_iff, Bool.and_eq_true, inUse_iff, beq_iff_eq, decide_eq_true_iff, and_assoc]

/-- The head of a filtered range is the least number that passes. -/
theorem filter_range_head {p : Nat → Bool} {n e : Nat} (he : e < n) (hp : p e = true) (hlow : ∀ i < e, p i = false) :
    ∃ es, (List.range n).filter p = e :: es := by
  have hhead : ((List.range n).filter p).head? = some e := by
    rw [List.head?_filter]
    exact find_range_eq_some he hp hlow
  exact List.head?_eq_some_iff.mp hhead

theorem unlisted_tariff {p : Nat → Nat} (h : 15 < p 0 ∨ p 2 ∉ [0, 1, 2, 4] ∨ p 4 ∉ [1, 6, 15, 30, 60]) :
    (15 < p 0 || !([0, 1, 2, 4].contains (p 2)) || !([1, 6, 15, 30, 60].contains (p 4))) = true := by
  simpa [or_assoc] using h

theorem listed_tariff {p : Nat → Nat} (h0 : p 0 < 16) (h2 : p 2 ∈ [0, 1, 2, 4]) (h4 : p 4 ∈ [1, 6, 15, 30, 60]) :
    ¬(15 < p 0 || !([0, 1, 2, 4].contains (p 2)) || !([1, 6, 15, 30, 60].contains (p 4))) = true := by
  simp only [Bool.or_eq_true, decide_eq_true_iff, Bool.not_eq_true', List.contains_eq_mem, decide_eq_false_iff_not]
  rintro ((h | h) | h)
  · omega
  · exact h h2
  · exact h h4

/-! ### The commands -/

/-- A command for one of `n` objects, or for all. -/
theorem unnamed_iff {x n : Nat} : ¬(n < x && x != 255) = true ↔ x < n + 1 ∨ x = 255 := by
  rw [Bool.and_eq_true, decide_eq_true_iff, bne_iff_ne]
  omega

theorem feedParamsOf_eq (p : Nat → Nat) : feedParamsOf p =
    ⟨max 1 (min 255 (p 1)), max 1 (min 15 (p 2)), max 100 (min 60000 (p 3)), max 10 (min 5000 (p 4)),
      min 600000 (p 5), min 1023 (p 6), min 1023 (p 7), min 1023 (p 8)⟩ := by
  simp [feedParamsOf, clamp_eq]

/-- R87 where the feed is named and the thresholds are in order. -/
theorem fmSetParamsCommand_of_ordered {p : Nat → Nat} {x : FeedParams} (hx : feedParamsOf p = x)
    (hp : p 0 < 64 ∨ p 0 = 255) (hrecover : x.recoverThreshold < x.degradeThreshold)
    (hfail : x.degradeThreshold < x.failThreshold) (s : State) :
    fmSetParamsCommand p s = (if p 0 = 255 then forAll 64 (fun f => State.setFeedParams f x) s
        else s.setFeedParams (p 0) x,
      ⟨if x = ⟨p 1, p 2, p 3, p 4, p 5, p 6, p 7, p 8⟩ then .done else .clamped, x.failThreshold,
        [x.qualLength, x.attemptLimit, x.retryInterval, x.lossTimeout, x.barRelease, x.degradeThreshold]⟩) := by
  rw [fmSetParamsCommand, hx, if_neg (unnamed_iff.mpr hp), if_neg (by simp; omega)]
  refine Prod.ext rfl (carried_eq _ _ _ ?_)
  rw [FeedParams.mk.injEq]
  simp only [Bool.or_eq_true, bne_iff_ne]
  tauto

theorem ruSetParamsCommand_of_named {p : Nat → Nat} (hp : p 0 < 48 ∨ p 0 = 255) (s : State) (x : DestParams)
    (hx : x = ⟨max 100 (min 10000 (p 1)), min 10000 (p 2), max 5 (min 600 (p 3)), min 10000 (p 4)⟩) :
    ruSetParamsCommand p s = (if p 0 = 255 then forAll 48 (fun d => State.setDestParams d x) s
        else s.setDestParams (p 0) x,
      ⟨if x = ⟨p 1, p 2, p 3, p 4⟩ then .done else .clamped, 0,
        [x.takeTimeout, x.freezeLimit, x.revertHold, x.impairmentHold]⟩) := by
  have hvalue : x =
      ⟨clamp 100 10000 (p 1), clamp 0 10000 (p 2), clamp 5 600 (p 3), clamp 0 10000 (p 4)⟩ := by
    rw [hx]
    simp [clamp_eq]
  rw [ruSetParamsCommand, if_neg (unnamed_iff.mpr hp), ← hvalue]
  refine Prod.ext rfl (carried_eq _ _ _ ?_)
  rw [DestParams.mk.injEq]
  simp only [Bool.or_eq_true, bne_iff_ne]
  tauto

theorem halfDepth_pos {s : State} (hs : s.inBounds = true) : 1 ≤ (s.lpu.depth.getD 1024) / 2 := by
  have hdepth := ((State.inBounds_iff s).mp hs).depth
  cases hd : s.lpu.depth with
  | none => decide
  | some n =>
    rw [hd] at hdepth
    have : n = 64 ∨ n = 128 ∨ n = 256 ∨ n = 512 ∨ n = 1024 := by simpa using hdepth
    simp only [Option.getD_some]
    omega

theorem dmSetLagCommand_of_named {p : Nat → Nat} (hp : p 0 < 48 ∨ p 0 = 255) (hflag : p 3 ≤ 1) {s : State}
    (hs : s.inBounds = true) {lag lagMax limit : Nat} (hmax : lagMax = max 1 (min ((s.lpu.depth.getD 1024) / 2) (p 2)))
    (hlag : lag = max 1 (min lagMax (p 1))) (hlimit : limit = max 1 (min 1000 (p 4))) :
    dmSetLagCommand p s = (if p 0 = 255 then forAll 48 (dmSetLag lag lagMax (p 3 == 1) limit) s
        else dmSetLag lag lagMax (p 3 == 1) limit (p 0) s,
      ⟨if lag = p 1 ∧ lagMax = p 2 ∧ limit = p 4 then .done else .clamped, 0, [lag, lagMax, p 3, limit]⟩) := by
  have hmax' : clamp 1 (halfDepth s) (p 2) = lagMax := (clamp_eq (halfDepth_pos hs) _).trans hmax.symm
  have hlag' : clamp 1 lagMax (p 1) = lag := (clamp_eq (hmax ▸ le_max_left ..) _).trans hlag.symm
  have hlimit' : clamp 1 1000 (p 4) = limit := (clamp_eq (by decide) _).trans hlimit.symm
  rw [dmSetLagCommand, if_neg (by simp; omega), hmax']
  dsimp only
  rw [hlag', hlimit']
  refine Prod.ext rfl (carried_eq _ _ _ ?_)
  simp only [Bool.or_eq_true, bne_iff_ne]
  tauto

theorem muLoadCommand_of_unused {p : Nat → Nat} (h0 : p 0 < 16) (h2 : p 2 ∈ [0, 1, 2, 4])
    (h4 : p 4 ∈ [1, 6, 15, 30, 60]) {s : State} (hunused : tariffUsers s (p 0) = []) {x : Tariff}
    (hx : x = ⟨min 65535 (p 1), p 2, max 8 (min 32 (p 3)), p 4, min 7200 (p 5), min 65535 (p 6), p 7⟩) :
    muLoadCommand p s = (s.setTariff (p 0) (some x),
      ⟨if x = ⟨p 1, p 2, p 3, p 4, p 5, p 6, p 7⟩ then .done else .clamped, p 0,
        [x.rate, x.weight, x.overrun, x.quantum, x.minimum, x.fee]⟩) := by
  have hrate : clamp 0 65535 (p 1) = x.rate := by simp [hx, clamp_eq]
  have hoverrun : clamp 8 32 (p 3) = x.overrun := by simp [hx, clamp_eq]
  have hminimum : clamp 0 7200 (p 5) = x.minimum := by simp [hx, clamp_eq]
  have hfee : clamp 0 65535 (p 6) = x.fee := by simp [hx, clamp_eq]
  have hweight : p 2 = x.weight := by rw [hx]
  have hquantum : p 4 = x.quantum := by rw [hx]
  have hcap : p 7 = x.cap := by rw [hx]
  rw [muLoadCommand, if_neg (listed_tariff h0 h2 h4), hunused]
  dsimp only
  rw [hrate, hoverrun, hminimum, hfee, hweight, hquantum, hcap]
  refine Prod.ext rfl (carried_eq _ _ _ ?_)
  have hsame : x = ⟨p 1, x.weight, p 3, x.quantum, p 5, p 6, x.cap⟩ ↔
      x.rate = p 1 ∧ x.overrun = p 3 ∧ x.minimum = p 5 ∧ x.fee = p 6 := by
    cases x
    simp
  rw [hsame]
  simp only [Bool.or_eq_true, bne_iff_ne]
  tauto

/-- Settles O45. -/
theorem settingsAreBroughtIntoRange : Obligations.SettingsAreBroughtIntoRange := by
  refine ⟨?applied, ?refused⟩
  case applied =>
    intro s n data rest p within
    have hdata : commandParam data = p := rfl
    refine ⟨fun h hp => ?feed, fun h hp => ?dest, fun h hp hflag => ?lag, fun h h0 h2 h4 hunused => ?tariff⟩
    case feed =>
      intro x
      have hx : feedParamsOf p = x := feedParamsOf_eq p
      refine ⟨fun hr hf => ?_, fun hbad => ?_⟩
      · refine ⟨_, gives_of_owner (exec_setFeedParameters s) h (fmSetParamsCommand_of_ordered hx hp hr hf _),
          fun f hf64 => ?_, ?_⟩
        · exact oneOrAll_each State.feedParams (fun _ _ => x) (fun i t => State.feedParams_setFeedParams_self ..)
            (fun i j t hne => State.feedParams_setFeedParams_of_ne _ _ hne) hf64 _
        · exact oneOrAll_preserves (P := fun t => t = (s.started rest).withFm { s.fm with params := t.fm.params })
            (fun i t ht => by rw [ht]; rfl) 64 (p 0) rfl
      · refine gives_of_owner (exec_setFeedParameters s) h ?_
        rw [hdata, fmSetParamsCommand, hx, if_neg (unnamed_iff.mpr hp), if_pos (by simpa using hbad)]
        rfl
    case dest =>
      intro x
      refine ⟨_, gives_of_owner (exec_setDestinationParameters s) h (ruSetParamsCommand_of_named hp _ x rfl),
        fun d hd => ?_, ?_⟩
      · exact oneOrAll_each State.destParams (fun _ _ => x) (fun i t => State.destParams_setDestParams_self ..)
          (fun i j t hne => State.destParams_setDestParams_of_ne _ _ hne) hd _
      · exact oneOrAll_preserves (P := fun t => t = (s.started rest).withRu { s.ru with params := t.ru.params })
          (fun i t ht => by rw [ht]; rfl) 48 (p 0) rfl
    case lag =>
      intro half lagMax lag limit hs
      have hs' : (s.started rest).inBounds = true := hs
      have hview : ∀ d < 48, lagView (if p 0 = 255 then forAll 48 (dmSetLag lag lagMax (p 3 == 1) limit) (s.started rest)
          else dmSetLag lag lagMax (p 3 == 1) limit (p 0) (s.started rest)) d =
          if p 0 = 255 ∨ d = p 0 then setLagView lag lagMax (p 3 == 1) limit (lagView (s.started rest) d)
          else lagView (s.started rest) d := fun d hd =>
        oneOrAll_each lagView (fun _ v => setLagView lag lagMax (p 3 == 1) limit v)
          (fun i t => dmSetLag_view_self ..) (fun i j t hne => dmSetLag_view_of_ne _ _ _ _ _ hne) hd _
      refine ⟨_, gives_of_owner (exec_setLag s) h (dmSetLagCommand_of_named hp hflag hs' rfl rfl rfl),
        fun d hd => ?_, fun d hd rt hrt => ?_, ?_⟩
      · refine (congrArg (fun v => v.2.1) (hview d hd)).trans ?_
        split <;> rfl
      · refine (congrArg (fun v => v.2.2) (hview d hd)).trans ?_
        have hrt' : (s.started rest).route d = some rt := hrt
        have hmode : (s.started rest).lpu.mode = s.lpu.mode := rfl
        have hdelivery : (s.started rest).delivery d = s.delivery d := rfl
        by_cases hnamed : p 0 = 255 ∨ d = p 0
        · simp only [hnamed, if_true, setLagView, lagView, hrt', hmode, hdelivery, true_and, Option.map_some]
          by_cases hask : s.lpu.mode = .run ∧ (s.delivery d).lag ≠ lag
          · rw [if_pos hask, Route.askLagReset]
            simp only [hask.1, ne_eq, hask.2, not_false_eq_true, true_and]
          · rw [if_neg hask, if_neg fun hboth => hask ⟨hboth.1, hboth.2.1⟩]
        · simp only [hnamed, if_false, lagView, hrt', false_and]
      · exact oneOrAll_preserves (P := OnlyLag (s.started rest)) (fun i t ht => ht.dmSetLag ..) 48 (p 0) rfl
    case tariff =>
      intro x
      have hnone : tariffUsers (s.started rest) (p 0) = [] := by
        rw [tariffUsers_eq, List.filter_eq_nil_iff]
        intro e he huse
        obtain ⟨hne, hnf, htariff⟩ := of_decide_eq_true huse
        exact hunused e (List.mem_range.mp he) (by simpa using ⟨hne, hnf⟩) htariff
      refine ⟨_, gives_of_owner (exec_loadTariff s) h (muLoadCommand_of_unused h0 h2 h4 hnone rfl), ?_, fun i hi => ?_, rfl⟩
      · exact State.tariff_setTariff_self ..
      · exact State.tariff_setTariff_of_ne _ _ hi
  case refused =>
    intro s n data rest p
    have hdata : commandParam data = p := rfl
    refine ⟨fun h hp hall => ?_, fun h hp hall => ?_, fun h hbad => ?_, fun h => ⟨fun hbad => ?_, ?_⟩⟩
    · refine gives_of_owner (exec_setFeedParameters s) h ?_
      rw [hdata, fmSetParamsCommand, if_pos (by simpa using ⟨hp, hall⟩)]
      rfl
    · refine gives_of_owner (exec_setDestinationParameters s) h ?_
      rw [hdata, ruSetParamsCommand, if_pos (by simpa using ⟨hp, hall⟩)]
      rfl
    · refine gives_of_owner (exec_setLag s) h ?_
      rw [hdata, dmSetLagCommand, if_pos (by simpa using hbad)]
      rfl
    · refine gives_of_owner (exec_loadTariff s) h ?_
      rw [hdata, muLoadCommand, if_pos (unlisted_tariff hbad)]
      rfl
    · intro e h0 h2 h4 he uses huse hlow
      refine gives_of_owner (exec_loadTariff s) h ?_
      have husers : tariffUsers (s.started rest) (p 0) = (List.range 128).filter (fun i => decide (uses i)) :=
        tariffUsers_eq (s.started rest) (p 0)
      obtain ⟨es, hes⟩ := filter_range_head (p := fun i => decide (uses i)) he (decide_eq_true huse)
        (fun i hi => decide_eq_false (hlow i hi))
      rw [hdata, muLoadCommand, if_neg (listed_tariff h0 h2 h4), husers, hes]
      rfl

end Sys2Proof.Machine
end

section
/-! SUPPORT. Accrual (O41), the laws of the charge (O60), and the booking commands and requests (O53, O54, O55). -/

namespace Sys2Proof.Machine

section Started

variable (rest : List Nat) (s : State)

@[simp] theorem State.started_tb : (s.started rest).tb = s.tb := rfl
@[simp] theorem State.started_bt : (s.started rest).bt = s.bt := rfl
@[simp] theorem State.started_ga : (s.started rest).ga = s.ga := rfl
@[simp] theorem State.started_ru : (s.started rest).ru = s.ru := rfl
@[simp] theorem State.started_entry (e : Nat) : (s.started rest).entry e = s.entry e := rfl

end Started

theorem modEntry_entry_self (e : Nat) (g : Entry → Entry) (s : State) : (modEntry e g s).entry e = g (s.entry e) :=
  State.entry_setEntry_self ..

theorem modEntry_entry_of_ne {e f : Nat} (h : f ≠ e) (g : Entry → Entry) (s : State) :
    (modEntry e g s).entry f = s.entry f :=
  State.entry_setEntry_of_ne _ _ h

/-! ### Accrual -/

/-- Settles O41. -/
theorem accrualAddsOneMillisecond : Obligations.AccrualAddsOneMillisecond := by
  intro s e x m c y
  have hentry : (muAccrue e s).entry e = { x with meters := m.accrue x.state c } := modEntry_entry_self ..
  have hy : y = m.accrue x.state c := congrArg Entry.meters hentry
  rw [hentry, hy]
  refine ⟨rfl, fun f hf => modEntry_entry_of_ne hf _ _, ?_, ?_, ?_, ?_, ?_, ?_, ?_, ?_, fun h => ?_⟩
  case refine_9 =>
    have hstate : x.state = .empty ∨ x.state = .fetching ∨ x.state = .scheduled ∨ x.state = .waiting ∨
        x.state = .closing := by simpa using h
    obtain h | h | h | h | h := hstate <;> rw [h] <;> rfl
  all_goals
    intro hstate
    try intro hc
    simp only [*]
    rfl

/-! ### The laws of the charge -/

theorem roundedSeconds_laws {t : Tariff} (hq : 1 ≤ t.quantum) (x : Nat) :
    t.quantum ∣ roundedSeconds t x ∧ x ≤ roundedSeconds t x ∧ roundedSeconds t x < x + t.quantum := by
  have hdiv := Nat.div_add_mod (x + (t.quantum - 1)) t.quantum
  have hmod := Nat.mod_lt (x + (t.quantum - 1)) hq
  refine ⟨Dvd.intro _ rfl, ?_, ?_⟩ <;> rw [roundedSeconds, ceilDiv] <;> omega

theorem roundedSeconds_zero (t : Tariff) : roundedSeconds t 0 = 0 := by
  rw [roundedSeconds, ceilDiv, Nat.zero_add]
  by_cases hq : t.quantum = 0
  · rw [hq, Nat.zero_mul]
  · rw [Nat.div_eq_of_lt (by omega), Nat.mul_zero]

theorem ceilDiv_mono {x y : Nat} (h : x ≤ y) (b : Nat) : ceilDiv x b ≤ ceilDiv y b :=
  Nat.div_le_div_right (Nat.add_le_add_right h _)

theorem ceilDiv_le {x b n : Nat} (hb : 0 < b) (h : x ≤ n * b) : ceilDiv x b ≤ n := by
  rw [ceilDiv, Nat.div_le_iff_le_mul_add_pred hb]
  rw [Nat.mul_comm] at h
  omega

theorem roundedSeconds_mono (t : Tariff) {x y : Nat} (h : x ≤ y) : roundedSeconds t x ≤ roundedSeconds t y :=
  Nat.mul_le_mul_left _ (ceilDiv_mono h _)

/-- The total of the fifth and sixth steps for S seconds before the rounding. -/
def totalFor (t : Tariff) (x : Nat) : Nat := t.fee + usage t (roundedSeconds t x)

theorem totalFor_mono (t : Tariff) {x y : Nat} (h : x ≤ y) : totalFor t x ≤ totalFor t y :=
  Nat.add_le_add_left (ceilDiv_mono (Nat.mul_le_mul_right _ (roundedSeconds_mono t h)) _) _

/-- A total brought under the cap (R183). -/
def cappedTotal (t : Tariff) (total : Nat) : Nat := if capApplies t total then t.cap else total

theorem cappedTotal_eq (t : Tariff) (total : Nat) :
    cappedTotal t total = if t.cap = 0 then total else min t.cap total := by
  unfold cappedTotal capApplies
  by_cases h0 : t.cap = 0
  · simp [h0]
  · by_cases hlt : t.cap < total
    · simp [h0, hlt, Nat.min_eq_left hlt.le]
    · simp [h0, hlt, Nat.min_eq_right (Nat.not_lt.mp hlt)]

theorem cappedTotal_mono (t : Tariff) {x y : Nat} (h : x ≤ y) : cappedTotal t x ≤ cappedTotal t y := by
  rw [cappedTotal_eq, cappedTotal_eq]
  split
  · exact h
  · exact min_le_min_left _ h

theorem cappedTotal_le (t : Tariff) (x : Nat) : cappedTotal t x ≤ x := by
  rw [cappedTotal_eq]
  split
  · exact le_rfl
  · exact min_le_right _ _

theorem chargeOf_charge (final : Bool) (t : Tariff) (m : Meters) : (chargeOf final t m).charge =
    if m.delivered = 0 then 0 else cappedTotal t (totalFor t (afterMinimum final t (billableSeconds t m))) := by
  unfold chargeOf
  split <;> rfl

theorem chargeOf_seconds (final : Bool) (t : Tariff) (m : Meters) : (chargeOf final t m).seconds =
    if m.delivered = 0 then 0 else roundedSeconds t (afterMinimum final t (billableSeconds t m)) := by
  unfold chargeOf
  split <;> rfl

theorem le_afterMinimum (final : Bool) (t : Tariff) (x : Nat) : x ≤ afterMinimum final t x := by
  unfold afterMinimum
  split
  next h =>
    rw [Bool.and_eq_true, decide_eq_true_iff] at h
    exact h.2.le
  · exact le_rfl

theorem afterMinimum_le (final : Bool) (t : Tariff) (x : Nat) : afterMinimum final t x ≤ max x t.minimum := by
  unfold afterMinimum
  split
  · exact le_max_right _ _
  · exact le_max_left _ _

theorem weightedTime_mono (t : Tariff) {m k : Meters} (hc : m.c ≤ k.c) (hd : m.d ≤ k.d) (hoc : m.oc ≤ k.oc)
    (hod : m.od ≤ k.od) : weightedTime t m ≤ weightedTime t k := by
  unfold weightedTime
  gcongr

/-- Table 9-5: the weighted time in the ranges of R175. -/
theorem weightedTime_le {t : Tariff} {m : Meters} (hwindow : m.c + m.d + m.u ≤ 86400000)
    (hover : m.oc + m.od + m.ou ≤ 14400000) (hw : t.weight ≤ 4) (hov : t.overrun ≤ 32) :
    weightedTime t m ≤ 4608000000 := by
  have hd : t.weight * m.d ≤ 4 * m.d := Nat.mul_le_mul_right _ hw
  have hod : t.weight * m.od ≤ 4 * m.od := Nat.mul_le_mul_right _ hw
  have hovr : t.overrun * (4 * m.oc + t.weight * m.od) ≤ 32 * (4 * m.oc + 4 * m.od) :=
    Nat.mul_le_mul hov (by omega)
  unfold weightedTime
  omega

/-- A whole number of quanta that S does not exceed bounds S′. -/
theorem roundedSeconds_le {t : Tariff} (hq : t.quantum ∈ [1, 6, 15, 30, 60]) {x : Nat} (hx : x ≤ 144000) :
    roundedSeconds t x ≤ 144000 := by
  have hdvd : t.quantum ∣ 144000 ∧ 0 < t.quantum := by
    have : t.quantum = 1 ∨ t.quantum = 6 ∨ t.quantum = 15 ∨ t.quantum = 30 ∨ t.quantum = 60 := by simpa using hq
    obtain h | h | h | h | h := this <;> rw [h] <;> decide
  obtain ⟨⟨n, hn⟩, hpos⟩ := hdvd
  calc roundedSeconds t x ≤ t.quantum * n := Nat.mul_le_mul_left _ (ceilDiv_le hpos (by rw [Nat.mul_comm n]; omega))
    _ = 144000 := hn.symm

/-- Settles O60. -/
theorem chargesKeepTheirLaws : Obligations.ChargesKeepTheirLaws := by
  refine ⟨fun t x hq => ?_, fun t m k final => ⟨fun hzero => ?_, fun hcap => ?_, fun hc hd hoc hod => ?_, ?_,
    fun hwindow hover hw hov hq hmin hrate hfee => ?_⟩⟩
  · obtain ⟨hdvd, hle, hlt⟩ := roundedSeconds_laws hq x
    exact ⟨hdvd, hle, hlt, fun h => h ▸ roundedSeconds_zero t⟩
  · exact if_pos hzero
  · rw [chargeOf_charge, cappedTotal_eq, if_neg hcap]
    split
    · exact Nat.zero_le _
    · exact min_le_left _ _
  · rw [chargeOf_charge, chargeOf_charge]
    by_cases hm : m.delivered = 0
    · rw [if_pos hm]
      exact Nat.zero_le _
    · have hk : k.delivered ≠ 0 := by
        unfold Meters.delivered at *
        omega
      rw [if_neg hm, if_neg hk]
      exact cappedTotal_mono t (totalFor_mono t (ceilDiv_mono (weightedTime_mono t hc hd hoc hod) _))
  · rw [chargeOf_charge, chargeOf_charge]
    split
    · exact le_rfl
    · exact cappedTotal_mono t (totalFor_mono t (le_afterMinimum true t _))
  · have hw4 : t.weight ≤ 4 := by
      have : t.weight = 0 ∨ t.weight = 1 ∨ t.weight = 2 ∨ t.weight = 4 := by simpa using hw
      omega
    have htime : weightedTime t m ≤ 4608000000 := weightedTime_le hwindow hover hw4 hov
    have hbillable : billableSeconds t m ≤ 144000 := ceilDiv_le (by decide) (by omega)
    have hafter := afterMinimum_le final t (billableSeconds t m)
    have hseconds : roundedSeconds t (afterMinimum final t (billableSeconds t m)) ≤ 144000 :=
      roundedSeconds_le hq (by omega)
    have husage : usage t (roundedSeconds t (afterMinimum final t (billableSeconds t m))) ≤ 157284000 :=
      ceilDiv_le (by decide) ((Nat.mul_le_mul hseconds hrate).trans (by decide))
    refine ⟨htime, ?_, ?_⟩
    · rw [chargeOf_seconds]
      split
      · exact Nat.zero_le _
      · exact hseconds
    · rw [chargeOf_charge]
      split
      · exact Nat.zero_le _
      · refine (cappedTotal_le t _).trans ?_
        unfold totalFor
        omega

/-! ### Cancel and Release -/

/-- What Cancel and Release do with the booking they find, by its state. -/
theorem endCommand_acts {c : Instr} {code : Nat} {refusal : BookingState → Option ResultCode} {reason : CloseReason}
    {s : State} {n : Nat} {data : List Byte} {rest : List Nat}
    (hc : exec c s = .next (runCommand code (btEndCommand refusal reason) s)) (h : Starts code s n data rest) :
    (1 < commandParam data 1 → Gives c s n data (s.started rest) ⟨.range, 0, []⟩) ∧
    (commandParam data 1 ≤ 1 → bookingOf s (commandParam data 0) = none →
      Gives c s n data (s.started rest) ⟨.notFound, 0, []⟩) ∧
    ∀ e, commandParam data 1 ≤ 1 → bookingOf s (commandParam data 0) = some e →
      (refusal (s.entry e).state = none →
        let v := if commandParam data 1 = 1
          then (s.started rest).setEntry e { s.entry e with desc := { (s.entry e).desc with next := 0 } }
          else s.started rest
        Gives c s n data (btClose e reason v) ⟨.done, 0, [e, ((btClose e reason v).entry e).state.num]⟩) ∧
      ∀ r, refusal (s.entry e).state = some r →
        Gives c s n data (s.started rest) ⟨r, 0, [e, (s.entry e).state.num]⟩ := by
  refine ⟨fun hflag => ?_, fun hflag hnone => ?_, fun e hflag hfound => ⟨fun hends => ?_, fun r hr => ?_⟩⟩ <;>
    refine gives_of_owner hc h ?_ <;> rw [btEndCommand]
  · rw [if_pos hflag]
    rfl
  · rw [if_neg (Nat.not_lt.mpr hflag), withBooking, show bookingOf (s.started rest) (commandParam data 0) = none from hnone]
    rfl
  all_goals
    have hfound' : bookingOf (s.started rest) (commandParam data 0) = some e := hfound
    have hentry : (s.started rest).entry e = s.entry e := rfl
    rw [if_neg (Nat.not_lt.mpr hflag), withBooking, hfound']
    dsimp only
  · rw [hentry, hends]
    dsimp only
    by_cases hone : commandParam data 1 = 1
    · rw [hone]
      rfl
    · rw [if_neg hone, show (commandParam data 1 == 1) = false by simpa using hone]
      rfl
  · rw [hentry, hr]
    rfl

/-- Settles O53. -/
theorem cancelAndReleaseActByState : Obligations.CancelAndReleaseActByState := by
  intro s n data rest code c reason ends wrong hcase h p
  have hcases : (code = 0x0502 ∧ c = .cancel ∧ reason = .cancelled ∧ ends = [.scheduled, .waiting, .preroll] ∧
      wrong = [.live, .suspended, .overrun]) ∨ (code = 0x0504 ∧ c = .release ∧ reason = .released ∧
      ends = [.preroll, .live, .overrun, .suspended] ∧ wrong = [.scheduled, .waiting]) := by simpa using hcase
  obtain ⟨refusal, hc, hends, hwrong, hclosing⟩ : ∃ refusal : BookingState → Option ResultCode,
      exec c s = .next (runCommand code (btEndCommand refusal reason) s) ∧ (∀ st ∈ ends, refusal st = none) ∧
      (∀ st ∈ wrong, refusal st = some .wrongState) ∧ refusal .closing = some .tooLate := by
    obtain ⟨rfl, rfl, rfl, rfl, rfl⟩ | ⟨rfl, rfl, rfl, rfl, rfl⟩ := hcases
    · exact ⟨cancelRefusal, exec_cancel s, by decide, by decide, rfl⟩
    · exact ⟨releaseRefusal, exec_release s, by decide, by decide, rfl⟩
  obtain ⟨hrange, hnone, hfound⟩ := endCommand_acts hc h
  refine ⟨hrange, hnone, fun e hflag he => ?_⟩
  obtain ⟨hclose, hrefuse⟩ := hfound e hflag he
  refine ⟨fun hst => hclose (hends _ hst), fun hst => hrefuse _ (hwrong _ hst), fun hst => ?_⟩
  have hgives := hrefuse .tooLate (by rw [hst, hclosing])
  rw [hst] at hgives
  exact hgives

/-! ### Advance and Extend -/

/-- R101: an entry enters LIVE. -/
theorem Entry.enter_live (x : Entry) (nt : Nat) : x.enter .live nt =
    { x with state := .live, resume := none, hasLive := true, liveNT := if x.hasLive then x.liveNT else nt } := by
  unfold Entry.enter
  cases h : x.hasLive <;> simp [← h]

theorem btMoveHolder_entry_self (e : Nat) (st : BookingState) (s : State) :
    (btMoveHolder e st s).entry e = (s.entry e).enter st s.tb.seconds := by
  simp [btMoveHolder, btStateEvent]

theorem btMoveHolder_entry_of_ne {e f : Nat} (h : f ≠ e) (st : BookingState) (s : State) :
    (btMoveHolder e st s).entry f = s.entry f := by
  simp [btMoveHolder, btStateEvent, State.entry_setEntry_of_ne _ _ h]

/-- R117: a request for a destination without a holder. -/
theorem gaRequest_of_free {s : State} {b : Nat} (h : s.holder (s.entry b).desc.dest = none) :
    (gaRequest b s).holder (s.entry b).desc.dest = some b ∧
    (gaRequest b s).entry b =
      (s.entry b).enter (grantedState s.tb.seconds (s.entry b)) s.tb.seconds ∧
    (gaRequest b s).grantQueue (s.entry b).desc.dest = s.grantQueue (s.entry b).desc.dest ∧
    (gaRequest b s).bt.requestCount = s.bt.requestCount ∧ (gaRequest b s).tb = s.tb ∧
    ∀ i, i ≠ b → (gaRequest b s).entry i = s.entry i := by
  have hcount : ∀ v : State, (btGranted b v).bt.requestCount = v.bt.requestCount := fun v => by
    simp [btGranted, btStateEvent, State.setEntry]
  unfold gaRequest
  simp only [h]
  refine ⟨?_, ?_, ?_, ?_, ?_, fun i hi => ?_⟩
  · simp
  · rw [gaNotice_entry, raise_entry, btGranted_entry_self]
    rfl
  · rw [gaNotice_grantQueue, raise_grantQueue, btGranted_grantQueue]
    rfl
  · rw [gaNotice_bt, raise_bt, hcount]
    rfl
  · rw [gaNotice_tb, raise_tb, btGranted_tb]
    rfl
  · rw [gaNotice_entry, raise_entry, btGranted_entry_of_ne hi]
    rfl

theorem btAsk_eq {s : State} {e count : Nat} {x : Entry} (hx : s.entry e = x)
    (hcount : satAdd max64 s.bt.requestCount 1 = count) : btAsk e s =
      gaRequest e ((s.withBt { s.bt with requestCount := count }).setEntry e { x with requestNo := count }) := by
  subst hx hcount
  rfl

/-- No boundary of an advanced booking is due before its half boundary, at least a second away. -/
theorem btFireUpTo_of_advanced {s : State} {e nt : Nat} (hnt : s.tb.seconds = nt)
    (hstart : (s.entry e).effStart = nt) (hfired : 2 ≤ (s.entry e).fired) (hend : nt + 2 ≤ (s.entry e).desc.endSec) :
    btFireUpTo s.tb.seconds e 4 s = s := by
  refine btFireUpTo_idle _ _ _ _ fun ⟨_, hfour, hdue⟩ => ?_
  have hcases : (s.entry e).fired = 2 ∨ (s.entry e).fired = 3 := by omega
  obtain h | h := hcases <;> rw [h] at hdue <;> simp only [Entry.boundary, hstart, hnt] at hdue <;> omega

theorem btAdvanceCommand_of_found {p : Nat → Nat} {s : State} {e : Nat} (he : bookingOf s (p 0) = some e) :
    btAdvanceCommand p s =
      if !(s.entry e).state.advances then (s, bookingReply .wrongState e [] s)
      else if (s.entry e).desc.endSec ≤ s.tb.seconds || 86400 < (s.entry e).desc.endSec - s.tb.seconds then
        (s, .refuse .range)
      else (btAdvance e s, bookingReply .done e [((btAdvance e s).entry e).effStart] (btAdvance e s)) := by
  rw [btAdvanceCommand, withBooking, he]

theorem btAdvance_of_waiting {s : State} {e : Nat} (h : (s.entry e).state = .waiting) : btAdvance e s =
    btFireUpTo (modEntry e (Entry.advanced s.tb.seconds) s).tb.seconds e 4
      (modEntry e (Entry.advanced s.tb.seconds) s) := by
  unfold btAdvance
  simp only [h]

theorem btAdvance_of_preroll {s : State} {e : Nat} (h : (s.entry e).state = .preroll) : btAdvance e s =
    btFireUpTo (btMoveHolder e .live (modEntry e (Entry.advanced s.tb.seconds) s)).tb.seconds e 4
      (btMoveHolder e .live (modEntry e (Entry.advanced s.tb.seconds) s)) := by
  unfold btAdvance
  simp only [h]

theorem btAdvance_of_scheduled {s : State} {e : Nat} (h : (s.entry e).state = .scheduled) : btAdvance e s =
    btFireUpTo (btAsk e (modEntry e (Entry.advanced s.tb.seconds) s)).tb.seconds e 4
      (btAsk e (modEntry e (Entry.advanced s.tb.seconds) s)) := by
  unfold btAdvance
  simp only [h]

/-- Advance where it is accepted, with the half boundary at least a second away. -/
theorem btAdvanceCommand_of_accepted {p : Nat → Nat} {s v : State} {e : Nat} (he : bookingOf s (p 0) = some e)
    (hst : (s.entry e).state.advances = true) (h2 : s.tb.seconds + 2 ≤ (s.entry e).desc.endSec)
    (hday : (s.entry e).desc.endSec - s.tb.seconds ≤ 86400)
    (hv : btAdvance e s = btFireUpTo v.tb.seconds e 4 v)
    (htb : v.tb = s.tb) (hstart : (v.entry e).effStart = s.tb.seconds) (hfired : 2 ≤ (v.entry e).fired)
    (hend : (v.entry e).desc.endSec = (s.entry e).desc.endSec) :
    btAdvanceCommand p s = (v, ⟨.done, 0, [e, (v.entry e).state.num, s.tb.seconds]⟩) := by
  have hadvance : btAdvance e s = v :=
    hv.trans (btFireUpTo_of_advanced (nt := s.tb.seconds) (by rw [htb]) hstart hfired (by omega))
  rw [btAdvanceCommand_of_found he, if_neg (by simp [hst]), if_neg (by simp; omega), hadvance, hstart]
  rfl

theorem Entry.inOverrun_iff {x : Entry} :
    x.inOverrun = true ↔ x.state = .overrun ∨ x.state = .suspended ∧ x.resume = some .overrun := by
  simp [Entry.inOverrun]

/-- Settles O54. -/
theorem advanceAndExtendMoveTheBooking : Obligations.AdvanceAndExtendMoveTheBooking := by
  refine ⟨?advance, ?extend⟩
  case advance =>
    intro s n data rest e h he x nt y
    have he' : bookingOf (s.started rest) (commandParam data 0) = some e := he
    have hy : (modEntry e (Entry.advanced nt) (s.started rest)) = (s.started rest).setEntry e y := rfl
    have hyself : ((s.started rest).setEntry e y).entry e = y := State.entry_setEntry_self ..
    have hyfired : 2 ≤ y.fired := le_max_right _ _
    refine ⟨fun hst => ?_, fun hst hbad => ?_, fun h2 hday => ⟨fun hst => ?_, fun hst => ?_, fun hst hfree => ?_⟩⟩
    · refine gives_of_owner (exec_advance s) h ?_
      have hno : ((s.started rest).entry e).state.advances = false :=
        (by decide : ∀ st ∈ [BookingState.live, .suspended, .overrun, .closing], st.advances = false) _ hst
      rw [btAdvanceCommand_of_found he', if_pos (by rw [hno]; rfl)]
      rfl
    · refine gives_of_owner (exec_advance s) h ?_
      have hyes : ((s.started rest).entry e).state.advances = true :=
        (by decide : ∀ st ∈ [BookingState.scheduled, .waiting, .preroll], st.advances = true) _ hst
      rw [btAdvanceCommand_of_found he', if_neg (by rw [hyes]; decide), if_pos (by rw [Bool.or_eq_true, decide_eq_true_iff, decide_eq_true_iff]; exact hbad)]
      rfl
    · have hst' : ((s.started rest).entry e).state = .waiting := hst
      refine gives_of_owner (exec_advance s) h ?_
      rw [btAdvanceCommand_of_accepted (v := (s.started rest).setEntry e y) he' (by rw [hst']; rfl) h2 hday
        (btAdvance_of_waiting hst') rfl (by rw [hyself]; rfl) (by rw [hyself]; exact hyfired) (by rw [hyself]; rfl), hyself]
      rw [show y.state = .waiting from hst]
      rfl
    · have hst' : ((s.started rest).entry e).state = .preroll := hst
      have hself : (btMoveHolder e .live ((s.started rest).setEntry e y)).entry e = y.enter .live nt := by
        rw [btMoveHolder_entry_self, hyself]
        rfl
      refine ⟨btMoveHolder e .live ((s.started rest).setEntry e y), gives_of_owner (exec_advance s) h ?_, ?_, ?_, ?_,
        fun i hi => ?_⟩
      · rw [btAdvanceCommand_of_accepted (v := btMoveHolder e .live ((s.started rest).setEntry e y)) he'
          (by rw [hst']; rfl) h2 hday (btAdvance_of_preroll hst') (by simp [btMoveHolder, btStateEvent])
          (by rw [hself]; simp [y, nt]) (by rw [hself]; simpa using hyfired)
          (by rw [hself]; simp [y, x]), hself]
        rw [Entry.enter_state]
        rfl
      · rw [hself, Entry.enter_live]
      · simp [btMoveHolder, btStateEvent]
      · simp [btMoveHolder, btStateEvent]
      · rw [btMoveHolder_entry_of_ne hi, State.entry_setEntry_of_ne _ _ hi]
        rfl
    · have hst' : ((s.started rest).entry e).state = .scheduled := hst
      let count := min 18446744073709551615 (s.bt.requestCount + 1)
      let z : Entry := { y with requestNo := count }
      let v := (((s.started rest).setEntry e y).withBt
        { ((s.started rest).setEntry e y).bt with requestCount := count }).setEntry e z
      have hask : btAsk e ((s.started rest).setEntry e y) = gaRequest e v := btAsk_eq hyself rfl
      have hz : v.entry e = z := State.entry_setEntry_self ..
      have hzfree : v.holder (v.entry e).desc.dest = none := by
        rw [hz]
        exact hfree
      obtain ⟨hholder, hentry, -, hcount, htb, hother⟩ := gaRequest_of_free hzfree
      have hgranted : grantedState v.tb.seconds z = .live := by
        have hlate : ¬(z.fired < 2 ∧ v.tb.seconds < z.effStart) := by
          intro hboth
          have : 2 ≤ z.fired := hyfired
          omega
        have hzst : z.state = .scheduled := hst
        simp only [grantedState, hzst]
        rw [if_neg (by simpa using hlate)]
      rw [hz, hgranted] at hentry
      have hnt : v.tb.seconds = nt := rfl
      rw [hnt] at hentry
      refine ⟨gaRequest e v, gives_of_owner (exec_advance s) h ?_, ?_, hcount, ?_, fun i hi => ?_⟩
      · rw [btAdvanceCommand_of_accepted (v := gaRequest e v) he' (by rw [hst']; rfl) h2 hday
          (by rw [btAdvance_of_scheduled hst', ← hask]; rfl) (by rw [htb]; rfl) (by rw [hentry]; simp [z, y, nt])
          (by rw [hentry]; simpa using hyfired) (by rw [hentry]; simp [z, y, x]), hentry, Entry.enter_state]
        rfl
      · rw [hz] at hholder
        exact hholder
      · rw [hentry, Entry.enter_live, hcount]
        rfl
      · rw [hother i hi]
        exact (State.entry_setEntry_of_ne _ _ hi).trans (State.entry_setEntry_of_ne _ _ hi)
  case extend =>
    intro s n data rest h p
    have hdata : commandParam data = p := rfl
    refine ⟨fun hflag => ?_, fun hflag hnone => ?_, fun e hflag hfound => ?_⟩
    · refine gives_of_owner (exec_extend s) h ?_
      rw [hdata, btExtendCommand, if_pos hflag]
      rfl
    · refine gives_of_owner (exec_extend s) h ?_
      rw [hdata, btExtendCommand, if_neg (Nat.not_lt.mpr hflag), withBooking,
        show bookingOf (s.started rest) (p 0) = none from hnone]
      rfl
    · intro x minutes metered
      have hfound' : bookingOf (s.started rest) (p 0) = some e := hfound
      have hentry : (s.started rest).entry e = x := rfl
      have hminutes : min 240 (p 1) = minutes := rfl
      have hmetered : (x.inOverrun && decide (minutes * 60000 ≤ x.meters.over)) = true ↔ metered := by
        rw [Bool.and_eq_true, Entry.inOverrun_iff, decide_eq_true_iff]
        rfl
      have howner : btExtendCommand p (s.started rest) =
          if x.state = .closing then (s.started rest, bookingReply .tooLate e [] (s.started rest))
          else if x.inOverrun && minutes * 60000 ≤ x.meters.over then (s.started rest, .refuse .range)
          else ((s.started rest).setEntry e { x with desc := { x.desc with allowance := minutes, holdOn := p 2 == 1 } },
            bookingReply (if 240 < p 1 then .clamped else .done) e [minutes, p 2] ((s.started rest).setEntry e
              { x with desc := { x.desc with allowance := minutes, holdOn := p 2 == 1 } })) := by
        rw [btExtendCommand, if_neg (Nat.not_lt.mpr hflag), withBooking, hfound']
        rfl
      refine ⟨fun hst => ?_, fun hm => ?_, fun hst hm => ?_⟩ <;> refine gives_of_owner (exec_extend s) h ?_ <;>
        rw [hdata, howner]
      · rw [if_pos hst, bookingReply, hentry, hst]
        rfl
      · have hst : x.state ≠ .closing := by
          obtain ⟨h1 | ⟨h1, -⟩, -⟩ := hm <;> rw [h1] <;> decide
        rw [if_neg hst, if_pos (hmetered.mpr hm)]
        rfl
      · rw [if_neg hst, if_neg fun h => hm (hmetered.mp h), bookingReply, State.entry_setEntry_self]
        by_cases h240 : p 1 ≤ 240
        · rw [if_neg (Nat.not_lt.mpr h240), if_pos h240]
          rfl
        · rw [if_pos (Nat.not_le.mp h240), if_neg h240]
          rfl

end Sys2Proof.Machine
end

section
/-! SUPPORT. The layers that later statements share: what an event reads and changes, what a record's placement changes, and
the reads that are answered from one slot. -/

namespace Sys2Proof.Machine

/-! ### An event reads and changes the link part and the ring writer alone -/

/-- `u` with the link part and the ring writer of `s`. -/
def State.withLink (u s : State) : State := { u with lpu := s.lpu, rw := s.rw }

theorem rwSubmit_link (u s : State) (o : OwnRequest) : rwSubmit o (u.withLink s) = u.withLink (rwSubmit o s) := by
  change (if s.rw.waiting.isEmpty && s.lpu.ownQueue.length < 16 then _ else _) = u.withLink (if _ then _ else _)
  split <;> rfl

theorem rwRequest_link (u s : State) (kind : OwnKind) (access : ReqKind) (addr len : Nat) (data : List Byte) :
    rwRequest kind access addr len data (u.withLink s) = u.withLink (rwRequest kind access addr len data s) :=
  rwSubmit_link u (s.withLpu { s.lpu with nextTag := s.lpu.nextTag + 1 }) _

theorem setRing_link (u s : State) (id : RingId) (x : RingIndexes) :
    (u.withLink s).setRing id x = u.withLink (s.setRing id x) := by
  cases id <;> rfl

theorem rwAccept_link (u s : State) (id : RingId) (bytes : List Byte) :
    rwAccept id bytes (u.withLink s) = u.withLink (rwAccept id bytes s) := by
  have hring : (u.withLink s).ring id = s.ring id := by cases id <;> rfl
  unfold rwAccept
  rw [hring]
  dsimp only
  rw [setRing_link, rwRequest_link, rwRequest_link]
  rfl

/-- R39, R40: an event is written from what the link part, the ring writer and the time base hold, and changes the first
two. -/
theorem raise_link {u s : State} (ht : u.tb = s.tb) (cls : EventClass) (kind subject : Nat) (words : List Nat) :
    raise cls kind subject words (u.withLink s) = u.withLink (raise cls kind subject words s) := by
  have htb : (u.withLink s).tb = s.tb := ht
  have hrw : (u.withLink s).rw = s.rw := rfl
  have hfull : (u.withLink s).ringFull .event = s.ringFull .event := rfl
  unfold raise
  rw [htb, hrw, hfull]
  split_ifs
  · rfl
  · exact rwAccept_link u (s.withRw { s.rw with lostCount := 0 }) _ _
  · rfl

theorem raise_eq_withLink (cls : EventClass) (kind subject : Nat) (words : List Nat) (s : State) :
    raise cls kind subject words s = s.withLink (raise cls kind subject words s) :=
  raise_link (u := s) (s := s) rfl cls kind subject words

/-- A change outside the link part, the ring writer and the time base passes an event. -/
theorem raise_comm {g : State → State} (hg : ∀ u v : State, g (u.withLink v) = (g u).withLink v)
    {s : State} (ht : (g s).tb = s.tb) (cls : EventClass) (kind subject : Nat) (words : List Nat) :
    raise cls kind subject words (g s) = g (raise cls kind subject words s) := by
  have hs : g s = (g s).withLink s := hg s s
  rw [hs, raise_link ht, ← hg, ← raise_eq_withLink]

section

variable (cls : EventClass) (kind subject : Nat) (words : List Nat) (s : State)

theorem raise_setRoute (d : Nat) (x : Option Route) :
    raise cls kind subject words (s.setRoute d x) = (raise cls kind subject words s).setRoute d x :=
  raise_comm (g := State.setRoute d x) (fun _ _ => rfl) rfl ..

end

/-! ### What the writing of records changes -/

/-- `t` is `s` but for the ring writer, the own requests of the link part, and the booking entries. -/
def OnlyBilling (s t : State) : Prop :=
  t = { s with
    lpu := { s.lpu with ownQueue := t.lpu.ownQueue, nextTag := t.lpu.nextTag }, rw := t.rw,
    bt := { s.bt with entries := t.bt.entries } }

namespace OnlyBilling

variable {s t u : State}

theorem refl (s : State) : OnlyBilling s s := rfl

theorem trans (h : OnlyBilling s t) (g : OnlyBilling t u) : OnlyBilling s u := by
  unfold OnlyBilling at *
  rw [h] at g
  rw [g]

theorem withRw (h : OnlyBilling s t) (r : Rw) : OnlyBilling s (t.withRw r) := h.trans rfl

theorem setEntry (h : OnlyBilling s t) (e : Nat) (x : Entry) : OnlyBilling s (t.setEntry e x) := h.trans rfl

theorem rwSubmit (h : OnlyBilling s t) (o : OwnRequest) : OnlyBilling s (rwSubmit o t) := by
  refine h.trans ?_
  unfold Machine.rwSubmit
  split <;> rfl

theorem rwRequest (h : OnlyBilling s t) (kind : OwnKind) (access : ReqKind) (addr len : Nat) (data : List Byte) :
    OnlyBilling s (rwRequest kind access addr len data t) :=
  rwSubmit (h.trans (show OnlyBilling t (t.withLpu { t.lpu with nextTag := t.lpu.nextTag + 1 }) from rfl)) _

theorem rwAccept (h : OnlyBilling s t) (id : RingId) (bytes : List Byte) : OnlyBilling s (rwAccept id bytes t) := by
  refine rwRequest (rwRequest (h.trans ?_) ..) ..
  cases id <;> rfl

theorem raise (h : OnlyBilling s t) (cls : EventClass) (kind subject : Nat) (words : List Nat) :
    OnlyBilling s (raise cls kind subject words t) := by
  unfold Machine.raise
  split_ifs
  · exact h.withRw _
  · exact (h.withRw _).rwAccept ..
  · exact h

theorem btLeaveClosing (h : OnlyBilling s t) (e : Nat) : OnlyBilling s (btLeaveClosing e t) := by
  have hevent := (h.setEntry e .blank).raise .booking 1 e
    [(t.entry e).desc.ref, BookingState.closing.num, BookingState.empty.num, 0]
  unfold Machine.btLeaveClosing
  dsimp only
  split
  · exact (hevent.setEntry e _).rwRequest ..
  · exact hevent

theorem rwPlaceFinal (h : OnlyBilling s t) (e : Nat) (r : BillRecord) : OnlyBilling s (rwPlaceFinal e r t) := by
  have hentry (x : Option BillRecord) : OnlyBilling s (modEntry e (fun y => { y with record := x }) t) := h.setEntry e _
  unfold Machine.rwPlaceFinal
  dsimp only
  split_ifs
  · exact ((hentry none).rwAccept ..).btLeaveClosing e
  · exact (((hentry none).withRw _).raise ..).btLeaveClosing e
  · exact (hentry (some r)).raise ..

theorem rwPlaceCheckpoint (h : OnlyBilling s t) (e : Nat) (r : BillRecord) :
    OnlyBilling s (rwPlaceCheckpoint e r t) := by
  unfold Machine.rwPlaceCheckpoint
  dsimp only
  split_ifs
  · exact h.rwAccept ..
  · exact h.withRw _
  · exact (h.withRw _).raise ..

theorem rwPassQueue (n : Nat) : ∀ {t : State}, OnlyBilling s t → OnlyBilling s (rwPassQueue n t) := by
  induction n with
  | zero => exact fun h => h
  | succ n ih =>
    intro t h
    unfold Machine.rwPassQueue
    split
    · exact h
    · split
      · exact h
      · exact ih ((h.withRw _).rwAccept ..)

theorem rwPassEntries (n : Nat) : ∀ {t : State}, OnlyBilling s t → OnlyBilling s (rwPassEntries n t) := by
  induction n with
  | zero => exact fun h => h
  | succ n ih =>
    intro t h
    unfold Machine.rwPassEntries
    split
    · exact h
    · split
      · exact h
      · split
        · exact h
        · exact ih (h.rwPlaceFinal ..)

section Fields

variable (h : OnlyBilling s t)
include h

theorem cu : t.cu = s.cu := by rw [h]
theorem tb : t.tb = s.tb := by rw [h]
theorem fm : t.fm = s.fm := by rw [h]
theorem ga : t.ga = s.ga := by rw [h]
theorem ru : t.ru = s.ru := by rw [h]
theorem dm : t.dm = s.dm := by rw [h]
theorem mu : t.mu = s.mu := by rw [h]
theorem mode : t.lpu.mode = s.lpu.mode := by rw [h]
theorem closeCount : t.bt.closeCount = s.bt.closeCount := by rw [h]
theorem requestCount : t.bt.requestCount = s.bt.requestCount := by rw [h]

end Fields

end OnlyBilling

/-! ### Reads answered from one slot -/

/-- R16: the window read `r` of `d` as the model sends it downstream, served from `x`. -/
def State.serving (s : State) (x : Served) (d : Nat) (r : Request) : Forward :=
  { req := { r with addr := remapped s x (windowOffset s d r) }, origin := .window d (windowSlot s d r) }

theorem lpuServe_eq_forward (d : Nat) (r : Request) (x : Served) (s : State) :
    lpuServe d r x s = lpuForward (s.serving x d r) s := rfl

theorem State.Sends.eq_serving {s : State} {x : Served} {d : Nat} {r : Request} {y : Forward} (h : s.Sends x d r y) :
    y = s.serving x d r := by
  obtain ⟨w, a, hw, ha, rfl⟩ := h
  simp [State.serving, windowSlot, windowOffset, hw, remapped_of_remappedTo ha]

/-- A read of a window is sent remapped to the slate, or to a slot of a feed that has a ring. -/
theorem State.serving_sends {s : State} {x : Served} {d : Nat} {w : Region} (hw : s.windowDef d = some w)
    (hx : ∀ f q, x = .ring f q → s.ringDef f ≠ none) (r : Request) : s.Sends x d r (s.serving x d r) := by
  refine ⟨w, remapped s x ((r.addr.toNat - w.base.toNat) % 2048), hw, ?_, ?_⟩
  · cases x with
    | slate => rfl
    | ring f q =>
      obtain ⟨y, hy⟩ := Option.ne_none_iff_exists'.mp (hx f q rfl)
      exact ⟨y, hy, by simp [remapped, hy]⟩
  · simp [State.serving, windowSlot, windowOffset, hw]

theorem State.forall_serving_sends {s : State} {x : Served} {d : Nat} {w : Region} (hw : s.windowDef d = some w)
    (hx : ∀ f q, x = .ring f q → s.ringDef f ≠ none) (rs : List Request) :
    List.Forall₂ (s.Sends x d) rs (rs.map (s.serving x d)) := by
  rw [List.forall₂_map_right_iff]
  exact List.forall₂_same.mpr fun r _ => s.serving_sends hw hx r

theorem State.eq_map_serving {s : State} {x : Served} {d : Nat} {rs : List Request} {sent : List Forward}
    (h : List.Forall₂ (s.Sends x d) rs sent) : sent = rs.map (s.serving x d) := by
  induction h with
  | nil => rfl
  | cons hr _ ih => rw [hr.eq_serving, ih, List.map_cons]

/-- `t` is `s` with other reads on their way downstream. -/
def OnlyForwarded (s t : State) : Prop :=
  t = s.withLpu { s.lpu with forwarding := t.lpu.forwarding, decidedReads := t.lpu.decidedReads }

theorem OnlyForwarded.serving {s t : State} (h : OnlyForwarded s t) : t.serving = s.serving := by
  rw [h]
  rfl

theorem OnlyForwarded.trans {s t u : State} (h : OnlyForwarded s t) (g : OnlyForwarded t u) : OnlyForwarded s u := by
  unfold OnlyForwarded at *
  rw [h] at g
  rw [g]
  rfl

/-- The requests on their way downstream: those of the forwarding queue, then those that wait for a place in it. -/
def State.downstream (s : State) : List Forward := s.lpu.forwarding ++ s.lpu.decidedReads

theorem lpuForward_only (y : Forward) (s : State) : OnlyForwarded s (lpuForward y s) := by
  unfold lpuForward
  split <;> rfl

theorem lpuForward_downstream (y : Forward) (s : State) : (lpuForward y s).downstream = s.downstream ++ [y] := by
  unfold lpuForward
  split
  next h =>
    have hnone : s.lpu.decidedReads = [] := List.isEmpty_iff.mp (Bool.and_eq_true_iff.mp h).2
    simp [State.downstream, hnone]
  · simp [State.downstream]

/-- The reads of a list, answered from one slot in order, go downstream in order. -/
theorem lpuServe_all (d : Nat) (x : Served) (rs : List Request) (s : State) :
    OnlyForwarded s (rs.foldl (fun t r => lpuServe d r x t) s) ∧
    (rs.foldl (fun t r => lpuServe d r x t) s).downstream = s.downstream ++ rs.map (s.serving x d) := by
  induction rs generalizing s with
  | nil => exact ⟨rfl, (List.append_nil _).symm⟩
  | cons r rs ih =>
    obtain ⟨honly, hdown⟩ := ih (lpuServe d r x s)
    have hfirst : OnlyForwarded s (lpuServe d r x s) := lpuForward_only ..
    refine ⟨hfirst.trans honly, ?_⟩
    rw [List.foldl_cons, hdown, hfirst.serving, lpuServe_eq_forward, lpuForward_downstream, List.append_assoc]
    rfl

/-- R124: what the answering of a hold from the slate does. -/
theorem lpuHoldToSlate_of_hold {d : Nat} {s : State} {h : HoldEntry} (hh : s.hold d = some h) :
    OnlyForwarded ((holdFree d s).setLatch d (some ⟨h.slot, .decided .slate⟩)) (lpuHoldToSlate d s) ∧
    (lpuHoldToSlate d s).downstream = s.downstream ++ h.reads.map (s.serving .slate d) := by
  unfold lpuHoldToSlate
  rw [hh]
  exact lpuServe_all d .slate h.reads _

theorem lpuHoldToSlate_of_no_hold {d : Nat} {s : State} (hh : s.hold d = none) : lpuHoldToSlate d s = s := by
  unfold lpuHoldToSlate
  rw [hh]

/-- No read of `d` is held once its hold has been answered. -/
theorem lpuHoldToSlate_holds (d : Nat) (s : State) :
    (lpuHoldToSlate d s).lpu.holds = s.lpu.holds.filter (fun h => h.dest ≠ d) := by
  cases hh : s.hold d with
  | none =>
    rw [lpuHoldToSlate_of_no_hold hh]
    refine (List.filter_eq_self.mpr fun h hmem => ?_).symm
    have := List.find?_eq_none.mp hh h hmem
    simpa using this
  | some h =>
    rw [(lpuHoldToSlate_of_hold hh).1]
    simp only [State.withLpu, State.setLatch, holdFree]
    exact List.filter_congr fun y _ => by rw [Bool.eq_iff_iff]; simp

end Sys2Proof.Machine
end

section
/-! SUPPORT. Requests (O55), releases and the holder change notice (O56). -/

namespace Sys2Proof.Machine

/-! ### Requests -/

theorem preempts_iff {b a : Descriptor} :
    preempts b a = true ↔ a.priority < b.priority ∧ b.mayPreempt = true ∧ a.preemptible = true := by
  simp [preempts, and_assoc]

theorem grantedState_of_scheduled {x : Entry} (h : x.state = .scheduled) (nt : Nat) :
    grantedState nt x = if x.fired < 2 ∧ nt < x.effStart then .preroll else .live := by
  simp [grantedState, h]

/-- What a request leaves to other destinations. -/
theorem gaRequest_of_other {s : State} {b g : Nat} (h : g ≠ (s.entry b).desc.dest) :
    (gaRequest b s).holder g = s.holder g ∧ (gaRequest b s).grantQueue g = s.grantQueue g := by
  unfold gaRequest
  dsimp only
  split
  · rw [gaNotice_holder, gaNotice_grantQueue, raise_holder, raise_grantQueue, btGranted_holder, btGranted_grantQueue]
    exact ⟨State.holder_setHolder_of_ne _ _ h, rfl⟩
  · split
    · rw [gaNotice_holder, gaNotice_grantQueue, raise_holder, raise_grantQueue, btGranted_holder, btGranted_grantQueue]
      constructor
      · rw [State.holder_setHolder_of_ne _ _ h, btSuspended_holder]
        rfl
      · exact (btSuspended_grantQueue ..).trans (State.grantQueue_setGrantQueue_of_ne _ _ h)
    · rw [raise_holder, raise_grantQueue, btQueued_holder, btQueued_grantQueue]
      exact ⟨rfl, State.grantQueue_setGrantQueue_of_ne _ _ h⟩

/-- The order of a queue depends on the priorities and the request numbers alone. -/
theorem MayPrecede.congr {s t : State} (h : ∀ i, (t.entry i).desc = (s.entry i).desc ∧
    (t.entry i).requestNo = (s.entry i).requestNo) : MayPrecede t = MayPrecede s := by
  funext i j
  unfold MayPrecede
  rw [(h i).1, (h j).1, (h i).2, (h j).2]

/-- R118: a request that preempts. -/
theorem gaRequest_of_preempts {s : State} {a b : Nat} (hholder : s.holder (s.entry b).desc.dest = some a) (hab : a ≠ b)
    (hpre : preempts (s.entry b).desc (s.entry a).desc = true) :
    (gaRequest b s).holder (s.entry b).desc.dest = some b ∧
    (gaRequest b s).grantQueue (s.entry b).desc.dest = gaInsert s a (s.grantQueue (s.entry b).desc.dest) ∧
    (gaRequest b s).entry b = (s.entry b).enter (grantedState s.tb.seconds (s.entry b)) s.tb.seconds ∧
    (gaRequest b s).entry a = (s.entry a).suspend ∧
    ∀ i, i ≠ a → i ≠ b → (gaRequest b s).entry i = s.entry i := by
  have hentry_b : (btSuspended a (gaJoin (s.entry b).desc.dest a s)).entry b = s.entry b :=
    btSuspended_entry_of_ne hab.symm _
  unfold gaRequest
  dsimp only
  simp only [hholder, hpre, if_true]
  refine ⟨?_, ?_, ?_, ?_, fun i hia hib => ?_⟩
  · simp
  · rw [gaNotice_grantQueue, raise_grantQueue, btGranted_grantQueue]
    exact (btSuspended_grantQueue ..).trans (State.grantQueue_setGrantQueue_self ..)
  · rw [gaNotice_entry, raise_entry, btGranted_entry_self]
    exact congrArg₂ (fun (x : Entry) (tb : Tb) => x.enter (grantedState tb.seconds x) tb.seconds) hentry_b
      (btSuspended_tb ..)
  · rw [gaNotice_entry, raise_entry, btGranted_entry_of_ne hab]
    exact btSuspended_entry_self ..
  · rw [gaNotice_entry, raise_entry, btGranted_entry_of_ne hib]
    exact btSuspended_entry_of_ne hia _

/-- R117: a request that waits. -/
theorem gaRequest_of_waits {s : State} {a b : Nat} (hholder : s.holder (s.entry b).desc.dest = some a)
    (hpre : ¬preempts (s.entry b).desc (s.entry a).desc = true) :
    (gaRequest b s).holder (s.entry b).desc.dest = some a ∧
    (gaRequest b s).grantQueue (s.entry b).desc.dest = gaInsert s b (s.grantQueue (s.entry b).desc.dest) ∧
    (gaRequest b s).entry b = { s.entry b with state := .waiting } ∧ (gaRequest b s).ru = s.ru ∧
    (gaRequest b s).dm = s.dm ∧ ∀ i, i ≠ b → (gaRequest b s).entry i = s.entry i := by
  unfold gaRequest
  dsimp only
  simp only [hholder, hpre]
  refine ⟨?_, ?_, ?_, ?_, ?_, fun i hi => ?_⟩
  · rw [if_neg (by simp), raise_holder, btQueued_holder]
    exact hholder
  · rw [if_neg (by simp), raise_grantQueue, btQueued_grantQueue]
    exact State.grantQueue_setGrantQueue_self ..
  · rw [if_neg (by simp), raise_entry, btQueued_entry_self]
    rfl
  · rw [if_neg (by simp), raise_ru, btQueued_ru]
    rfl
  · rw [if_neg (by simp), raise_dm, btQueued_dm]
    rfl
  · rw [if_neg (by simp), raise_entry, btQueued_entry_of_ne hi]
    rfl

/-- Settles O55. -/
theorem requestGrantsPreemptsOrQueues : Obligations.RequestGrantsPreemptsOrQueues := by
  intro s b x d t granted ordered hst
  have hgranted : grantedState s.tb.seconds x = granted := grantedState_of_scheduled hst _
  refine ⟨fun hfree => ?free, fun a hholder hab _ => ⟨fun hpre => ?preempts, fun hpre => ?waits⟩,
    fun g hg => gaRequest_of_other hg⟩
  case free =>
    obtain ⟨hholder, hentry, hqueue, -, -, hother⟩ := gaRequest_of_free hfree
    refine ⟨hholder, ?_, hqueue, hother⟩
    rw [hentry, Entry.enter_state]
    exact hgranted
  case preempts =>
    obtain ⟨hh, hqueue, hb, hasus, hother⟩ := gaRequest_of_preempts hholder hab (preempts_iff.mpr hpre)
    have hkeep : ∀ i, (t.entry i).desc = (s.entry i).desc ∧ (t.entry i).requestNo = (s.entry i).requestNo := by
      intro i
      by_cases hib : i = b
      · rw [hib, hb]
        exact ⟨Entry.enter_desc .., Entry.enter_requestNo ..⟩
      · by_cases hia : i = a
        · rw [hia, hasus]
          exact ⟨rfl, rfl⟩
        · rw [hother i hia hib]
          exact ⟨rfl, rfl⟩
    refine ⟨hh, ?_, hasus, ?_, fun hord => ?_, hother⟩
    · rw [hb, Entry.enter_state]
      exact hgranted
    · rw [hqueue]
      exact gaInsert_perm ..
    · change (t.grantQueue d).Pairwise (MayPrecede t)
      rw [MayPrecede.congr hkeep, hqueue]
      exact gaInsert_ordered s a hord
  case waits =>
    obtain ⟨hh, hqueue, hb, hru, hdm, hother⟩ := gaRequest_of_waits hholder fun h => hpre (preempts_iff.mp h)
    have hkeep : ∀ i, (t.entry i).desc = (s.entry i).desc ∧ (t.entry i).requestNo = (s.entry i).requestNo := by
      intro i
      by_cases hib : i = b
      · rw [hib, hb]
        exact ⟨rfl, rfl⟩
      · rw [hother i hib]
        exact ⟨rfl, rfl⟩
    refine ⟨hh, hb, ?_, fun hord => ?_, hru, hdm, hother⟩
    · rw [hqueue]
      exact gaInsert_perm ..
    · change (t.grantQueue d).Pairwise (MayPrecede t)
      rw [MayPrecede.congr hkeep, hqueue]
      exact gaInsert_ordered s b hord

/-! ### Releases -/

theorem gaRelease_of_head {s : State} {d a h : Nat} {rest : List Nat} (hm : s.lpu.mode = .run)
    (hq : s.grantQueue d = h :: rest) : gaRelease d a s =
      gaNotice d (some h) (noticeReason (s.entry h)) (raise .grant 4 d [h, a, (s.entry h).desc.ref, rest.length]
        (btGranted h ((s.setGrantQueue d rest).setHolder d (some h)))) := by
  unfold gaRelease
  simp only [hm, hq]

theorem gaRelease_of_none {s : State} {d a : Nat} (h : s.lpu.mode ≠ .run ∨ s.grantQueue d = []) : gaRelease d a s =
      gaNotice d none .start (raise .grant 5 d [255, a, (s.entry a).desc.ref, (s.grantQueue d).length]
        (s.setHolder d none)) := by
  unfold gaRelease
  split
  next hm hq =>
    obtain h | h := h
    · exact absurd hm h
    · rw [h] at hq
      exact absurd hq.symm (List.cons_ne_nil _ _)
  · rfl

theorem gaRelease_ga (d a : Nat) {s t : State} (hm : t.lpu.mode = s.lpu.mode) (hga : t.ga = s.ga) :
    (gaRelease d a t).ga = (gaRelease d a s).ga := by
  have hqueue : t.grantQueue d = s.grantQueue d := by
    unfold State.grantQueue
    rw [hga]
  by_cases hnone : s.lpu.mode ≠ .run ∨ s.grantQueue d = []
  · rw [gaRelease_of_none hnone, gaRelease_of_none (s := t) (by rwa [hm, hqueue]), gaNotice_ga, gaNotice_ga, raise_ga,
      raise_ga]
    simp only [State.setHolder, State.withGa, hga]
  · push Not at hnone
    obtain ⟨hrun, hne⟩ := hnone
    obtain ⟨h, rest, hq⟩ := List.exists_cons_of_ne_nil hne
    rw [gaRelease_of_head hrun hq, gaRelease_of_head (hm.trans hrun) (hqueue.trans hq), gaNotice_ga, gaNotice_ga,
      raise_ga, raise_ga, btGranted_ga, btGranted_ga]
    simp only [State.setHolder, State.setGrantQueue, State.withGa, hga]

/-- R121: the state that a grant gives the head of a queue. -/
theorem grantedState_eq (x : Entry) (nt : Nat) : grantedState nt x =
    if x.state = .suspended ∧ x.resume ≠ none ∧ x.resume ≠ some .preroll then x.resume.getD .live
    else if x.fired < 2 ∧ nt < x.effStart then .preroll else .live := by
  by_cases hs : x.state = .suspended
  · cases hr : x.resume with
    | none => simp [grantedState, hs, hr]
    | some st => cases st <;> simp [grantedState, hs, hr]
  · rw [if_neg fun h => hs h.1]
    unfold grantedState
    split
    next h _ => exact absurd h hs
    next h _ => exact absurd h hs
    next => simp

theorem Entry.enter_eq (x : Entry) (st : BookingState) (nt : Nat) : x.enter st nt =
    if st = .live ∧ x.hasLive = false then { x with state := .live, resume := none, hasLive := true, liveNT := nt }
    else { x with state := st, resume := none } := by
  unfold Entry.enter
  by_cases h : st = .live ∧ x.hasLive = false
  · rw [if_pos h, if_pos (by simpa using h), h.1]
  · rw [if_neg h, if_neg (by simpa using h)]

/-! ### The holder change notice -/

/-- What the holder change notice makes of a route (R123, R129). -/
def Route.forNewHolder (rt : Route) : Route :=
  { rt with
    take := none, change := some .toSlate, wanted := none, failoverSince := false, revert := 0, freeze := none }

theorem ruCancelTake_of_none {d : Nat} {s : State} {new : Option Nat} {rt : Route} (h : s.route d = some rt)
    (ht : rt.take = none) : ruCancelTake d new s = s := by
  simp [ruCancelTake, h, ht]

theorem ruCancelTake_of_take {d : Nat} {s : State} {new : Option Nat} {rt : Route} {tk : Take} (h : s.route d = some rt)
    (ht : rt.take = some tk) : ruCancelTake d new s =
      (raise .take 4 d [tk.target, tk.reason.num, tk.state.num, new.getD 255] s).setRoute d
        (some { rt with take := none }) := by
  simp [ruCancelTake, h, ht, modRoute, raise_setRoute]

theorem setRoute_setRoute (d : Nat) (x y : Option Route) (s : State) :
    (s.setRoute d x).setRoute d y = s.setRoute d y := by
  unfold State.setRoute State.withRu
  simp [Tbl.set_set]

theorem setDelivery_setDelivery (d : Nat) (x y : Delivery) (s : State) :
    (s.setDelivery d x).setDelivery d y = s.setDelivery d y := by
  unfold State.setDelivery State.withDm
  simp [Tbl.set_set]

/-- Steps 1 and 2 of R123 for a destination with a route record: the pending take is cancelled with its event. -/
theorem ruNewHolder_ruCancelTake {d : Nat} {s : State} {new : Option Nat} {rt : Route} (h : s.route d = some rt) :
    ruNewHolder d (ruCancelTake d new s) = (match rt.take with
      | none => s
      | some tk => raise .take 4 d [tk.target, tk.reason.num, tk.state.num, new.getD 255] s).setRoute d
        (some rt.forNewHolder) := by
  cases ht : rt.take with
  | none =>
    rw [ruCancelTake_of_none h ht, ruNewHolder, modRoute, h]
    simp only [Route.forNewHolder, ht]
  | some tk =>
    rw [ruCancelTake_of_take h ht, ruNewHolder, modRoute, State.route_setRoute_self]
    exact setRoute_setRoute ..

theorem dmClearImpairment_eq (d : Nat) (s : State) :
    dmClearImpairment d s = s.setDelivery d ((dmClearImpairment d s).delivery d) := by
  have hdelivery : (dmClearImpairment d s).delivery d = _ := State.delivery_setDelivery_self ..
  rw [hdelivery]
  exact setDelivery_setDelivery ..

theorem dmClearImpairment_delivery_self (d : Nat) (s : State) : (dmClearImpairment d s).delivery d =
    { s.delivery d with
      impairment := 0,
      condition := dmCondition (modDelivery d (fun x => { x with impairment := 0 }) s) d } := by
  unfold dmClearImpairment dmReclass modDelivery
  simp only [State.delivery_setDelivery_self]

theorem dmCondition_of_no_holder {s : State} {d : Nat} (h : s.holder d = none) : dmCondition s d = .none := by
  simp [dmCondition, State.holderEntry, h]

/-- The route and delivery that the notice leaves, before the take of the new holder is asked for. -/
theorem gaNotice_of_vacated (d : Nat) (reason : TakeReason) (s : State) : gaNotice d none reason s =
    dmClearImpairment d (ruNewHolder d (ruCancelTake d none (lpuHoldToSlate d s))) := rfl

theorem ruRequestTake_of_not_run {s : State} (h : s.lpu.mode ≠ .run) (d target : Nat) (reason : TakeReason) :
    ruRequestTake d target reason s = s := by
  unfold ruRequestTake
  split
  · rfl
  · rw [if_neg (by simpa using h)]

/-- R131: the take that is requested, after the arming search. -/
def State.requested (s : State) (d target : Nat) (reason : TakeReason) : Take :=
  if s.usable target then ruArm s d ⟨target, reason, .waitSource, none, false, 0⟩
  else ⟨target, reason, .waitSource, none, false, 0⟩

theorem ruRequestTake_of_run {s : State} (h : s.lpu.mode = .run) {d : Nat} {rt : Route} (hrt : s.route d = some rt)
    (target : Nat) (reason : TakeReason) : ruRequestTake d target reason s =
      (raise .take 1 d [target, reason.num, (s.requested d target reason).state.num,
        (rt.take.map Take.target).getD 255] s).setRoute d (some { rt with take := some (s.requested d target reason) }) := by
  unfold ruRequestTake
  simp only [hrt, h, raise_setRoute]
  rfl

theorem requested_of_unusable {s : State} {target : Nat} (h : s.usable target = false) (d : Nat) (reason : TakeReason) :
    s.requested d target reason = ⟨target, reason, .waitSource, none, false, 0⟩ := by
  simp [State.requested, h]

theorem requested_of_not_found {s : State} {d target : Nat} (h : s.usable target = true)
    (hp : ruSearch s d target = none) (reason : TakeReason) :
    s.requested d target reason = ⟨target, reason, .arming, none, false, 0⟩ := by
  simp [State.requested, h, ruArm, hp]

theorem requested_of_found {s : State} {d target p : Nat} (h : s.usable target = true)
    (hp : ruSearch s d target = some p) (reason : TakeReason) :
    s.requested d target reason = ⟨target, reason, reason.armed, some p, false, 0⟩ := by
  simp [State.requested, h, ruArm, hp]

/-- The request depends on the feed records, the lag and the ring depth alone. -/
theorem requested_congr {s t : State} (hfm : t.fm = s.fm) (hdm : t.dm = s.dm) (hdepth : t.lpu.depth = s.lpu.depth)
    (d target : Nat) (reason : TakeReason) : t.requested d target reason = s.requested d target reason := by
  have hsearch : ruSearch t d target = ruSearch s d target := by
    unfold ruSearch State.feedRec State.delivery State.ringDepth
    rw [hfm, hdm, hdepth]
  have husable : t.usable target = s.usable target := by
    unfold State.usable State.feedRec
    rw [hfm]
  unfold State.requested ruArm
  rw [hsearch, husable]

/-- The state in which the notice asks for the take of the new holder. -/
def noticeState (d : Nat) (new : Option Nat) (s : State) : State :=
  ruNewHolder d (ruCancelTake d new (lpuHoldToSlate d s))

theorem gaNotice_eq (d : Nat) (new : Option Nat) (reason : TakeReason) (s : State) : gaNotice d new reason s =
    dmClearImpairment d (match new with
      | none => noticeState d new s
      | some e => ruRequestTake d ((noticeState d new s).entry e).selected reason (noticeState d new s)) := rfl

theorem noticeState_route {d : Nat} {new : Option Nat} {s : State} {rt : Route} (h : s.route d = some rt) :
    (noticeState d new s).route d = some rt.forNewHolder := by
  unfold noticeState
  rw [ruNewHolder_ruCancelTake ((lpuHoldToSlate_route d d s).trans h)]
  exact State.route_setRoute_self ..

/-- The route after the notice: cleared, with the take of the new holder where it is asked for. -/
theorem gaNotice_route {d : Nat} {new : Option Nat} {reason : TakeReason} {s : State} {rt : Route}
    (h : s.route d = some rt) : (gaNotice d new reason s).route d = some { rt.forNewHolder with
      take := match new with
        | none => none
        | some e => if s.lpu.mode = .run then some (s.requested d (s.entry e).selected reason) else none } := by
  rw [gaNotice_eq, dmClearImpairment_route]
  cases new with
  | none => exact noticeState_route (rt := rt) h
  | some e =>
    have hmode : (noticeState d (some e) s).lpu.mode = s.lpu.mode := by simp [noticeState]
    have hentry : (noticeState d (some e) s).entry e = s.entry e := by simp [noticeState]
    have hreq := requested_congr (s := s) (t := noticeState d (some e) s) (by simp [noticeState])
      (by simp [noticeState]) (by simp [noticeState]) d (s.entry e).selected reason
    dsimp only
    by_cases hrun : s.lpu.mode = .run
    · rw [ruRequestTake_of_run (hmode.trans hrun) (noticeState_route h), State.route_setRoute_self, hentry, hreq,
        if_pos hrun]
    · rw [ruRequestTake_of_not_run (by rwa [hmode]), noticeState_route h, if_neg hrun]
      rfl

/-- R123: the notice changes the route and the delivery of its own destination alone. -/
theorem gaNotice_of_other {d g : Nat} (hg : g ≠ d) (new : Option Nat) (reason : TakeReason) (s : State) :
    (gaNotice d new reason s).route g = s.route g ∧ (gaNotice d new reason s).delivery g = s.delivery g := by
  have hcancel : (ruCancelTake d new (lpuHoldToSlate d s)).route g = s.route g := by
    unfold ruCancelTake
    split
    · exact lpuHoldToSlate_route ..
    · exact (raise_route ..).trans ((modRoute_route_of_ne hg ..).trans (lpuHoldToSlate_route ..))
  have hnotice : (noticeState d new s).route g = s.route g := (modRoute_route_of_ne hg ..).trans hcancel
  have hdelivery (t : State) : (dmClearImpairment d t).delivery g = t.delivery g := by
    rw [dmClearImpairment_eq]
    exact State.delivery_setDelivery_of_ne _ _ hg
  rw [gaNotice_eq, dmClearImpairment_route, hdelivery]
  cases new with
  | none => exact ⟨hnotice, by simp [noticeState]⟩
  | some e =>
    refine ⟨?_, by simp [noticeState]⟩
    dsimp only
    unfold ruRequestTake
    split
    · exact hnotice
    · split
      · rw [raise_route, State.route_setRoute_of_ne _ _ hg]
        exact hnotice
      · exact hnotice

theorem gaNotice_delivery_self (d : Nat) (new : Option Nat) (reason : TakeReason) (s : State) :
    ((gaNotice d new reason s).delivery d).impairment = 0 ∧
    (s.holder d = none → ((gaNotice d new reason s).delivery d).condition = .none) := by
  rw [gaNotice_eq, dmClearImpairment_delivery_self]
  refine ⟨rfl, fun h => dmCondition_of_no_holder ?_⟩
  have hholder (t : State) (x : Delivery → Delivery) : (modDelivery d x t).holder d = t.holder d := rfl
  rw [hholder]
  cases new with
  | none => simpa [noticeState] using h
  | some e => simpa [noticeState] using h

/-- R123: of the link part, the notice changes what the answering of the hold changes, and the own requests of its
events. -/
theorem gaNotice_keeps {β : Type} (P : State → β) (hraise : ∀ cls kind subject words t, P (raise cls kind subject words t) = P t)
    (hroute : ∀ d x t, P (State.setRoute d x t) = P t) (hdelivery : ∀ d x t, P (State.setDelivery d x t) = P t) (d : Nat)
    (new : Option Nat) (reason : TakeReason) (s : State) : P (gaNotice d new reason s) = P (lpuHoldToSlate d s) := by
  have hmod (g : Route → Route) (t : State) : P (modRoute d g t) = P t := by
    unfold modRoute
    split
    · rfl
    · exact hroute ..
  have hnotice : P (noticeState d new s) = P (lpuHoldToSlate d s) := by
    refine (hmod ..).trans ?_
    unfold ruCancelTake
    split
    · rfl
    · exact (hraise ..).trans (hmod ..)
  have hask (target : Nat) (t : State) : P (ruRequestTake d target reason t) = P t := by
    unfold ruRequestTake
    split
    · rfl
    · split
      · exact (hraise ..).trans (hroute ..)
      · rfl
  rw [gaNotice_eq, dmClearImpairment_eq, hdelivery]
  cases new with
  | none => exact hnotice
  | some e => exact (hask ..).trans hnotice

/-- The notice for no new holder, with a take to cancel and no read to answer. -/
theorem gaNotice_cancels {d : Nat} {s : State} {rt : Route} {tk : Take} (reason : TakeReason) (h : s.route d = some rt)
    (hhold : s.hold d = none) (ht : rt.take = some tk) : gaNotice d none reason s =
      ((raise .take 4 d [tk.target, tk.reason.num, tk.state.num, 255] s).setRoute d (some rt.forNewHolder)).setDelivery d
        ((gaNotice d none reason s).delivery d) := by
  have hnotice : noticeState d none s = (raise .take 4 d [tk.target, tk.reason.num, tk.state.num, 255] s).setRoute d
      (some rt.forNewHolder) := by
    rw [noticeState, lpuHoldToSlate_of_no_hold hhold, ruNewHolder_ruCancelTake h, ht]
    rfl
  rw [gaNotice_eq]
  dsimp only
  rw [hnotice]
  exact dmClearImpairment_eq ..

/-- The notice for a new holder in RUN, with no take to cancel and no read to answer. -/
theorem gaNotice_requests {d e : Nat} {s : State} {rt : Route} (reason : TakeReason) (h : s.route d = some rt)
    (hrun : s.lpu.mode = .run) (hhold : s.hold d = none) (ht : rt.take = none) : gaNotice d (some e) reason s =
      ((raise .take 1 d [(s.entry e).selected, reason.num, (s.requested d (s.entry e).selected reason).state.num, 255]
        s).setRoute d ((gaNotice d (some e) reason s).route d)).setDelivery d
        ((gaNotice d (some e) reason s).delivery d) := by
  have hnotice : noticeState d (some e) s = s.setRoute d (some rt.forNewHolder) := by
    rw [noticeState, lpuHoldToSlate_of_no_hold hhold, ruNewHolder_ruCancelTake h, ht]
  have hask : ruRequestTake d ((noticeState d (some e) s).entry e).selected reason (noticeState d (some e) s) =
      (raise .take 1 d [(s.entry e).selected, reason.num, (s.requested d (s.entry e).selected reason).state.num, 255]
        s).setRoute d ((gaNotice d (some e) reason s).route d) := by
    have hreq := requested_congr (s := s) (t := s.setRoute d (some rt.forNewHolder)) rfl rfl rfl d (s.entry e).selected
      reason
    rw [hnotice, ruRequestTake_of_run (by exact hrun) (State.route_setRoute_self ..), raise_setRoute, setRoute_setRoute,
      gaNotice_route h]
    rw [show ((s.setRoute d (some rt.forNewHolder)).entry e) = s.entry e from rfl, hreq]
    dsimp only
    rw [if_pos hrun]
    rfl
  rw [← hask]
  exact dmClearImpairment_eq ..

/-- R124: the reads of the hold entry go to the slate, and the latch follows. -/
theorem gaNotice_answers {d : Nat} {s : State} {h : HoldEntry} {w : Region} (new : Option Nat) (reason : TakeReason)
    (hhold : s.hold d = some h) (hw : s.windowDef d = some w) :
    (gaNotice d new reason s).latch d = some ⟨h.slot, .decided .slate⟩ ∧
    ∃ sent, List.Forall₂ (s.Sends .slate d) h.reads sent ∧
      (gaNotice d new reason s).downstream = s.downstream ++ sent := by
  obtain ⟨honly, hdown⟩ := lpuHoldToSlate_of_hold hhold
  refine ⟨?_, h.reads.map (s.serving .slate d), s.forall_serving_sends hw (fun _ _ hring => by cases hring) _, ?_⟩
  · rw [gaNotice_keeps (fun t => t.latch d) (fun cls kind subject words t => raise_latch ..) (fun _ _ _ => rfl)
      (fun _ _ _ => rfl)]
    rw [honly]
    change ((holdFree d s).setLatch d (some ⟨h.slot, .decided .slate⟩)).latch d = _
    exact State.latch_setLatch_self ..
  · rw [gaNotice_keeps State.downstream (fun cls kind subject words t => by simp [State.downstream]) (fun _ _ _ => rfl)
      (fun _ _ _ => rfl)]
    exact hdown

theorem gaNotice_of_no_hold {d : Nat} {s : State} (new : Option Nat) (reason : TakeReason) (hhold : s.hold d = none) :
    (gaNotice d new reason s).lpu.latches = s.lpu.latches ∧
    (gaNotice d new reason s).lpu.forwarding = s.lpu.forwarding := by
  constructor
  · rw [gaNotice_keeps (fun t => t.lpu.latches) (fun cls kind subject words t => raise_lpu_latches ..)
      (fun _ _ _ => rfl) (fun _ _ _ => rfl)]
    rw [lpuHoldToSlate_of_no_hold hhold]
  · rw [gaNotice_keeps (fun t => t.lpu.forwarding) (fun cls kind subject words t => raise_lpu_forwarding ..)
      (fun _ _ _ => rfl) (fun _ _ _ => rfl)]
    rw [lpuHoldToSlate_of_no_hold hhold]

/-! ### The close of a queued booking -/

/-- The closing entry and its number (R112, R188), before it leaves the GA. -/
def closingState (e : Nat) (reason : CloseReason) (s : State) : State :=
  modEntry e (fun x => { x with state := .closing, reason := reason, closeSeq := some (satAdd max64 s.bt.closeCount 1) })
    (s.withBt { s.bt with closeCount := satAdd max64 s.bt.closeCount 1 })

/-- R112: after it has left the GA, the closing of a booking writes its event and its record. -/
theorem btClose_onlyBilling (e : Nat) (reason : CloseReason) (s : State) :
    OnlyBilling (btLeaveGa e (s.entry e).state (closingState e reason s)) (btClose e reason s) :=
  ((OnlyBilling.refl _).raise ..).rwPlaceFinal ..

theorem btLeaveGa_of_queued {e : Nat} {old : BookingState} (h : old = .waiting ∨ old = .suspended) (s : State) :
    btLeaveGa e old s = gaWithdraw e s := by
  obtain rfl | rfl := h <;> rfl

theorem btLeaveGa_of_holds {e : Nat} {old : BookingState} (h : old ∈ [.preroll, .live, .overrun]) (s : State) :
    btLeaveGa e old s = gaRelease (s.entry e).desc.dest e s := by
  rw [btLeaveGa, if_pos (BookingState.holds_iff.mpr h)]

theorem closingState_dest (e : Nat) (reason : CloseReason) (s : State) :
    ((closingState e reason s).entry e).desc.dest = (s.entry e).desc.dest := by
  rw [closingState, modEntry_entry_self]
  rfl

/-- Settles O56. -/
theorem releaseHandsOnOrVacates : Obligations.ReleaseHandsOnOrVacates := by
  refine ⟨fun s d a => ⟨?head, ?none⟩, ?notice, ?close⟩
  case head =>
    intro h rest hrun hq x early granted moved
    have hgranted : grantedState s.tb.seconds x = granted := grantedState_eq ..
    have hmoved : x.enter granted s.tb.seconds = moved := Entry.enter_eq ..
    refine ⟨raise .booking 1 h [x.desc.ref, x.state.num, granted.num, 0]
      (((s.setGrantQueue d rest).setHolder d (some h)).setEntry h moved), _, raise_raised .., raise_raised .., ?_⟩
    · rw [gaRelease_of_head hrun hq, noticeReason, ← hmoved, ← hgranted]
      rfl
  case none =>
    intro h
    exact ⟨_, raise_raised .., gaRelease_of_none h⟩
  case notice =>
    intro s d new reason rt hrt hcue t kept
    have hroute := gaNotice_route (new := new) (reason := reason) hrt
    obtain ⟨himp, hcond⟩ := gaNotice_delivery_self d new reason s
    refine ⟨?_, himp, hcond, fun g hg => gaNotice_of_other hg .., gaNotice_bt .., gaNotice_ga .., gaNotice_fm ..,
      gaNotice_of_no_hold new reason, fun h w hhold hw => ?_, fun hnone => ?_, fun e he hrun => ?_, fun tk hnew hhold ht => ?_,
      fun e hnew hrun hhold ht hun => ?_⟩
    · refine (gaNotice_keeps (fun t => t.lpu.holds) (fun cls kind subject words t => raise_lpu_holds ..)
        (fun _ _ _ => rfl) (fun _ _ _ => rfl) ..).trans ?_
      exact lpuHoldToSlate_holds ..
    · obtain ⟨hlatch, sent, hsent, hdown⟩ := gaNotice_answers new reason hhold hw
      exact ⟨hlatch, sent, hsent, hdown⟩
    · refine hroute.trans ?_
      obtain rfl | hm := hnone
      · rfl
      · cases new with
        | none => rfl
        | some e =>
          simp only [hm, if_false]
          rfl
    · subst he
      simp only [hrun, if_true] at hroute
      have harmed : reason.armed = .ready := by
        cases reason with
        | cue => exact absurd rfl hcue
        | _ => rfl
      refine ⟨fun hun => ?_, fun hus hp => ?_, fun p hus hp => ?_⟩ <;> refine hroute.trans ?_
      · rw [requested_of_unusable hun]
        rfl
      · rw [requested_of_not_found hus hp]
        rfl
      · rw [requested_of_found hus hp, harmed]
        rfl
    · subst hnew
      exact ⟨_, raise_raised .., gaNotice_cancels reason hrt hhold ht⟩
    · subst hnew
      have heq := gaNotice_requests (e := e) reason hrt hrun hhold ht
      rw [requested_of_unusable hun] at heq
      exact ⟨_, raise_raised .., heq⟩
  case close =>
    intro s e reason x t
    have hbilling : OnlyBilling (btLeaveGa e x.state (closingState e reason s)) t := btClose_onlyBilling e reason s
    refine ⟨fun hst => ?_, fun hst => ?_⟩
    · rw [btLeaveGa_of_queued hst] at hbilling
      have hga : t.ga = (s.setGrantQueue x.desc.dest ((s.grantQueue x.desc.dest).filter (· != e))).ga := by
        rw [hbilling.ga, gaWithdraw, closingState_dest]
        rfl
      have hqueue (d : Nat) : t.grantQueue d =
          (s.setGrantQueue x.desc.dest ((s.grantQueue x.desc.dest).filter (· != e))).grantQueue d := by
        unfold State.grantQueue
        rw [hga]
        rfl
      refine ⟨?_, fun d => ⟨?_, fun hd => ?_⟩, hbilling.ru, hbilling.dm⟩
      · rw [hqueue, State.grantQueue_setGrantQueue_self]
        exact List.filter_congr fun i _ => by rw [Bool.eq_iff_iff]; simp
      · have hholder := congrArg (fun g : Ga => Tbl.get none g.holders d) hga
        exact hholder
      · rw [hqueue, State.grantQueue_setGrantQueue_of_ne _ _ hd]
    · rw [btLeaveGa_of_holds hst, closingState_dest] at hbilling
      rw [hbilling.ga]
      exact gaRelease_ga _ _ rfl rfl

end Sys2Proof.Machine
end

section
/-! SUPPORT. The acts of the RU on a route, one rule each, and the operator takes (O57). -/

namespace Sys2Proof.Machine

/-! ### Holders and routes -/

theorem holderEntry_of_holder {s : State} {d e : Nat} (h : s.holder d = some e) : s.holderEntry d = some (e, s.entry e) := by
  simp [State.holderEntry, h]

theorem holderEntry_of_no_holder {s : State} {d : Nat} (h : s.holder d = none) : s.holderEntry d = none := by
  simp [State.holderEntry, h]

theorem modRoute_of_route {d : Nat} {s : State} {rt : Route} (h : s.route d = some rt) (g : Route → Route) :
    modRoute d g s = s.setRoute d (some (g rt)) := by
  simp [modRoute, h]

theorem modRoute_of_no_route {d : Nat} {s : State} (h : s.route d = none) (g : Route → Route) : modRoute d g s = s := by
  simp [modRoute, h]

/-! ### Tests that find nothing to do -/

/-- R147: with a usable feed as the source there is nothing to restore. -/
theorem ruRestore_of_source_up {d : Nat} {s : State} (h : ∀ rt, s.route d = some rt → ruSourceDown s rt = false) :
    ruRestore d s = s := by
  unfold ruRestore
  split
  next r _ hr => simp [h r hr]
  · rfl

/-- R146: with a usable feed as the source no failover is taken up. -/
theorem ruDeferredFailover_of_source_up {d : Nat} {s : State}
    (h : ∀ rt f, s.route d = some rt → rt.source = .feed f → s.usable f = true) : ruDeferredFailover d s = s := by
  unfold ruDeferredFailover
  split
  next r _ hr =>
    split
    next f w hf hw => simp [h r f hr hf]
    · rfl
  · rfl

/-! ### The reply of a take command -/

theorem ruTakeReply_of_take {s : State} {d e : Nat} {tk : Take} (he : s.holder d = some e)
    (ht : (s.route d).bind Route.take = some tk) :
    ruTakeReply d s = ⟨.done, 0, [tk.state.num, tk.target, tk.slot.getD 65536, (s.entry e).desc.ref]⟩ := by
  simp [ruTakeReply, holderEntry_of_holder he, ht]

/-! ### The selected feed -/

/-- R148: the revert count of a route whose conditions are looked at again. -/
theorem ruRevertCheck_take {d : Nat} {s : State} {rt : Route} (h : s.route d = some rt) :
    ∃ n, (ruRevertCheck d s).route d = some { rt with revert := n } := by
  rw [ruRevertCheck, modRoute_route_self, h]
  by_cases hr : ruRevertHolds s d rt = true
  · exact ⟨rt.revert, by simp [hr]⟩
  · exact ⟨0, by simp [hr]⟩

theorem ruSelect_of_holder {s : State} {d e : Nat} (h : s.holder d = some e) (f : Nat) :
    ruSelect d f s = ruRevertCheck d (s.setEntry e { s.entry e with selected := f }) := by
  simp [ruSelect, h, modEntry]

/-- R129: what the selection of a feed leaves of the holder and the route. -/
theorem ruSelect_spec {s : State} {d e : Nat} {rt : Route} (h : s.holder d = some e) (hr : s.route d = some rt)
    (f : Nat) : (ruSelect d f s).entry e = { s.entry e with selected := f } ∧
      (∃ n, (ruSelect d f s).route d = some { rt with revert := n }) ∧ (ruSelect d f s).ga = s.ga ∧
      (ruSelect d f s).fm = s.fm ∧ (ruSelect d f s).dm = s.dm ∧ (ruSelect d f s).lpu = s.lpu := by
  rw [ruSelect_of_holder h]
  refine ⟨?_, ruRevertCheck_take (s := s.setEntry e _) hr, modRoute_ga .., modRoute_fm .., modRoute_dm .., modRoute_lpu ..⟩
  rw [ruRevertCheck, modRoute_entry, State.entry_setEntry_self]

/-! ### The commands -/

theorem ruTakeCommand_of_member {p : Nat → Nat} {s : State} {e : Nat} (h0 : p 0 < 48) (h1 : p 1 ≤ 63)
    (he : s.holder (p 0) = some e) (hmem : p 1 ∈ (s.entry e).desc.feedSet) : ruTakeCommand p s =
      (ruRequestTake (p 0) (p 1) .manual (ruSelect (p 0) (p 1) s),
        ruTakeReply (p 0) (ruRequestTake (p 0) (p 1) .manual (ruSelect (p 0) (p 1) s))) := by
  rw [ruTakeCommand, if_neg (by simp; omega), holderEntry_of_holder he]
  dsimp only
  rw [if_pos (List.contains_iff_mem.mpr hmem)]

theorem ruCueCommand_of_member {p : Nat → Nat} {s : State} {e : Nat} (h0 : p 0 < 48) (h1 : p 1 ≤ 63)
    (he : s.holder (p 0) = some e) (hmem : p 1 ∈ (s.entry e).desc.feedSet) : ruCueCommand p s =
      (ruRequestTake (p 0) (p 1) .cue s, ruTakeReply (p 0) (ruRequestTake (p 0) (p 1) .cue s)) := by
  rw [ruCueCommand, if_neg (by simp; omega), holderEntry_of_holder he]
  dsimp only
  rw [if_pos (List.contains_iff_mem.mpr hmem)]

theorem ruCuedTake_of_cued {s : State} {d : Nat} {rt : Route} {tk : Take} (hr : s.route d = some rt)
    (ht : rt.take = some tk) (hc : tk.state = .cued) : ruCuedTake s d = some (rt, tk) := by
  simp [ruCuedTake, hr, ht, hc]

theorem ruCuedTake_of_not_cued {s : State} {d : Nat} {rt : Route} (hr : s.route d = some rt)
    (hc : ∀ tk, rt.take = some tk → tk.state ≠ .cued) : ruCuedTake s d = none := by
  cases ht : rt.take with
  | none => simp [ruCuedTake, hr, ht]
  | some tk => simp [ruCuedTake, hr, ht, hc tk ht]

/-- The four take commands: the row and what its owner does. -/
theorem takeCommand_cases {code : Nat} {c : Instr}
    (h : (code, c) ∈ [(0x0701, Instr.take), (0x0702, .cue), (0x0703, .confirm), (0x0704, .uncue)]) (s : State) :
    ∃ owner, exec c s = .next (runCommand code owner s) ∧
      ((c = .take ∧ owner = ruTakeCommand) ∨ (c = .cue ∧ owner = ruCueCommand) ∨
        (c = .confirm ∧ owner = ruConfirmCommand) ∨ (c = .uncue ∧ owner = ruUncueCommand)) := by
  have hcases : (code = 0x0701 ∧ c = .take) ∨ (code = 0x0702 ∧ c = .cue) ∨ (code = 0x0703 ∧ c = .confirm) ∨
      (code = 0x0704 ∧ c = .uncue) := by simpa using h
  obtain ⟨rfl, rfl⟩ | ⟨rfl, rfl⟩ | ⟨rfl, rfl⟩ | ⟨rfl, rfl⟩ := hcases
  · exact ⟨_, exec_take s, .inl ⟨rfl, rfl⟩⟩
  · exact ⟨_, exec_cue s, .inr (.inl ⟨rfl, rfl⟩)⟩
  · exact ⟨_, exec_confirm s, .inr (.inr (.inl ⟨rfl, rfl⟩))⟩
  · exact ⟨_, exec_uncue s, .inr (.inr (.inr ⟨rfl, rfl⟩))⟩

/-- Settles O57. -/
theorem takeCommandsActOnThePendingTake : Obligations.TakeCommandsActOnThePendingTake := by
  refine ⟨?accepted, ?refused⟩
  case accepted =>
    intro s n data rest e rt hrun p h0 he hrt ref
    have hdata : commandParam data = p := rfl
    have he' : (s.started rest).holder (p 0) = some e := he
    have hrt' : (s.started rest).route (p 0) = some rt := hrt
    have hrun' : (s.started rest).lpu.mode = .run := hrun
    have href : ((s.started rest).entry e).desc.ref = ref := rfl
    refine ⟨fun slot hfound husable h63 hmem => ⟨fun h => ?take, fun h => ?cue⟩,
      fun tk htk hcued => ⟨fun h => ?confirm, fun h hup => ?uncue⟩, fun hnot => ⟨fun h => ?_, fun h => ?_⟩⟩
    case take =>
      obtain ⟨hentry, ⟨k, hroute⟩, hga, hfm, hdm, hlpu⟩ := ruSelect_spec he' hrt' (p 1)
      have hreq : (ruSelect (p 0) (p 1) (s.started rest)).requested (p 0) (p 1) .manual =
          ⟨p 1, .manual, .ready, some slot, false, 0⟩ :=
        (requested_congr hfm hdm (by rw [hlpu]) ..).trans (requested_of_found (s := s.started rest) husable hfound _)
      have htake := ruRequestTake_of_run (by rw [hlpu]; exact hrun') hroute (p 1) .manual
      rw [hreq] at htake
      have hbind : ((ruRequestTake (p 0) (p 1) .manual (ruSelect (p 0) (p 1) (s.started rest))).route (p 0)).bind
          Route.take = some ⟨p 1, .manual, .ready, some slot, false, 0⟩ := by
        rw [htake, State.route_setRoute_self]
        rfl
      have hholder : (ruRequestTake (p 0) (p 1) .manual (ruSelect (p 0) (p 1) (s.started rest))).holder (p 0) = some e := by
        rw [ruRequestTake_holder, State.holder, hga]
        exact he'
      refine ⟨_, gives_of_owner (exec_take s) h ((ruTakeCommand_of_member h0 h63 he' hmem).trans ?_), ?_, hbind, ?_, ?_⟩
      · rw [ruTakeReply_of_take hholder hbind, ruRequestTake_entry, hentry]
        rfl
      · rw [ruRequestTake_entry, hentry]
        rfl
      · exact (ruRequestTake_ga ..).trans hga
      · exact (ruRequestTake_fm ..).trans hfm
    case cue =>
      have hreq : (s.started rest).requested (p 0) (p 1) .cue = ⟨p 1, .cue, .cued, some slot, false, 0⟩ :=
        requested_of_found (s := s.started rest) husable hfound _
      have htake := ruRequestTake_of_run hrun' hrt' (p 1) .cue
      rw [hreq] at htake
      have hroute : (ruRequestTake (p 0) (p 1) .cue (s.started rest)).route (p 0) =
          some { rt with take := some ⟨p 1, .cue, .cued, some slot, false, 0⟩ } := by
        rw [htake, State.route_setRoute_self]
      refine ⟨_, gives_of_owner (exec_cue s) h ((ruCueCommand_of_member h0 h63 he' hmem).trans ?_), hroute, ?_, ?_, ?_⟩
      · rw [ruTakeReply_of_take (e := e) (tk := ⟨p 1, .cue, .cued, some slot, false, 0⟩)
          ((ruRequestTake_holder ..).trans he') (by rw [hroute]; rfl), ruRequestTake_entry]
        rfl
      · exact ruRequestTake_bt ..
      · exact ruRequestTake_ga ..
      · exact ruRequestTake_fm ..
    case confirm =>
      let confirmed : Route := { rt with take := some { tk with state := .ready, reason := .manual } }
      obtain ⟨hentry, ⟨k, hroute⟩, hga, hfm, -, -⟩ := ruSelect_spec (s := (s.started rest).setRoute (p 0) (some confirmed))
        he' (State.route_setRoute_self ..) tk.target
      have hbind : ((ruSelect (p 0) tk.target ((s.started rest).setRoute (p 0) (some confirmed))).route (p 0)).bind
          Route.take = some { tk with state := .ready, reason := .manual } := by
        rw [hroute]
        rfl
      refine ⟨ruSelect (p 0) tk.target ((s.started rest).setRoute (p 0) (some confirmed)),
        gives_of_owner (exec_confirm s) h ?_, hentry, hbind, hga, hfm⟩
      have hholder : (ruSelect (p 0) tk.target ((s.started rest).setRoute (p 0) (some confirmed))).holder (p 0) = some e := by
        rw [State.holder, hga]
        exact he'
      rw [hdata, ruConfirmCommand, if_neg (by omega), if_neg (by rw [he']; simp), ruCuedTake_of_cued hrt' htk hcued]
      dsimp only
      rw [ruTakeReply_of_take hholder hbind, hentry]
      rfl
    case uncue =>
      obtain ⟨f, hsource, husable⟩ := hup
      have hroute (v : State) (hv : v.route (p 0) = some { rt with take := none }) (hus : v.usable f = true) :
          ruRestore (p 0) (ruDeferredFailover (p 0) v) = v := by
        rw [ruDeferredFailover_of_source_up, ruRestore_of_source_up]
        · intro r hr
          obtain rfl : r = { rt with take := none } := Option.some.inj (hr.symm.trans hv)
          simp [ruSourceDown, hsource, hus]
        · intro r g hr hg
          obtain rfl : r = { rt with take := none } := Option.some.inj (hr.symm.trans hv)
          obtain rfl : g = f := Source.feed.inj (hg.symm.trans hsource)
          exact hus
      refine ⟨_, raise_raised .., gives_of_owner (exec_uncue s) h ?_⟩
      rw [hdata, ruUncueCommand, if_neg (by omega), holderEntry_of_holder he']
      dsimp only
      rw [ruCuedTake_of_cued hrt' htk hcued]
      dsimp only
      rw [href, hroute _ (by rw [raise_route, State.route_setRoute_self])
        (by rw [raise_usable]; exact husable)]
      simp [ruTakeReply, State.holderEntry, he', ref]
    · refine gives_of_owner (exec_confirm s) h ?_
      rw [hdata, ruConfirmCommand, if_neg (by omega), if_neg (by rw [he']; simp), ruCuedTake_of_not_cued hrt' hnot]
      rfl
    · refine gives_of_owner (exec_uncue s) h ?_
      rw [hdata, ruUncueCommand, if_neg (by omega), holderEntry_of_holder he']
      dsimp only
      rw [ruCuedTake_of_not_cued hrt' hnot]
      rfl
  case refused =>
    intro s n data rest code c hcase h p named
    have hdata : commandParam data = p := rfl
    obtain ⟨owner, hc, howner⟩ := takeCommand_cases hcase s
    refine ⟨fun hbad => ?_, fun h0 h1 => ⟨fun hnone => ?_, fun e hnamed he hmem => ?_⟩⟩ <;> refine gives_of_owner hc h ?_ <;>
      rw [hdata]
    · obtain ⟨rfl, rfl⟩ | ⟨rfl, rfl⟩ | ⟨rfl, rfl⟩ | ⟨rfl, rfl⟩ := howner
      · rw [ruTakeCommand, if_pos (by simpa [named] using hbad)]
        rfl
      · rw [ruCueCommand, if_pos (by simpa [named] using hbad)]
        rfl
      · rw [ruConfirmCommand, if_pos (by simpa [named] using hbad)]
        rfl
      · rw [ruUncueCommand, if_pos (by simpa [named] using hbad)]
        rfl
    · have hnone' : (s.started rest).holder (p 0) = none := hnone
      obtain ⟨rfl, rfl⟩ | ⟨rfl, rfl⟩ | ⟨rfl, rfl⟩ | ⟨rfl, rfl⟩ := howner
      · rw [ruTakeCommand, if_neg (by have := h1 (.inl rfl); simp; omega), holderEntry_of_no_holder hnone']
        rfl
      · rw [ruCueCommand, if_neg (by have := h1 (.inr rfl); simp; omega), holderEntry_of_no_holder hnone']
        rfl
      · rw [ruConfirmCommand, if_neg (by omega), if_pos (by rw [hnone']; rfl)]
        rfl
      · rw [ruUncueCommand, if_neg (by omega), holderEntry_of_no_holder hnone']
        rfl
    · have he' : (s.started rest).holder (p 0) = some e := he
      have hnot : ¬((s.started rest).entry e).desc.feedSet.contains (p 1) = true := by
        rw [List.contains_iff_mem]
        exact hmem
      have h63 := h1 hnamed
      obtain ⟨rfl, rfl⟩ | ⟨rfl, rfl⟩ | ⟨rfl, -⟩ | ⟨rfl, -⟩ := howner
      · rw [ruTakeCommand, if_neg (by simp; omega), holderEntry_of_holder he']
        dsimp only
        rw [if_neg hnot]
        rfl
      · rw [ruCueCommand, if_neg (by simp; omega), holderEntry_of_holder he']
        dsimp only
        rw [if_neg hnot]
        rfl
      · simp [named] at hnamed
      · simp [named] at hnamed

end Sys2Proof.Machine
end

section
/-! SUPPORT. The placement of records, one rule per place, and the ring-ward moves in full (O16). -/

namespace Sys2Proof.Machine

/-! ### What is written into the billing ring -/

/-- The billing records among own requests. -/
def billingData (os : List OwnRequest) : List (List Byte) :=
  (os.filter (fun o => o.kind == .record .billing)).map (fun o => o.req.data)

/-- `t` comes after `s` with the billing records `l` written, each by a write of 64 bytes, and the notice line as it was. -/
structure Writes (l : List (List Byte)) (s t : State) : Prop where
  work : ∃ new, ownWork t = ownWork s ++ new ∧ billingData new = l ∧
    ∀ o ∈ new, o.kind = .record .billing → o.req.len = 64
  line : t.rw.noticeLine = s.rw.noticeLine

namespace Writes

theorem refl (s : State) : Writes [] s s := ⟨⟨[], by simp, rfl, by simp⟩, rfl⟩

theorem trans {l m : List (List Byte)} {s t u : State} (h : Writes l s t) (g : Writes m t u) : Writes (l ++ m) s u := by
  obtain ⟨⟨n1, hn1, hl, hlen1⟩, hline1⟩ := h
  obtain ⟨⟨n2, hn2, hm, hlen2⟩, hline2⟩ := g
  refine ⟨⟨n1 ++ n2, by rw [hn2, hn1, List.append_assoc], ?_, fun o ho => ?_⟩, hline2.trans hline1⟩
  · simp only [billingData] at hl hm ⊢
    rw [List.filter_append, List.map_append, hl, hm]
  · exact (List.mem_append.mp ho).elim (hlen1 o) (hlen2 o)

theorem silent {s t u : State} {l : List (List Byte)} (h : Writes l s t) (g : Writes [] t u) : Writes l s u := by
  have := h.trans g
  rwa [List.append_nil] at this

theorem of_same {s t : State} (hq : ownWork t = ownWork s) (hl : t.rw.noticeLine = s.rw.noticeLine) : Writes [] s t :=
  ⟨⟨[], by simp [hq], rfl, by simp⟩, hl⟩

/-- The records written since, in the words of the statements. -/
theorem written {l : List (List Byte)} {s t : State} (h : Writes l s t) :
    (((ownWork t).drop (ownWork s).length).filter (fun o => o.kind == .record .billing)).map (fun o => o.req.data) = l := by
  obtain ⟨new, hnew, hl, -⟩ := h.work
  rw [hnew, List.drop_left]
  exact hl

end Writes

theorem rwAccept_line (id : RingId) (bytes : List Byte) (s : State) :
    (rwAccept id bytes s).rw.noticeLine = s.rw.noticeLine := by
  rw [(rwAccept_accepted id bytes s).2]
  cases id <;> rfl

theorem rwAccept_writes_billing (bytes : List Byte) (s : State) : Writes [bytes] s (rwAccept .billing bytes s) := by
  refine ⟨⟨_, (rwAccept_accepted .billing bytes s).1, rfl, fun o ho hk => ?_⟩, rwAccept_line ..⟩
  obtain rfl | rfl : o = _ ∨ o = _ := by simpa [recordWrites] using ho
  · rfl
  · cases hk

theorem rwAccept_writes_event (bytes : List Byte) (s : State) : Writes [] s (rwAccept .event bytes s) := by
  refine ⟨⟨_, (rwAccept_accepted .event bytes s).1, rfl, fun o ho hk => ?_⟩, rwAccept_line ..⟩
  obtain rfl | rfl : o = _ ∨ o = _ := by simpa [recordWrites] using ho
  all_goals cases hk

theorem raise_writes (cls : EventClass) (kind subject : Nat) (words : List Nat) (s : State) :
    Writes [] s (raise cls kind subject words s) := by
  unfold raise
  split_ifs
  · exact .of_same rfl rfl
  · exact (Writes.of_same (s := s) (t := s.withRw { s.rw with lostCount := 0 }) rfl rfl).trans (rwAccept_writes_event ..)
  · exact .refl s

theorem rwRequest_writes {kind : OwnKind} (hk : kind ≠ .record .billing) (access : ReqKind) (addr len : Nat)
    (data : List Byte) (s : State) : Writes [] s (rwRequest kind access addr len data s) := by
  obtain ⟨q, w, hstate, hwork⟩ := rwRequest_spec kind access addr len data s
  refine ⟨⟨_, by rw [hstate]; exact hwork, by simp [billingData, hk], fun o ho h => ?_⟩, by rw [hstate]; rfl⟩
  rw [List.mem_singleton.mp ho] at h
  exact absurd h hk

/-! ### The ring writer under an event -/

theorem raise_billing (cls : EventClass) (kind subject : Nat) (words : List Nat) (s : State) :
    (raise cls kind subject words s).rw.billing = s.rw.billing := raise_ring_billing ..

theorem rwAccept_billing (bytes : List Byte) (s : State) : (rwAccept .billing bytes s).rw.billing =
    { s.rw.billing with producer := (s.rw.billing.producer + 1) % 512 } := by
  rw [(rwAccept_accepted .billing bytes s).2]
  rfl

theorem rwAccept_pendingBilling (id : RingId) (bytes : List Byte) (s : State) :
    (rwAccept id bytes s).rw.pendingBilling = s.rw.pendingBilling := by
  rw [(rwAccept_accepted id bytes s).2]
  cases id <;> rfl

/-! ### The end of an entry -/

/-- R113: an entry that leaves CLOSING writes no record, and is EMPTY or fetches its chain. -/
theorem btLeaveClosing_spec (e : Nat) (s : State) : Writes [] s (btLeaveClosing e s) ∧
    (btLeaveClosing e s).rw.pendingBilling = s.rw.pendingBilling ∧ (btLeaveClosing e s).rw.billing = s.rw.billing ∧
    (((btLeaveClosing e s).entry e).state = .empty ∨ ((btLeaveClosing e s).entry e).state = .fetching) := by
  let v := btStateEvent e (s.entry e).desc.ref .closing .empty 0 (s.setEntry e .blank)
  have hevent : Writes [] s v := (Writes.of_same (s := s) (t := s.setEntry e .blank) rfl rfl).silent (raise_writes ..)
  have hqueue : v.rw.pendingBilling = s.rw.pendingBilling := raise_rw_pendingBilling ..
  have hring : v.rw.billing = s.rw.billing := raise_billing ..
  have hleave : btLeaveClosing e s = if (s.entry e).desc.next != 0 && v.lpu.mode == .run
    then btFetch e (s.entry e).desc.next (.chain (s.entry e).desc.ref) v else v := rfl
  rw [hleave]
  split
  · refine ⟨?_, ?_, ?_, .inr (by rw [btFetch_entry_self])⟩
    · exact hevent.silent ((Writes.of_same (s := v) (t := v.setEntry e _) rfl rfl).silent
      (rwRequest_writes (kind := .descriptor) (by decide) ..))
    · rw [btFetch]
      obtain ⟨q, w, hstate, -⟩ := rwRequest_spec .descriptor .read (s.entry e).desc.next 64 []
        (v.setEntry e { Entry.blank with
          state := .fetching, origin := .chain (s.entry e).desc.ref, address := (s.entry e).desc.next,
          fetchTag := some v.lpu.nextTag })
      rw [hstate]
      exact hqueue
    · exact (rwRequest_ring .billing ..).trans hring
  · refine ⟨hevent, hqueue, hring, .inl ?_⟩
    rw [show v = btStateEvent e (s.entry e).desc.ref .closing .empty 0 (s.setEntry e .blank) from rfl, btStateEvent,
      raise_entry, State.entry_setEntry_self]
    rfl

/-! ### The three places of a final record (R191) -/

theorem rwPlaceFinal_of_ring {s : State} (hfull : s.ringFull .billing = false) (hq : s.rw.pendingBilling = []) (e : Nat)
    (r : BillRecord) : Writes [r.bytes] s (rwPlaceFinal e r s) ∧ (rwPlaceFinal e r s).rw.pendingBilling = [] ∧
      (rwPlaceFinal e r s).rw.billing = { s.rw.billing with producer := (s.rw.billing.producer + 1) % 512 } ∧
      (((rwPlaceFinal e r s).entry e).state = .empty ∨ ((rwPlaceFinal e r s).entry e).state = .fetching) := by
  let v := modEntry e (fun x => { x with record := none }) s
  have hplace : rwPlaceFinal e r s = btLeaveClosing e (rwAccept .billing r.bytes v) := by
    rw [rwPlaceFinal, if_pos (by simp [hfull, hq])]
  obtain ⟨hw, hqueue, hring, hgone⟩ := btLeaveClosing_spec e (rwAccept .billing r.bytes v)
  rw [hplace]
  refine ⟨?_, ?_, ?_, hgone⟩
  · exact ((Writes.of_same (s := s) (t := v) rfl rfl).trans (rwAccept_writes_billing r.bytes v)).silent hw
  · rw [hqueue, rwAccept_pendingBilling]
    exact hq
  · rw [hring, rwAccept_billing]
    rfl

theorem rwPlaceFinal_of_queue {s : State} (h : s.ringFull .billing = true ∨ s.rw.pendingBilling ≠ [])
    (hroom : s.rw.pendingBilling.length < 8) (e : Nat) (r : BillRecord) : Writes [] s (rwPlaceFinal e r s) ∧
      (rwPlaceFinal e r s).rw.pendingBilling = s.rw.pendingBilling ++ [r] ∧
      (rwPlaceFinal e r s).rw.billing = s.rw.billing ∧
      (((rwPlaceFinal e r s).entry e).state = .empty ∨ ((rwPlaceFinal e r s).entry e).state = .fetching) := by
  let v := (modEntry e (fun x => { x with record := none }) s).withRw
    { s.rw with pendingBilling := s.rw.pendingBilling ++ [r] }
  have hplace : rwPlaceFinal e r s = btLeaveClosing e
      (rwBillingEvent 1 e r.ref r.kind.num v.rw.pendingBilling.length r.reason.num v) := by
    rw [rwPlaceFinal, if_neg (by obtain h | h := h <;> simp [h]), if_pos hroom]
    rfl
  obtain ⟨hw, hqueue, hring, hgone⟩ := btLeaveClosing_spec e
    (rwBillingEvent 1 e r.ref r.kind.num v.rw.pendingBilling.length r.reason.num v)
  rw [hplace]
  refine ⟨?_, ?_, ?_, hgone⟩
  · exact ((Writes.of_same (s := s) (t := v) rfl rfl).silent (raise_writes ..)).silent hw
  · rw [hqueue, rwBillingEvent, raise_rw_pendingBilling]
    rfl
  · rw [hring, rwBillingEvent, raise_billing]
    rfl

theorem rwPlaceFinal_of_entry {s : State} (h8 : 8 ≤ s.rw.pendingBilling.length) (e : Nat) (r : BillRecord) :
    Writes [] s (rwPlaceFinal e r s) ∧ (rwPlaceFinal e r s).rw.pendingBilling = s.rw.pendingBilling ∧
      (rwPlaceFinal e r s).rw.billing = s.rw.billing ∧
      (rwPlaceFinal e r s).entry e = { s.entry e with record := some r } := by
  have hne : s.rw.pendingBilling.isEmpty = false := by
    cases hq : s.rw.pendingBilling with
    | nil => simp [hq] at h8
    | cons => rfl
  let v := modEntry e (fun x => { x with record := some r }) s
  have hplace : rwPlaceFinal e r s = rwBillingEvent 2 e r.ref r.kind.num (waitingEntries v).length r.reason.num v := by
    rw [rwPlaceFinal, if_neg (by simp [hne]), if_neg (by omega)]
  rw [hplace, rwBillingEvent]
  refine ⟨(Writes.of_same (s := s) (t := v) rfl rfl).silent (raise_writes ..), raise_rw_pendingBilling .., raise_billing .., ?_⟩
  rw [raise_entry]
  exact modEntry_entry_self ..

/-! ### The room of the ring -/

/-- The free places of the billing ring in the RW's view (R34). -/
def State.billingRoom (s : State) : Nat := 511 - modSub 512 s.rw.billing.producer s.rw.billing.consumer

theorem ringFull_billing_iff (s : State) : s.ringFull .billing = true ↔ s.billingRoom = 0 := by
  have hfull : s.ringFull .billing = decide (512 - 1 ≤ modSub 512 s.rw.billing.producer s.rw.billing.consumer) := rfl
  rw [hfull, decide_eq_true_iff, State.billingRoom]
  omega

/-- A record accepted takes one place. -/
theorem billingRoom_of_advanced {s t : State} (hroom : 0 < s.billingRoom)
    (h : t.rw.billing = { s.rw.billing with producer := (s.rw.billing.producer + 1) % 512 }) :
    t.billingRoom = s.billingRoom - 1 := by
  unfold State.billingRoom at *
  rw [h]
  dsimp only
  unfold modSub at *
  omega

theorem billingRoom_congr {s t : State} (h : t.rw.billing = s.rw.billing) : t.billingRoom = s.billingRoom := by
  unfold State.billingRoom
  rw [h]

/-! ### Pass 1: from the queue into the ring -/

/-- R193, pass 1: as many records as the ring has room for go into it, from the head of the queue. -/
theorem rwPassQueue_spec (n : Nat) : ∀ {s : State}, s.rw.pendingBilling.length ≤ n →
    let k := min s.rw.pendingBilling.length s.billingRoom
    Writes ((s.rw.pendingBilling.take k).map BillRecord.bytes) s (rwPassQueue n s) ∧
    (rwPassQueue n s).rw.pendingBilling = s.rw.pendingBilling.drop k ∧
    (rwPassQueue n s).rw.billing = { s.rw.billing with
      producer := if k = 0 then s.rw.billing.producer else (s.rw.billing.producer + k) % 512 } ∧
    (rwPassQueue n s).billingRoom = s.billingRoom - k ∧ (rwPassQueue n s).rw.event = s.rw.event := by
  induction n with
  | zero =>
    intro s hlen k
    have hk : k = 0 := by omega
    rw [hk]
    exact ⟨.refl s, rfl, rfl, rfl, rfl⟩
  | succ n ih =>
    intro s hlen k
    unfold rwPassQueue
    split
    next hq =>
      have hk : k = 0 := by simp [k, hq]
      rw [hk, hq]
      exact ⟨.refl s, rfl, rfl, rfl, rfl⟩
    next r rest hq =>
      split
      next hfull =>
        have hk : k = 0 := by
          have := (ringFull_billing_iff s).mp hfull
          omega
        rw [hk]
        exact ⟨.refl s, rfl, rfl, rfl, rfl⟩
      next hfull =>
        have hroom : 0 < s.billingRoom := Nat.pos_of_ne_zero fun h => hfull ((ringFull_billing_iff s).mpr h)
        let v := rwAccept .billing r.bytes (s.withRw { s.rw with pendingBilling := rest })
        have hvq : v.rw.pendingBilling = rest := rwAccept_pendingBilling ..
        have hvring : v.rw.billing = { s.rw.billing with producer := (s.rw.billing.producer + 1) % 512 } :=
          rwAccept_billing ..
        have hvroom := billingRoom_of_advanced hroom hvring
        have hvevent : v.rw.event = s.rw.event :=
          rwAccept_ring_of_ne (id := .billing) (other := .event) (by decide) r.bytes _
        have hvw : Writes [r.bytes] s v :=
          (Writes.of_same (s := s) (t := s.withRw { s.rw with pendingBilling := rest }) rfl rfl).trans
            (rwAccept_writes_billing ..)
        have hlen' : rest.length + 1 ≤ n + 1 := by rw [hq] at hlen; exact hlen
        obtain ⟨hw, hqueue, hring, hroom', hevent⟩ := ih (s := v) (by rw [hvq]; omega)
        obtain ⟨j, hj⟩ : ∃ j, j = min v.rw.pendingBilling.length v.billingRoom := ⟨_, rfl⟩
        rw [← hj] at hw hqueue hring hroom'
        have hk : k = j + 1 := by
          simp only [k, hq, List.length_cons]
          rw [hj, hvq, hvroom]
          omega
        rw [hk, hq]
        refine ⟨?_, ?_, ?_, ?_, hevent.trans hvevent⟩
        · rw [hvq] at hw
          exact hvw.trans hw
        · rw [hqueue, hvq]
          rfl
        · rw [hring, hvring]
          by_cases h0 : j = 0
          · simp [h0]
          · simp only [h0, if_false, Nat.add_eq_zero_iff, one_ne_zero, and_false]
            rw [RingIndexes.mk.injEq]
            refine ⟨?_, rfl, rfl⟩
            omega
        · rw [hroom', hvroom]
          omega

/-! ### Pass 2: from the entries -/

theorem firstWaiting_le {s : State} {l : List Nat} {e : Nat} (h : firstWaiting s l = some e) :
    ∀ f ∈ l, (s.entry e).closeSeq.getD 0 ≤ (s.entry f).closeSeq.getD 0 := by
  induction l generalizing e with
  | nil => simp
  | cons a l ih =>
    unfold firstWaiting at h
    split at h
    next hnone =>
      obtain rfl := Option.some.inj h
      rw [firstWaiting_eq_none hnone]
      simp
    next g hg =>
      have hle := ih hg
      split at h
      next hlt =>
        obtain rfl := Option.some.inj h
        exact List.forall_mem_cons.mpr ⟨hlt.le, hle⟩
      next hge =>
        obtain rfl := Option.some.inj h
        exact List.forall_mem_cons.mpr ⟨le_rfl, fun f hf => (Nat.not_lt.mp hge).trans (hle f hf)⟩

/-- Of entries in close sequence order, pass 2 takes the first. -/
theorem firstWaiting_head {s : State} {l : List Nat} {e : Nat} {rest : List Nat} (hl : ∀ f, f ∈ l ↔ f ∈ e :: rest)
    (hord : (e :: rest).Pairwise (fun i j => (s.entry i).closeSeq.getD 0 < (s.entry j).closeSeq.getD 0)) :
    firstWaiting s l = some e := by
  cases h : firstWaiting s l with
  | none =>
    have := (hl e).mpr List.mem_cons_self
    rw [firstWaiting_eq_none h] at this
    cases this
  | some f =>
    have hle := firstWaiting_le h e ((hl e).mpr List.mem_cons_self)
    obtain hf | hf := List.mem_cons.mp ((hl f).mp (firstWaiting_mem h))
    · rw [hf]
    · have := (List.pairwise_cons.mp hord).1 f hf
      omega

/-- The final records of entries that wait with them. -/
def State.recordsOf (s : State) (l : List Nat) : List BillRecord := l.filterMap (fun e => (s.entry e).record)

theorem recordsOf_cons {s : State} {e : Nat} {r : BillRecord} (h : (s.entry e).record = some r) (l : List Nat) :
    s.recordsOf (e :: l) = r :: s.recordsOf l := by
  simp [State.recordsOf, h]

theorem recordsOf_congr {s t : State} {l : List Nat} (h : ∀ e ∈ l, t.entry e = s.entry e) :
    t.recordsOf l = s.recordsOf l :=
  List.filterMap_congr fun e he => by rw [h e he]

/-- R193, pass 2: the records of the waiting entries go ring-ward in close sequence order, into the ring while it has room
and none stands in the queue, then into the queue until it holds 8; an entry whose record has found a place leaves. -/
theorem rwPassEntries_spec (n : Nat) : ∀ {s : State} {waiting : List Nat}, (∀ e, e ∈ waiting ↔ e ∈ waitingEntries s) →
    waiting.Pairwise (fun i j => (s.entry i).closeSeq.getD 0 < (s.entry j).closeSeq.getD 0) → waiting.length ≤ n →
    s.rw.pendingBilling.length ≤ 8 → (s.rw.pendingBilling ≠ [] → s.billingRoom = 0) →
    let records := s.rw.pendingBilling ++ s.recordsOf waiting
    let leave := waiting.take (s.billingRoom + 8 - s.rw.pendingBilling.length)
    let t := rwPassEntries n s
    Writes ((records.take s.billingRoom).map BillRecord.bytes) s t ∧
    t.rw.pendingBilling = (records.drop s.billingRoom).take 8 ∧
    (∀ e ∈ leave, (t.entry e).state = .empty ∨ (t.entry e).state = .fetching) ∧
    ∀ e, e ∉ leave → t.entry e = s.entry e := by
  induction n with
  | zero =>
    intro s waiting hw hord hn h8 hroom
    have hnil : waiting = [] := List.length_eq_zero_iff.mp (Nat.le_zero.mp hn)
    subst hnil
    by_cases hq : s.rw.pendingBilling = []
    · refine ⟨?_, ?_, by simp, fun e _ => rfl⟩
      · rw [hq]
        simpa [State.recordsOf, rwPassEntries] using Writes.refl s
      · simp [State.recordsOf, hq, rwPassEntries]
    · rw [hroom hq]
      refine ⟨.refl s, ?_, by simp, fun e _ => rfl⟩
      simp [State.recordsOf, rwPassEntries, List.take_of_length_le h8]
  | succ n ih =>
    intro s waiting hw hord hn h8 hroom
    unfold rwPassEntries
    split
    next hfull =>
      have hlen : s.rw.pendingBilling.length = 8 := Nat.le_antisymm h8 hfull
      have hne : s.rw.pendingBilling ≠ [] := by
        intro h
        simp [h] at hlen
      rw [hroom hne, hlen]
      refine ⟨.refl s, ?_, by simp, fun e _ => rfl⟩
      rw [List.drop_zero, List.take_append_of_le_length hfull, List.take_of_length_le h8]
    next hspace =>
      cases waiting with
      | nil =>
        have hnone : firstWaiting s (waitingEntries s) = none := by
          cases hf : firstWaiting s (waitingEntries s) with
          | none => rfl
          | some f => cases (hw f).mpr (firstWaiting_mem hf)
        rw [hnone]
        by_cases hq : s.rw.pendingBilling = []
        · refine ⟨?_, ?_, by simp, fun e _ => rfl⟩
          · rw [hq]
            simpa [State.recordsOf] using Writes.refl s
          · simp [State.recordsOf, hq]
        · rw [hroom hq]
          refine ⟨.refl s, ?_, by simp, fun e _ => rfl⟩
          simp [State.recordsOf, List.take_of_length_le h8]
      | cons e rest =>
        rw [firstWaiting_head (fun f => (hw f).symm) hord]
        have hmem := (hw e).mp List.mem_cons_self
        obtain ⟨r, hr⟩ := Option.ne_none_iff_exists'.mp (mem_waitingEntries.mp hmem).2
        simp only [hr]
        obtain ⟨hfirst, hord'⟩ := List.pairwise_cons.mp hord
        have hnotin : e ∉ rest := fun h => absurd (hfirst e h) (lt_irrefl _)
        let v := rwPlaceFinal e r s
        have hother (i : Nat) (hi : i ≠ e) : v.entry i = s.entry i := rwPlaceFinal_entry_of_ne hi r s
        have hrest (i : Nat) (hi : i ∈ rest) : v.entry i = s.entry i := hother i fun h => hnotin (h ▸ hi)
        have hw' (f : Nat) : f ∈ rest ↔ f ∈ waitingEntries v := by
          rw [waitingEntries_rwPlaceFinal (Nat.not_le.mp hspace), List.mem_filter, ← hw]
          simp only [List.mem_cons, bne_iff_ne]
          constructor
          · exact fun h => ⟨.inr h, fun h' => hnotin (h' ▸ h)⟩
          · exact fun h => h.1.resolve_left h.2
        have hordv : rest.Pairwise (fun i j => (v.entry i).closeSeq.getD 0 < (v.entry j).closeSeq.getD 0) :=
          hord'.imp_of_mem fun {i j} hi hj h => by rw [hrest i hi, hrest j hj]; exact h
        have hn' : rest.length ≤ n := by simpa using hn
        have hrecs : v.recordsOf rest = s.recordsOf rest := recordsOf_congr hrest
        by_cases hring : s.rw.pendingBilling = [] ∧ 0 < s.billingRoom
        · obtain ⟨hq, hpos⟩ := hring
          have hnotfull : s.ringFull .billing = false := by
            rw [← Bool.not_eq_true, ringFull_billing_iff]
            omega
          obtain ⟨hvw, hvq, hvb, hvgone⟩ := rwPlaceFinal_of_ring hnotfull hq e r
          have hvroom : v.billingRoom = s.billingRoom - 1 := billingRoom_of_advanced hpos hvb
          obtain ⟨m, hm⟩ := Nat.exists_eq_add_of_le' hpos
          obtain ⟨hiw, hiq, higone, hiother⟩ := ih hw' hordv hn' (by rw [hvq]; simp) (fun h => absurd hvq h)
          have hvq' : v.rw.pendingBilling = [] := hvq
          rw [hvq', hrecs, hvroom, hm, Nat.add_sub_cancel] at hiw
          rw [hvq', hrecs, hvroom, hm, Nat.add_sub_cancel] at hiq
          rw [hvq', hvroom, hm, Nat.add_sub_cancel] at higone hiother
          simp only [List.nil_append, List.length_nil, Nat.sub_zero] at hiw hiq higone hiother
          have hleave : (e :: rest).take (m + 1 + 8) = e :: rest.take (m + 8) := by
            rw [show m + 1 + 8 = (m + 8) + 1 by omega, List.take_succ_cons]
          rw [hq, recordsOf_cons hr, hm]
          simp only [List.nil_append, List.length_nil, Nat.sub_zero, hleave]
          refine ⟨hvw.trans hiw, hiq, ?_, fun i hi => ?_⟩
          · refine List.forall_mem_cons.mpr ⟨?_, higone⟩
            rw [hiother e fun h => hnotin (List.mem_of_mem_take h)]
            exact hvgone
          · rw [List.mem_cons, not_or] at hi
            rw [hiother i hi.2, hother i hi.1]
        · have hroom0 : s.billingRoom = 0 := by
            by_cases hq : s.rw.pendingBilling = []
            · exact Nat.eq_zero_of_not_pos fun h => hring ⟨hq, h⟩
            · exact hroom hq
          obtain ⟨hvw, hvq, hvb, hvgone⟩ := rwPlaceFinal_of_queue (s := s) (.inl ((ringFull_billing_iff s).mpr hroom0))
            (Nat.not_le.mp hspace) e r
          have hvq' : v.rw.pendingBilling = s.rw.pendingBilling ++ [r] := hvq
          have hvroom : v.billingRoom = 0 := (billingRoom_congr hvb).trans hroom0
          obtain ⟨hiw, hiq, higone, hiother⟩ := ih hw' hordv hn' (by rw [hvq']; simp; omega) (fun _ => hvroom)
          rw [hvroom] at hiw hiq higone hiother
          rw [hvq', hrecs] at hiq
          rw [hvq', List.length_append, List.length_singleton] at higone hiother
          have hleave : (e :: rest).take (0 + 8 - s.rw.pendingBilling.length) =
              e :: rest.take (0 + 8 - (s.rw.pendingBilling.length + 1)) := by
            rw [show 0 + 8 - s.rw.pendingBilling.length = (0 + 8 - (s.rw.pendingBilling.length + 1)) + 1 by omega,
              List.take_succ_cons]
          rw [hroom0, recordsOf_cons hr, hleave]
          refine ⟨hvw.trans hiw, ?_, ?_, fun i hi => ?_⟩
          · rw [hiq, List.append_assoc]
            rfl
          · refine List.forall_mem_cons.mpr ⟨?_, higone⟩
            rw [hiother e fun h => hnotin (List.mem_of_mem_take h)]
            exact hvgone
          · rw [List.mem_cons, not_or] at hi
            rw [hiother i hi.2, hother i hi.1]

end Sys2Proof.Machine
end

section
/-! SUPPORT. The consumer writes that free places (O16) and the closing of a booking (O50). -/

namespace Sys2Proof.Machine

/-! ### Consumer writes -/

theorem rwConsumerWrite_of_advanced {id : RingId} {v : Nat} {s : State}
    (h : v < id.size ∧ modSub id.size v (s.ring id).consumer ≤ modSub id.size (s.ring id).published (s.ring id).consumer)
    (hv : v ≠ (s.ring id).consumer) : rwConsumerWrite id v s =
      if id = .billing then rwRingward (rwNotice (s.setRing id { s.ring id with consumer := v }))
      else rwNotice (s.setRing id { s.ring id with consumer := v }) := by
  unfold rwConsumerWrite
  dsimp only
  rw [if_pos (RingIndexes.accepts_iff.mpr h), if_neg hv]

/-- With no entry waiting pass 2 has nothing to do. -/
theorem rwPassEntries_of_none {s : State} (h : ∀ e < 128, (s.entry e).record = none) (n : Nat) :
    rwPassEntries n s = s := by
  cases n with
  | zero => rfl
  | succ n =>
    rw [rwPassEntries, waitingEntries_eq_nil.mpr h]
    simp [firstWaiting]

/-- R193, both passes: the records of the queue and then those of the waiting entries, in order. -/
theorem rwRingward_spec {s : State} {waiting : List Nat}
    (hw : ∀ e, e ∈ waiting ↔ e < 128 ∧ (s.entry e).record ≠ none)
    (hord : waiting.Pairwise (fun i j => (s.entry i).closeSeq.getD 0 < (s.entry j).closeSeq.getD 0))
    (h8 : s.rw.pendingBilling.length ≤ 8) :
    let records := s.rw.pendingBilling ++ s.recordsOf waiting
    let leave := waiting.take (s.billingRoom + 8 - s.rw.pendingBilling.length)
    let t := rwRingward s
    Writes ((records.take s.billingRoom).map BillRecord.bytes) s t ∧
    t.rw.pendingBilling = (records.drop s.billingRoom).take 8 ∧
    (∀ e ∈ leave, (t.entry e).state = .empty ∨ (t.entry e).state = .fetching) ∧
    ∀ e, e ∉ leave → t.entry e = s.entry e := by
  obtain ⟨hwrites, hqueue, -, hroom, -⟩ := rwPassQueue_spec s.rw.pendingBilling.length (s := s) le_rfl
  let v := rwPassQueue s.rw.pendingBilling.length s
  have hentry (e : Nat) : v.entry e = s.entry e := rwPassQueue_entry ..
  have hwv (e : Nat) : e ∈ waiting ↔ e ∈ waitingEntries v := by
    rw [hw, mem_waitingEntries, hentry]
  have hlen : waiting.length ≤ 128 := by
    have hnodup : waiting.Nodup := hord.imp fun hij h => absurd (h ▸ hij) (lt_irrefl _)
    have hsub : waiting ⊆ List.range 128 := fun e he => List.mem_range.mpr ((hw e).mp he).1
    simpa using (hnodup.subperm hsub).length_le
  have hrecs : v.recordsOf waiting = s.recordsOf waiting := recordsOf_congr fun e _ => hentry e
  have hvq : v.rw.pendingBilling = s.rw.pendingBilling.drop (min s.rw.pendingBilling.length s.billingRoom) := hqueue
  have hvroom : v.billingRoom = s.billingRoom - min s.rw.pendingBilling.length s.billingRoom := hroom
  have hvlen : v.rw.pendingBilling.length =
      s.rw.pendingBilling.length - min s.rw.pendingBilling.length s.billingRoom := by rw [hvq, List.length_drop]
  obtain ⟨h2writes, h2queue, h2leave, h2other⟩ := rwPassEntries_spec 128 (s := v) hwv
    (by simpa only [hentry] using hord) hlen (by omega) (fun hne => by
      have := List.length_pos_of_ne_nil hne
      omega)
  rw [hrecs] at h2writes h2queue
  intro records leave t
  have hleave : waiting.take (v.billingRoom + 8 - v.rw.pendingBilling.length) = leave := by
    congr 1
    omega
  have hpass : ((s.rw.pendingBilling.take (min s.rw.pendingBilling.length s.billingRoom)) ++
      (v.rw.pendingBilling ++ s.recordsOf waiting).take v.billingRoom = records.take s.billingRoom) ∧
      (v.rw.pendingBilling ++ s.recordsOf waiting).drop v.billingRoom = records.drop s.billingRoom := by
    rw [hvq, hvroom]
    rcases Nat.le_total s.rw.pendingBilling.length s.billingRoom with hle | hge
    · simp [records, Nat.min_eq_left hle, List.take_append, List.drop_append, List.take_of_length_le hle,
        List.drop_of_length_le hle]
    · simp [records, Nat.min_eq_right hge, List.take_append, List.drop_append, Nat.sub_eq_zero_of_le hge]
  rw [hleave] at h2leave h2other
  refine ⟨?_, ?_, h2leave, fun e he => (h2other e he).trans (hentry e)⟩
  · rw [← hpass.1, List.map_append]
    exact hwrites.trans h2writes
  · rw [← hpass.2]
    exact h2queue

/-- Settles O16. -/
theorem consumerWriteFreesPlaces : Obligations.ConsumerWriteFreesPlaces := by
  intro s r v hkind hlen hv
  refine ⟨fun id hword hsize hway hne => ?plain, fun hctl hsize hway hne => ?billing⟩
  case plain =>
    intro u
    have hid : id ≠ .billing := by
      obtain ⟨-, rfl⟩ | ⟨-, rfl⟩ := hword <;> decide
    rw [exec_consumerIndexWrite_of_word (id := id) (by
      obtain ⟨hc, rfl⟩ | ⟨hc, rfl⟩ := hword
      · exact ⟨_, hc, .inl ⟨rfl, rfl⟩⟩
      · exact ⟨_, hc, .inr (.inl ⟨rfl, rfl⟩)⟩) hkind hlen, ← hv, rwConsumerWrite_of_advanced
        (by rw [State.ring_passed]; exact ⟨hsize, hway⟩) (by rw [State.ring_passed]; exact hne), if_neg hid,
      State.ring_passed]
    rfl
  case billing =>
    intro line written
    let u := rwNotice ((s.passed r).setRing .billing { s.rw.billing with consumer := v })
    have hexec : exec (.consumerIndexWrite r) s = .next (rwRingward u) := by
      rw [exec_consumerIndexWrite_of_word (id := .billing) ⟨_, hctl, .inr (.inr ⟨rfl, rfl⟩)⟩ hkind hlen, ← hv,
        rwConsumerWrite_of_advanced (id := .billing) (s := s.passed r) ⟨hsize, hway⟩ hne, if_pos rfl]
      rfl
    have hroom : u.billingRoom = 511 - modSub 512 s.rw.billing.producer v := rfl
    have hline : u.rw.noticeLine = line := rfl
    have hwork : ownWork u = ownWork s := rfl
    refine ⟨fun hnone => ?queue, fun waiting hw hord h8 => ?entries⟩
    case queue =>
      obtain ⟨hwrites, hqueue, hring, -, hevent⟩ := rwPassQueue_spec u.rw.pendingBilling.length (s := u) le_rfl
      have hrest : rwRingward u = rwPassQueue u.rw.pendingBilling.length u :=
        rwPassEntries_of_none (fun e he => by rw [rwPassQueue_entry]; exact hnone e he) 128
      refine ⟨_, hexec, ?_⟩
      rw [hrest]
      intro k
      exact ⟨hqueue, hring, hwrites.written, hwrites.line.trans hline, hevent, rwPassQueue_bt ..⟩
    case entries =>
      obtain ⟨hwrites, hqueue, hleave, hother⟩ := rwRingward_spec (s := u) hw hord h8
      exact ⟨_, hexec, hqueue, hwrites.written, hwrites.line.trans hline, hleave, hother⟩

/-! ### The closing of a booking -/

/-- The closing entry of booking `x`, before it leaves the GA (R112, R188). -/
def Entry.closing (reason : CloseReason) (count : Nat) (x : Entry) : Entry :=
  { x with state := .closing, reason := reason, closeSeq := some count }

theorem closingState_entry_self (e : Nat) (reason : CloseReason) (s : State) :
    (closingState e reason s).entry e = (s.entry e).closing reason (satAdd max64 s.bt.closeCount 1) :=
  modEntry_entry_self ..

theorem closingState_entry_of_ne {e f : Nat} (h : f ≠ e) (reason : CloseReason) (s : State) :
    (closingState e reason s).entry f = s.entry f :=
  modEntry_entry_of_ne h _ _

/-- What the release or the withdrawal of a closing booking keeps. -/
structure LeftGa (s t : State) : Prop where
  tb : t.tb = s.tb
  fm : t.fm = s.fm
  mu : t.mu = s.mu
  cu : t.cu = s.cu
  mode : t.lpu.mode = s.lpu.mode
  counts : t.bt.closeCount = s.bt.closeCount ∧ t.bt.requestCount = s.bt.requestCount
  ring : t.rw.billing = s.rw.billing
  queue : t.rw.pendingBilling = s.rw.pendingBilling
  writes : Writes [] s t

theorem raise_leftGa (cls : EventClass) (kind subject : Nat) (words : List Nat) (s : State) :
    LeftGa s (raise cls kind subject words s) where
  tb := raise_tb ..
  fm := raise_fm ..
  mu := raise_mu ..
  cu := raise_cu ..
  mode := raise_lpu_mode ..
  counts := by rw [raise_bt]; exact ⟨rfl, rfl⟩
  ring := raise_billing ..
  queue := raise_rw_pendingBilling ..
  writes := raise_writes ..

namespace LeftGa

variable {s t u : State}

theorem refl (s : State) : LeftGa s s := ⟨rfl, rfl, rfl, rfl, rfl, ⟨rfl, rfl⟩, rfl, rfl, .refl s⟩

theorem trans (h : LeftGa s t) (g : LeftGa t u) : LeftGa s u where
  tb := g.tb.trans h.tb
  fm := g.fm.trans h.fm
  mu := g.mu.trans h.mu
  cu := g.cu.trans h.cu
  mode := g.mode.trans h.mode
  counts := ⟨g.counts.1.trans h.counts.1, g.counts.2.trans h.counts.2⟩
  ring := g.ring.trans h.ring
  queue := g.queue.trans h.queue
  writes := h.writes.silent g.writes

/-- A change outside the blocks named keeps them all. -/
theorem of_same {s t : State} (htb : t.tb = s.tb) (hfm : t.fm = s.fm) (hmu : t.mu = s.mu) (hcu : t.cu = s.cu)
    (hmode : t.lpu.mode = s.lpu.mode) (hown : t.lpu.ownQueue = s.lpu.ownQueue) (hrw : t.rw = s.rw)
    (hbt : t.bt.closeCount = s.bt.closeCount ∧ t.bt.requestCount = s.bt.requestCount) : LeftGa s t where
  tb := htb
  fm := hfm
  mu := hmu
  cu := hcu
  mode := hmode
  counts := hbt
  ring := by rw [hrw]
  queue := by rw [hrw]
  writes := .of_same (by rw [ownWork, ownWork, hown, hrw]) (by rw [hrw])

theorem setEntry (h : LeftGa s t) (e : Nat) (x : Entry) : LeftGa s (t.setEntry e x) :=
  h.trans (.of_same rfl rfl rfl rfl rfl rfl rfl ⟨rfl, rfl⟩)

theorem setRoute (h : LeftGa s t) (d : Nat) (x : Option Route) : LeftGa s (t.setRoute d x) :=
  h.trans (.of_same rfl rfl rfl rfl rfl rfl rfl ⟨rfl, rfl⟩)

theorem setDelivery (h : LeftGa s t) (d : Nat) (x : Delivery) : LeftGa s (t.setDelivery d x) :=
  h.trans (.of_same rfl rfl rfl rfl rfl rfl rfl ⟨rfl, rfl⟩)

theorem setHolder (h : LeftGa s t) (d : Nat) (x : Option Nat) : LeftGa s (t.setHolder d x) :=
  h.trans (.of_same rfl rfl rfl rfl rfl rfl rfl ⟨rfl, rfl⟩)

theorem setGrantQueue (h : LeftGa s t) (d : Nat) (x : List Nat) : LeftGa s (t.setGrantQueue d x) :=
  h.trans (.of_same rfl rfl rfl rfl rfl rfl rfl ⟨rfl, rfl⟩)

theorem raise (h : LeftGa s t) (cls : EventClass) (kind subject : Nat) (words : List Nat) :
    LeftGa s (raise cls kind subject words t) := h.trans (raise_leftGa ..)

theorem modRoute (h : LeftGa s t) (d : Nat) (g : Route → Route) : LeftGa s (modRoute d g t) := by
  unfold Machine.modRoute
  split
  · exact h
  · exact h.setRoute ..

theorem dmReclass (h : LeftGa s t) (d : Nat) : LeftGa s (dmReclass d t) := h.setDelivery ..

theorem ruRequestTake (h : LeftGa s t) (d target : Nat) (reason : TakeReason) :
    LeftGa s (ruRequestTake d target reason t) := by
  unfold Machine.ruRequestTake
  split
  · exact h
  · split
    · exact (h.setRoute ..).raise ..
    · exact h

theorem lpuForward (h : LeftGa s t) (y : Forward) : LeftGa s (lpuForward y t) := by
  refine h.trans ?_
  unfold Machine.lpuForward
  split <;> exact .of_same rfl rfl rfl rfl rfl rfl rfl ⟨rfl, rfl⟩

theorem lpuHoldToSlate (h : LeftGa s t) (d : Nat) : LeftGa s (lpuHoldToSlate d t) := by
  unfold Machine.lpuHoldToSlate
  split
  · exact h
  next x _ =>
    have hfree : LeftGa s ((holdFree d t).setLatch d (some ⟨x.slot, .decided .slate⟩)) :=
      h.trans (.of_same rfl rfl rfl rfl rfl rfl rfl ⟨rfl, rfl⟩)
    exact List.foldlRecOn x.reads _ hfree fun _ hu _ _ => hu.lpuForward _

theorem gaNotice (h : LeftGa s t) (d : Nat) (new : Option Nat) (reason : TakeReason) :
    LeftGa s (gaNotice d new reason t) := by
  have hcancel : LeftGa s (ruCancelTake d new (Machine.lpuHoldToSlate d t)) := by
    unfold ruCancelTake
    split
    · exact h.lpuHoldToSlate d
    · exact ((h.lpuHoldToSlate d).modRoute ..).raise ..
  have hstate : LeftGa s (noticeState d new t) := hcancel.modRoute ..
  rw [gaNotice_eq]
  cases new with
  | none => exact (hstate.setDelivery ..).dmReclass d
  | some e => exact ((hstate.ruRequestTake ..).setDelivery ..).dmReclass d

theorem btGranted (h : LeftGa s t) (e : Nat) : LeftGa s (btGranted e t) := (h.setEntry ..).raise ..

theorem gaRelease (h : LeftGa s t) (d a : Nat) : LeftGa s (gaRelease d a t) := by
  by_cases hnone : t.lpu.mode ≠ .run ∨ t.grantQueue d = []
  · rw [gaRelease_of_none hnone]
    exact ((h.setHolder ..).raise ..).gaNotice ..
  · push Not at hnone
    obtain ⟨x, rest, hq⟩ := List.exists_cons_of_ne_nil hnone.2
    rw [gaRelease_of_head hnone.1 hq]
    exact ((((h.setGrantQueue ..).setHolder ..).btGranted x).raise ..).gaNotice ..

theorem btLeaveGa (h : LeftGa s t) (e : Nat) (old : BookingState) : LeftGa s (btLeaveGa e old t) := by
  unfold Machine.btLeaveGa
  split
  · exact h.gaRelease ..
  · split
    · exact h.setGrantQueue ..
    · exact h

end LeftGa

/-- The booking that closes is left as it stands while it leaves the GA, unless it stands in the queue it holds. -/
theorem btLeaveGa_entry_self {e : Nat} {old : BookingState} {s : State}
    (h : old ∈ [.preroll, .live, .overrun] → e ∉ s.grantQueue (s.entry e).desc.dest) :
    (btLeaveGa e old s).entry e = s.entry e := by
  unfold btLeaveGa
  split
  next hold => exact gaRelease_entry_of_not_queued (h (BookingState.holds_iff.mp hold))
  · split <;> rfl

/-- The state in which the record of a closing booking is taken and placed (R112). -/
def recordState (e : Nat) (reason : CloseReason) (s : State) : State :=
  btLeaveGa e (s.entry e).state (closingState e reason s)

/-- The final record of a closing booking. -/
def closingRecord (e : Nat) (reason : CloseReason) (s : State) : BillRecord :=
  muFinal (recordState e reason s) ((recordState e reason s).entry e)

theorem btClose_eq (e : Nat) (reason : CloseReason) (s : State) : btClose e reason s =
    rwPlaceFinal e (closingRecord e reason s) (btStateEvent e (closingRecord e reason s).ref (s.entry e).state .closing
      reason.num (recordState e reason s)) := rfl

theorem recordState_leftGa (e : Nat) (reason : CloseReason) (s : State) :
    LeftGa (closingState e reason s) (recordState e reason s) := (LeftGa.refl _).btLeaveGa ..

/-- R186, R188, R189: the record carries what the entry holds. -/
theorem muFinal_fields (s : State) (x : Entry) :
    (muFinal s x).kind = (if x.hasLive then .close else .cancel) ∧ (muFinal s x).reason = x.reason ∧
    (muFinal s x).ref = x.desc.ref ∧ (muFinal s x).account = x.desc.account ∧ (muFinal s x).dest = x.desc.dest ∧
    (muFinal s x).tariff = x.desc.tariff ∧ (muFinal s x).meters = x.meters ∧ (muFinal s x).takes = x.takes ∧
    (muFinal s x).slips = x.slips ∧ (muFinal s x).failovers = x.failovers ∧ (muFinal s x).rough = x.rough ∧
    (muFinal s x).timeStepped = x.timeStepped ∧ (muFinal s x).liveNT = x.liveNT ∧
    (muFinal s x).closeNT = s.tb.seconds := by
  unfold muFinal
  split <;> exact ⟨rfl, rfl, rfl, rfl, rfl, rfl, rfl, rfl, rfl, rfl, rfl, rfl, rfl, rfl⟩

/-- R184: no charge for a booking that has not been live. -/
theorem muFinal_of_cancel {x : Entry} (h : x.hasLive = false) (s : State) :
    (muFinal s x).charge = 0 ∧ (muFinal s x).seconds = 0 ∧ (muFinal s x).minApplied = false ∧
    (muFinal s x).capApplied = false := by
  rw [muFinal, if_neg (by simp [h])]
  exact ⟨rfl, rfl, rfl, rfl⟩

theorem muFinal_of_close {x : Entry} {s : State} {tariff : Tariff} (h : x.hasLive = true)
    (ht : s.tariff x.desc.tariff = some tariff) : (muFinal s x).charge = (chargeOf true tariff x.meters).charge ∧
    (muFinal s x).seconds = (chargeOf true tariff x.meters).seconds := by
  rw [muFinal, if_pos h]
  simp [muRecord, muCharge, ht]

/-- Settles O50. -/
theorem closingProducesOneFinalRecord : Obligations.ClosingProducesOneFinalRecord := by
  intro s e reason x hopen hqueued t
  let v := recordState e reason s
  let r := closingRecord e reason s
  let u := btStateEvent e r.ref x.state .closing reason.num v
  have hleft : LeftGa (closingState e reason s) v := recordState_leftGa ..
  have hclosing := closingState_entry_self e reason s
  have hv : v.entry e = x.closing reason (satAdd max64 s.bt.closeCount 1) := by
    refine (btLeaveGa_entry_self fun hst => ?_).trans hclosing
    rw [hclosing]
    exact hqueued hst
  have hu : u.entry e = x.closing reason (satAdd max64 s.bt.closeCount 1) := (raise_entry ..).trans hv
  have hr : r = muFinal v (x.closing reason (satAdd max64 s.bt.closeCount 1)) := by rw [← hv]; rfl
  have huring : u.rw.billing = s.rw.billing := (raise_billing ..).trans hleft.ring
  have huqueue : u.rw.pendingBilling = s.rw.pendingBilling := (raise_rw_pendingBilling ..).trans hleft.queue
  have hufull : u.ringFull .billing = s.ringFull .billing := congrArg (RingIndexes.full 512) huring
  have hplaced : OnlyBilling v t := ((OnlyBilling.refl v).raise ..).rwPlaceFinal ..
  have ht : t = rwPlaceFinal e r u := btClose_eq ..
  have htb : v.tb = s.tb := hleft.tb
  have hfields := muFinal_fields v (x.closing reason (satAdd max64 s.bt.closeCount 1))
  rw [← hr, htb] at hfields
  obtain ⟨hkind, hreason, href, haccount, hdest, htariffNo, hmeters, htakes, hslips, hfailovers, hrough, hstepped,
    hliveNT, hcloseNT⟩ := hfields
  refine ⟨r, ?_⟩
  refine ⟨hkind, hreason, href, haccount, hdest, htariffNo, hmeters, htakes, hslips, hfailovers, hrough, hstepped, hliveNT,
    hcloseNT, fun hlive => ?_, fun tariff hlive htariff => ?_, ?_,
    hplaced.tb.trans htb, hplaced.fm.trans hleft.fm, hplaced.mu.trans hleft.mu, fun hfull hq => ?_, fun hfull => ?_⟩
  · rw [hr]
    exact muFinal_of_cancel (x := x.closing reason _) hlive _
  · rw [hr]
    refine muFinal_of_close hlive ?_
    exact (congrArg (fun m : Mu => Tbl.get none m.tariffs x.desc.tariff) hleft.mu).trans htariff
  · exact hplaced.closeCount.trans hleft.counts.1
  · rw [ht]
    obtain ⟨⟨⟨new, hnew, hdata, hlen⟩, -⟩, hqueue, hring, hgone⟩ :=
      rwPlaceFinal_of_ring (hufull.trans hfull) (huqueue.trans hq) e r
    refine ⟨by simpa using hgone, hqueue, by rw [hring, huring], ?_⟩
    have hmem : r.bytes ∈ billingData new := by rw [hdata]; exact List.mem_singleton_self _
    obtain ⟨o, ho, hbytes⟩ := List.mem_map.mp hmem
    obtain ⟨homem, hokind⟩ := List.mem_filter.mp ho
    have hk : o.kind = .record .billing := by simpa using hokind
    exact ⟨o, by rw [hnew]; exact List.mem_append_right _ homem, hk, hbytes, hlen o homem hk⟩
  · have hfull' : u.ringFull .billing = true ∨ u.rw.pendingBilling ≠ [] := by rwa [hufull, huqueue]
    rw [ht]
    rcases Nat.lt_or_ge s.rw.pendingBilling.length 8 with hlt | hge
    · obtain ⟨-, hqueue, hring, hgone⟩ := rwPlaceFinal_of_queue hfull' (by rwa [huqueue]) e r
      refine ⟨hring.trans huring, fun _ => ⟨by simpa using hgone, by rw [hqueue, huqueue]⟩, fun hge => by omega⟩
    · obtain ⟨-, hqueue, hring, hentry⟩ := rwPlaceFinal_of_entry (s := u) (by rwa [huqueue]) e r
      refine ⟨hring.trans huring, fun hlt => by omega, fun _ => ?_⟩
      rw [hentry, hu, hqueue, huqueue]
      refine ⟨rfl, rfl, rfl, ?_, rfl⟩
      rw [← ht, hplaced.closeCount, hleft.counts.1]
      rfl

end Sys2Proof.Machine
end

section
/-! SUPPORT. What requests, releases and closings do to bookings, and the seconds reported: Set Time (O43) and the boundaries
(O52). -/

namespace Sys2Proof.Machine

/-! ### Bookings under the acts of the GA -/

/-- `y` is the booking `x`, or `x` moved among the open states by a decision of the GA. -/
structure Entry.Moves (x y : Entry) : Prop where
  fields : y = { x with state := y.state, resume := y.resume, hasLive := y.hasLive, liveNT := y.liveNT }
  opens : y = x ∨ x.state.isOpen = true ∧ y.state.isOpen = true
  live : x.hasLive = true → y.hasLive = true

namespace Entry.Moves

variable {x y : Entry}

theorem refl (x : Entry) : x.Moves x := ⟨rfl, .inl rfl, id⟩

theorem fired (h : x.Moves y) : y.fired = x.fired := by rw [h.fields]
theorem effStart (h : x.Moves y) : y.effStart = x.effStart := by rw [h.fields]
theorem desc (h : x.Moves y) : y.desc = x.desc := by rw [h.fields]
theorem meters (h : x.Moves y) : y.meters = x.meters := by rw [h.fields]
theorem timeStepped (h : x.Moves y) : y.timeStepped = x.timeStepped := by rw [h.fields]

theorem isOpen (h : x.Moves y) : y.state.isOpen = x.state.isOpen := by
  obtain rfl | ⟨hx, hy⟩ := h.opens
  · rfl
  · rw [hx, hy]

/-- An open entry that enters a state of a holder. -/
theorem enter (hx : x.state.isOpen = true) {st : BookingState} (hst : st.isOpen = true) (nt : Nat) :
    x.Moves (x.enter st nt) where
  fields := by
    unfold Entry.enter
    split <;> rfl
  opens := .inr ⟨hx, by rw [Entry.enter_state]; exact hst⟩
  live := by
    intro hlive
    unfold Entry.enter
    split
    · rfl
    · exact hlive

theorem suspend (hx : x.state.isOpen = true) : x.Moves x.suspend := ⟨rfl, .inr ⟨hx, rfl⟩, id⟩

theorem wait (hx : x.state.isOpen = true) : x.Moves { x with state := .waiting } := ⟨rfl, .inr ⟨hx, rfl⟩, id⟩

end Entry.Moves

theorem BookingState.isOpen_of_holds {st : BookingState} (h : st.holds = true) : st.isOpen = true := by
  rw [BookingState.holds_iff, List.mem_cons, List.mem_cons, List.mem_singleton] at h
  obtain rfl | rfl | rfl := h <;> rfl

theorem Entry.Waits.isOpen {x : Entry} {d : Nat} (h : x.Waits d) : x.state.isOpen = true := by
  obtain ⟨hst | ⟨hst, -⟩, -⟩ := h <;> rw [hst] <;> rfl

theorem btGranted_moves {s : State} {h : Nat} (hopen : (s.entry h).state.isOpen = true)
    (hst : (grantedState s.tb.seconds (s.entry h)).holds = true) (i : Nat) :
    (s.entry i).Moves ((btGranted h s).entry i) := by
  by_cases hi : i = h
  · rw [hi, btGranted_entry_self]
    exact .enter hopen (BookingState.isOpen_of_holds hst) _
  · rw [btGranted_entry_of_ne hi]
    exact .refl _

/-- R120, R121: a release moves at most the head of the queue. -/
theorem gaRelease_moves {s : State} {d a : Nat} (hq : ∀ h ∈ s.grantQueue d, (s.entry h).Waits d) (i : Nat) :
    (s.entry i).Moves ((gaRelease d a s).entry i) := by
  by_cases hnone : s.lpu.mode ≠ .run ∨ s.grantQueue d = []
  · rw [gaRelease_of_none hnone, gaNotice_entry, raise_entry]
    exact .refl _
  · push Not at hnone
    obtain ⟨h, rest, hqueue⟩ := List.exists_cons_of_ne_nil hnone.2
    have hwaits := hq h (by rw [hqueue]; exact List.mem_cons_self)
    rw [gaRelease_of_head hnone.1 hqueue, gaNotice_entry, raise_entry]
    exact btGranted_moves (s := (s.setGrantQueue d rest).setHolder d (some h)) hwaits.isOpen (hwaits.grantedState_holds _) i

/-- R117, R118: a request moves the two bookings it decides on. -/
theorem gaRequest_moves {s : State} (hs : s.GrantedBut none) {b : Nat} (hb : (s.entry b).state = .scheduled) (i : Nat) :
    (s.entry i).Moves ((gaRequest b s).entry i) := by
  have hopen : (s.entry b).state.isOpen = true := by rw [hb]; rfl
  have hholds (nt : Nat) : (grantedState nt (s.entry b)).holds = true := grantedState_holds (.inl (by simp [hb])) nt
  cases hh : s.holder (s.entry b).desc.dest with
  | none =>
    obtain ⟨-, hentry, -, -, -, hother⟩ := gaRequest_of_free hh
    by_cases hi : i = b
    · rw [hi, hentry]
      exact .enter hopen (BookingState.isOpen_of_holds (hholds _)) _
    · rw [hother i hi]
      exact .refl _
  | some a =>
    have hholder := hs.holders hh (by simp)
    have hab : a ≠ b := by
      rintro rfl
      have := hholder.1
      simp [hb, BookingState.holds] at this
    by_cases hpre : preempts (s.entry b).desc (s.entry a).desc = true
    · obtain ⟨-, -, hentry, hsus, hother⟩ := gaRequest_of_preempts hh hab hpre
      by_cases hi : i = b
      · rw [hi, hentry]
        exact .enter hopen (BookingState.isOpen_of_holds (hholds _)) _
      · by_cases hia : i = a
        · rw [hia, hsus]
          exact .suspend (BookingState.isOpen_of_holds hholder.1)
        · rw [hother i hia hi]
          exact .refl _
    · obtain ⟨-, -, hentry, -, -, hother⟩ := gaRequest_of_waits hh hpre
      by_cases hi : i = b
      · rw [hi, hentry]
        exact .wait hopen
      · rw [hother i hi]
        exact .refl _

/-! ### Bookings under a closing -/

/-- R112: the closing of another booking moves an entry at most from its queue. -/
theorem btClose_moves {s : State} (hs : s.GrantedBut none) {e i : Nat} (hi : i ≠ e) (reason : CloseReason) :
    (s.entry i).Moves ((btClose e reason s).entry i) := by
  have hclosing : (closingState e reason s).entry i = s.entry i := closingState_entry_of_ne hi reason s
  rw [btClose_eq, rwPlaceFinal_entry_of_ne hi, btStateEvent, raise_entry, recordState, ← hclosing]
  unfold btLeaveGa
  split
  next hold =>
    refine gaRelease_moves (fun h hh => ?_) i
    have hne : h ≠ e := fun heq => hs.not_queued hold _ (heq ▸ hh)
    rw [closingState_entry_of_ne hne]
    exact hs.queued hh (by simp)
  · split
    · rw [gaWithdraw_entry]
      exact .refl _
    · exact .refl _

/-- R191: after the placement the entry is gone, or stands with its record. -/
theorem rwPlaceFinal_entry_self (e : Nat) (r : BillRecord) (s : State) :
    (((rwPlaceFinal e r s).entry e).state = .empty ∨ ((rwPlaceFinal e r s).entry e).state = .fetching) ∨
    (rwPlaceFinal e r s).entry e = { s.entry e with record := some r } := by
  rcases Nat.lt_or_ge s.rw.pendingBilling.length 8 with hlt | hge
  · by_cases hring : s.ringFull .billing = false ∧ s.rw.pendingBilling = []
    · exact .inl (rwPlaceFinal_of_ring hring.1 hring.2 e r).2.2.2
    · refine .inl (rwPlaceFinal_of_queue ?_ hlt e r).2.2.2
      rw [Decidable.not_and_iff_not_or_not, Bool.not_eq_false] at hring
      exact hring
  · exact .inr (rwPlaceFinal_of_entry hge e r).2.2.2

/-- The closing entry as it leaves the GA. -/
theorem recordState_entry_self {s : State} (hs : s.GrantedBut none) (e : Nat) (reason : CloseReason) :
    (recordState e reason s).entry e = (s.entry e).closing reason (satAdd max64 s.bt.closeCount 1) := by
  refine (btLeaveGa_entry_self fun hst => ?_).trans (closingState_entry_self ..)
  exact hs.not_queued (BookingState.holds_iff.mpr hst) _

theorem btClose_entry_self {s : State} (hs : s.GrantedBut none) (e : Nat) (reason : CloseReason) :
    (((btClose e reason s).entry e).state = .empty ∨ ((btClose e reason s).entry e).state = .fetching) ∨
    (btClose e reason s).entry e = { (s.entry e).closing reason (satAdd max64 s.bt.closeCount 1) with
      record := some (closingRecord e reason s) } := by
  rw [btClose_eq]
  refine (rwPlaceFinal_entry_self ..).imp_right fun h => ?_
  rw [h, btStateEvent, raise_entry, recordState_entry_self hs]

theorem btClose_not_open {s : State} (hs : s.GrantedBut none) (e : Nat) (reason : CloseReason) :
    ((btClose e reason s).entry e).state.isOpen = false := by
  obtain (h | h) | h := btClose_entry_self hs e reason <;> rw [h] <;> rfl

/-! ### The time base under the reports -/

theorem tb_loose (x : Tb) : Loose (fun _ => True) (fun s => s.tb = x) where
  raise hs := (raise_tb ..).trans hs
  route _ hs := hs
  delivery _ hs := hs
  feed _ hs := hs
  counts _ hs := hs
  latch _ hs := hs
  forward hs := (lpuForward_tb ..).trans hs
  hold _ _ _ hs := hs
  join _ hs := hs
  free _ hs := hs
  entry hs := hs
  bookingCounts hs := hs
  holder hs := hs
  queue hs := hs
  read hs := (rwRequest_tb ..).trans hs
  accept hs := (rwAccept_tb ..).trans hs
  push _ hs := hs
  lost hs := hs

/-- No act of a boundary or a limit changes the time base. -/
theorem tb_firing (x : Tb) : Firing (fun _ => True) (fun s => s.tb = x) := (tb_loose x).placing.booking.toFiring

theorem Firing.secondReports {F : Nat → Prop} {P : State → Prop} (h : Firing F P) {s : State} (hs : P s)
    (seconds : List Nat) : P (seconds.foldl (fun t sec => Machine.btReport sec t) s) :=
  List.foldlRecOn (motive := P) _ _ hs fun _ ht _ _ => h.btReport ht _

theorem tbReport_tb (s : State) : (tbReport s).tb = { s.tb with reported := max s.tb.reported s.tb.seconds } := by
  unfold tbReport
  split
  next hlt =>
    have htb := (tb_firing s.tb).secondReports rfl (dueSeconds s s.tb.reported s.tb.seconds)
    rw [Nat.max_eq_right hlt.le]
    exact congrArg (fun x : Tb => { x with reported := s.tb.seconds }) htb
  next hge =>
    rw [Nat.max_eq_left (Nat.not_lt.mp hge)]

/-! ### Set Time -/

/-- The entry has the time-stepped flag, or is one that came after (R59). -/
def Entry.Stepped (x : Entry) : Prop := x.timeStepped = true ∨ x.state = .empty ∨ x.state = .fetching

theorem Entry.Stepped.flag {x : Entry} (h : x.Stepped) (hopen : x.state.isOpen = true) : x.timeStepped = true := by
  obtain h | h | h := h
  · exact h
  all_goals
    rw [h] at hopen
    cases hopen

theorem Entry.Stepped.moves {x y : Entry} (h : x.Stepped) (hm : x.Moves y) : y.Stepped := by
  obtain rfl | ⟨hopen, -⟩ := hm.opens
  · exact h
  · exact .inl (hm.timeStepped.trans (h.flag hopen))

/-- The grants are in order, and the entries of `keep` keep their time-stepped flags. -/
structure SteppedBut (keep : Nat → Prop) (s : State) : Prop where
  granted : s.GrantedBut none
  stepped : ∀ i, keep i → (s.entry i).Stepped

theorem SteppedBut.congr {keep : Nat → Prop} {s t : State} (h : SteppedBut keep s) (hg : t.ga = s.ga)
    (hb : t.bt.entries = s.bt.entries) : SteppedBut keep t where
  granted := h.granted.congr hg hb
  stepped i hi := by
    have : t.entry i = s.entry i := by rw [State.entry, hb]; rfl
    rw [this]
    exact h.stepped i hi

theorem SteppedBut.setEntry {keep : Nat → Prop} {s : State} (h : SteppedBut keep s) {e : Nat} {x : Entry}
    (hg : (s.setEntry e x).GrantedBut none) (hx : (s.entry e).Stepped → x.Stepped) : SteppedBut keep (s.setEntry e x) where
  granted := hg
  stepped i hi := by
    by_cases hie : i = e
    · rw [hie, State.entry_setEntry_self]
      exact hx (h.stepped e (hie ▸ hi))
    · rw [State.entry_setEntry_of_ne _ _ hie]
      exact h.stepped i hi

theorem steppedBut_firing (keep : Nat → Prop) : Firing (fun _ => True) (SteppedBut keep) where
  raise h := h.congr (raise_ga ..) (by rw [raise_bt])
  route _ h := h.congr rfl rfl
  delivery _ h := h.congr rfl rfl
  feed _ h := h.congr rfl rfl
  counts hx h := by
    refine h.setEntry (granted_booking.counts hx h.granted) ?_
    unfold Entry.Counted at hx
    rw [hx]
    exact id
  latch _ h := h.congr rfl rfl
  forward h := h.congr (lpuForward_ga ..) (by rw [lpuForward_bt])
  hold _ _ _ h := h.congr rfl rfl
  join _ h := h.congr rfl rfl
  free _ h := h.congr rfl rfl
  aside hx h := by
    refine h.setEntry (granted_booking.aside hx h.granted) ?_
    obtain ⟨hst, -, -, -, hflag⟩ := hx
    exact fun hs => hs.imp hflag (hst ▸ id)
  requestCount h := h.congr rfl rfl
  request hb h := ⟨granted_booking.request hb h.granted, fun i hi => (h.stepped i hi).moves (gaRequest_moves h.granted hb i)⟩
  close {e reason s} hopen h := by
    refine ⟨h.granted.btClose .., fun i hi => ?_⟩
    by_cases hie : i = e
    · subst hie
      obtain hgone | hself := btClose_entry_self h.granted i reason
      · exact .inr hgone
      · rw [hself]
        exact .inl ((h.stepped i hi).flag hopen)
    · exact (h.stepped i hi).moves (btClose_moves h.granted hie reason)
  move he hst h := by
    refine h.setEntry (granted_booking.move he hst h.granted) fun hs => hs.moves ?_
    exact .enter (BookingState.isOpen_of_holds he) (BookingState.isOpen_of_holds hst) _
  resume he h := h.setEntry (granted_booking.resume he h.granted) id
  checkpoint h := h.congr (rwPlaceCheckpoint_ga ..) (by rw [rwPlaceCheckpoint_bt])

/-- The state in which the second reports of an applied Set Time value are made (R58, R59). -/
def appliedTime (sec : Nat) (s : State) : State :=
  btTimeStepped (s.withTb { s.tb with seconds := sec, millis := 0, staged := none })

/-- `t` is `s` with other entries. -/
def OnlyEntries (s t : State) : Prop := t = s.withBt { s.bt with entries := t.bt.entries }

theorem btTimeStepped_only (s : State) : OnlyEntries s (btTimeStepped s) := by
  have hstart : OnlyEntries s s := rfl
  refine forAll_preserves (P := OnlyEntries s) (fun i t ht => ?_) 128 hstart
  split
  · exact ht
  · unfold OnlyEntries at ht ⊢
    rw [ht]
    rfl

theorem appliedTime_only (sec : Nat) (s : State) :
    OnlyEntries (s.withTb { s.tb with seconds := sec, millis := 0, staged := none }) (appliedTime sec s) :=
  btTimeStepped_only _

theorem appliedTime_tb (sec : Nat) (s : State) :
    (appliedTime sec s).tb = { s.tb with seconds := sec, millis := 0, staged := none } := by
  have honly := appliedTime_only sec s
  unfold OnlyEntries at honly
  rw [honly]
  rfl

theorem btTimeStepped_entry (s : State) {e : Nat} (he : e < 128) : (btTimeStepped s).entry e =
    if (s.entry e).state = .empty then s.entry e else { s.entry e with timeStepped := true } := by
  have hall := forAll_each State.entry
    (fun _ x => if x.state = .empty then x else { x with timeStepped := true })
    (g := fun e t => if (t.entry e).state = .empty then t else modEntry e (fun x => { x with timeStepped := true }) t)
    (fun i t => by
      split
      · rfl
      · exact modEntry_entry_self ..)
    (fun i j t hne => by
      split
      · rfl
      · exact modEntry_entry_of_ne hne ..) 128 s e
  rwa [if_pos he] at hall

theorem appliedTime_entry (sec : Nat) (s : State) {e : Nat} (he : e < 128) : (appliedTime sec s).entry e =
    if (s.entry e).state = .empty then s.entry e else { s.entry e with timeStepped := true } :=
  btTimeStepped_entry _ he

theorem tbTimeCommand_of_applied {p : Nat → Nat} {s : State} (h : p 1 = 0 ∨ p 1 = 1 ∧ s.tb.refMode = .off) :
    tbTimeCommand p s = (tbReport (appliedTime (p 0) s),
      ⟨.done, 1, [s.tb.seconds, s.tb.millis, p 0, if s.tb.staged = none then 0 else 1]⟩) := by
  have hflag : flag s.tb.staged.isSome = if s.tb.staged = none then 0 else 1 := by
    cases s.tb.staged <;> rfl
  unfold tbTimeCommand
  rw [if_neg (by omega), if_pos (h.imp_right And.right), hflag]
  rfl

/-- Settles O43. -/
theorem setTimeAppliesOrStages : Obligations.SetTimeAppliesOrStages := by
  intro s n data rest h p words
  have hdata : commandParam data = p := rfl
  refine ⟨fun hnow => ?applied, fun hone hmode => ?staged, fun hflag => ?range⟩
  case applied =>
    obtain ⟨v, hv⟩ : ∃ v, v = appliedTime (p 0) (s.started rest) := ⟨_, rfl⟩
    have hvtb : v.tb = { s.tb with seconds := p 0, millis := 0, staged := none } := hv ▸ appliedTime_tb ..
    have hventry : ∀ e < 128, v.entry e =
        if (s.entry e).state = .empty then s.entry e else { s.entry e with timeStepped := true } :=
      fun e he => hv ▸ appliedTime_entry _ _ he
    have hveq : v = ((s.started rest).withTb v.tb).withBt { s.bt with entries := v.bt.entries } := by
      rw [hvtb, hv]
      exact appliedTime_only (p 0) (s.started rest)
    have howner : tbTimeCommand (commandParam data) (s.started rest) = (tbReport v, ⟨.done, 1, words⟩) :=
      hv ▸ tbTimeCommand_of_applied hnow
    refine ⟨tbReport v, gives_of_owner (exec_setTime s) h howner, ?_, fun hord e he hne => ?_, fun hle => ?_, fun hlt => ?_⟩
    · rw [tbReport_tb, hvtb]
    · have hgranted : v.GrantedBut none := by
        have hs0 : s.GrantedBut none := s.grantsInOrder_iff.mp hord
        rw [hv]
        exact granted_booking.btTimeStepped (hs0.congr (t := (s.started rest).withTb
          { s.tb with seconds := p 0, millis := 0, staged := none }) rfl rfl)
      have hstart : SteppedBut (fun i => i = e) v := by
        refine ⟨hgranted, fun i hi => .inl ?_⟩
        subst hi
        rw [hventry i he, if_neg hne]
      have hall : SteppedBut (fun i => i = e) (tbReport v) := by
        unfold tbReport
        split
        · exact ((steppedBut_firing _).secondReports hstart _).congr rfl rfl
        · exact hstart
      exact hall.stepped e rfl
    · have hidle : tbReport v = v := by
        unfold tbReport
        rw [if_neg]
        rw [hvtb]
        exact Nat.not_lt.mpr hle
      rw [hidle]
      exact ⟨hventry, hveq⟩
    · exact ⟨v, hvtb, hventry, hveq, rfl⟩
  case staged =>
    refine gives_of_owner (exec_setTime s) h ?_
    have hmode' : (s.started rest).tb.refMode ≠ .off := hmode
    have hflag : flag (s.started rest).tb.staged.isSome = if s.tb.staged = none then 0 else 1 := by
      change flag s.tb.staged.isSome = _
      cases s.tb.staged <;> rfl
    rw [hdata, tbTimeCommand, if_neg (by omega), if_neg (by simpa [hone] using hmode'), hflag]
    rfl
  case range =>
    refine gives_of_owner (exec_setTime s) h ?_
    rw [hdata, tbTimeCommand, if_pos hflag]
    rfl

end Sys2Proof.Machine
end

section
/-! SUPPORT. The boundaries of the bookings: what one of them does, and the second reports (O52). -/

namespace Sys2Proof.Machine

/-! ### The seconds that are reported -/

theorem foldl_insertRising_const {n : Nat} : ∀ l : List Nat, (∀ b ∈ l, b = n) →
    l.foldl (fun acc b => insertRising b acc) [] = if l = [] then [] else [n]
  | [], _ => rfl
  | b :: l, h => by
    have hkeep : ∀ l : List Nat, (∀ b ∈ l, b = n) → l.foldl (fun acc b => insertRising b acc) [n] = [n] := by
      intro l hl
      induction l with
      | nil => rfl
      | cons c l ih =>
        have hc : insertRising c [n] = [n] := by simp [insertRising, hl c List.mem_cons_self]
        rw [List.foldl_cons, hc, ih fun b hb => hl b (List.mem_cons_of_mem _ hb)]
    have hb : insertRising b [] = [n] := by rw [h b List.mem_cons_self]; rfl
    rw [List.foldl_cons, hb, hkeep l fun b hb => h b (List.mem_cons_of_mem _ hb), if_neg (List.cons_ne_nil _ _)]

theorem mem_dueSeconds {x : Entry} {r upTo b : Nat} : b ∈ x.dueSeconds r upTo ↔
    x.state.isOpen = true ∧ ∃ i < 4, x.fired ≤ i ∧ x.boundary i ≤ upTo ∧ max (x.boundary i) (r + 1) = b := by
  unfold Entry.dueSeconds
  split
  next hopen => simp [hopen, and_assoc]
  next hopen => simp [hopen]

/-- The next second is reported where a boundary is due at it, and no other second is. -/
theorem dueSeconds_next (s : State) (r : Nat) : dueSeconds s r (r + 1) =
    if (List.range 128).flatMap (fun e => (s.entry e).dueSeconds r (r + 1)) = [] then [] else [r + 1] := by
  unfold dueSeconds
  rw [← List.foldl_flatMap]
  refine foldl_insertRising_const _ fun b hb => ?_
  obtain ⟨e, -, hmem⟩ := List.mem_flatMap.mp hb
  obtain ⟨-, i, -, -, hle, hmax⟩ := mem_dueSeconds.mp hmem
  omega

/-- Entry `x` has no boundary at or before second `sec` to fire. -/
def Entry.Idle (sec : Nat) (x : Entry) : Prop :=
  ¬(x.state.isOpen = true ∧ x.fired < 4 ∧ x.boundary x.fired ≤ sec)

theorem btReport_of_idle {s : State} {sec : Nat} (h : ∀ j < 128, (s.entry j).Idle sec) : btReport sec s = s := by
  unfold btReport forAll
  refine List.foldlRecOn (motive := fun t => t = s) _ _ rfl fun t ht j hj => ?_
  rw [ht]
  exact btFireUpTo_idle _ _ _ _ (h j (List.mem_range.mp hj))

/-- R49: NT has entered the next second, and the BT is given a report of it. -/
theorem tbReport_next {s : State} (h : s.tb.seconds = s.tb.reported + 1) : tbReport s =
    (btReport s.tb.seconds s).withTb { (btReport s.tb.seconds s).tb with reported := s.tb.seconds } := by
  unfold tbReport
  rw [if_pos (by omega), h, dueSeconds_next]
  split
  next hnil =>
    have hidle : btReport (s.tb.reported + 1) s = s := by
      refine btReport_of_idle fun j hj ⟨hopen, hfired, hle⟩ => ?_
      have hmem : max ((s.entry j).boundary (s.entry j).fired) (s.tb.reported + 1) ∈
          (List.range 128).flatMap (fun e => (s.entry e).dueSeconds s.tb.reported (s.tb.reported + 1)) :=
        List.mem_flatMap.mpr ⟨j, List.mem_range.mpr hj, mem_dueSeconds.mpr ⟨hopen, _, hfired, le_rfl, hle, rfl⟩⟩
      rw [hnil] at hmem
      cases hmem
    rw [hidle]
    rfl
  · rw [List.foldl_cons, List.foldl_nil]

/-! ### One boundary -/

/-- The boundaries of `y` are those of `x`. -/
def Entry.Timing (x y : Entry) : Prop := y.fired = x.fired ∧ y.effStart = x.effStart ∧ y.desc = x.desc

theorem Entry.Timing.refl (x : Entry) : x.Timing x := ⟨rfl, rfl, rfl⟩

theorem Entry.Timing.trans {x y z : Entry} (h : x.Timing y) (k : y.Timing z) : x.Timing z :=
  ⟨k.1.trans h.1, k.2.1.trans h.2.1, k.2.2.trans h.2.2⟩

theorem Entry.Timing.boundary {x y : Entry} (h : x.Timing y) (i : Nat) : y.boundary i = x.boundary i := by
  obtain ⟨-, hstart, hdesc⟩ := h
  unfold Entry.boundary
  rw [hstart, hdesc]

theorem Entry.Moves.timing {x y : Entry} (h : x.Moves y) : x.Timing y := ⟨h.fired, h.effStart, h.desc⟩

theorem Entry.Moves.idle {x y : Entry} (h : x.Moves y) {sec : Nat} (hx : x.Idle sec) : y.Idle sec := by
  unfold Entry.Idle
  rw [h.isOpen, h.fired, h.timing.boundary]
  exact hx

theorem Entry.enter_timing (x : Entry) (st : BookingState) (nt : Nat) : x.Timing (x.enter st nt) :=
  ⟨Entry.enter_fired .., Entry.enter_effStart .., Entry.enter_desc ..⟩

theorem btAsk_moves {s : State} (hs : s.GrantedBut none) {e j : Nat} (he : (s.entry e).state = .scheduled) (hj : j ≠ e) :
    (s.entry j).Moves ((btAsk e s).entry j) := by
  let count := satAdd max64 s.bt.requestCount 1
  have hmod : (modEntry e (fun x => { x with requestNo := count })
      (s.withBt { s.bt with requestCount := count })).GrantedBut none :=
    granted_booking.aside ⟨rfl, rfl, rfl, rfl, id⟩ (granted_booking.requestCount hs)
  have hmoves := gaRequest_moves hmod (b := e) (by rw [entry_modEntry_self]; exact he) j
  rwa [modEntry_entry_of_ne hj] at hmoves

theorem btAsk_timing {s : State} (hs : s.GrantedBut none) {e : Nat} (he : (s.entry e).state = .scheduled) :
    (s.entry e).Timing ((btAsk e s).entry e) := by
  let count := satAdd max64 s.bt.requestCount 1
  have hmod : (modEntry e (fun x => { x with requestNo := count })
      (s.withBt { s.bt with requestCount := count })).GrantedBut none :=
    granted_booking.aside ⟨rfl, rfl, rfl, rfl, id⟩ (granted_booking.requestCount hs)
  have hmoves := gaRequest_moves hmod (b := e) (by rw [entry_modEntry_self]; exact he) e
  rw [entry_modEntry_self] at hmoves
  exact .trans ⟨rfl, rfl, rfl⟩ hmoves.timing

theorem rwPlaceCheckpoint_entry (e : Nat) (r : BillRecord) (s : State) (j : Nat) :
    (rwPlaceCheckpoint e r s).entry j = s.entry j := by
  rw [State.entry, rwPlaceCheckpoint_bt]
  rfl

/-- What a boundary leaves of the other bookings and of the boundaries of its own. -/
structure Fires (e : Nat) (s t : State) : Prop where
  others : ∀ {j}, j ≠ e → (s.entry j).Moves (t.entry j)
  own : (t.entry e).state.isOpen = false ∨ (s.entry e).Timing (t.entry e)

namespace Fires

theorem refl (e : Nat) (s : State) : Fires e s s := ⟨fun _ => .refl _, .inr (.refl _)⟩

theorem setEntry {e : Nat} {s : State} {x : Entry} (h : (s.entry e).Timing x) : Fires e s (s.setEntry e x) where
  others hj := by
    rw [State.entry_setEntry_of_ne _ _ hj]
    exact .refl _
  own := by
    rw [State.entry_setEntry_self]
    exact .inr h

theorem moveHolder (e : Nat) (st : BookingState) (s : State) : Fires e s (btMoveHolder e st s) where
  others hj := by
    rw [btMoveHolder_entry_of_ne hj]
    exact .refl _
  own := by
    rw [btMoveHolder_entry_self]
    exact .inr (Entry.enter_timing ..)

theorem close {s : State} (hs : s.GrantedBut none) (e : Nat) (reason : CloseReason) : Fires e s (btClose e reason s) where
  others hj := btClose_moves hs hj reason
  own := .inl (btClose_not_open hs e reason)

theorem ask {s : State} (hs : s.GrantedBut none) {e : Nat} (he : (s.entry e).state = .scheduled) :
    Fires e s (btAsk e s) where
  others hj := btAsk_moves hs he hj
  own := .inr (btAsk_timing hs he)

theorem start (e : Nat) (s : State) : Fires e s (btStart e s) := by
  unfold btStart
  dsimp only
  split
  · exact moveHolder ..
  · split
    · exact setEntry ⟨rfl, rfl, rfl⟩
    · exact refl ..
  · exact refl ..

theorem checkpoint (e : Nat) (r : BillRecord) (s : State) : Fires e s (rwPlaceCheckpoint e r s) where
  others _ := by
    rw [rwPlaceCheckpoint_entry]
    exact .refl _
  own := by
    rw [rwPlaceCheckpoint_entry]
    exact .inr (.refl _)

theorem half (e : Nat) (s : State) : Fires e s (btHalf e s) := by
  unfold btHalf
  dsimp only
  split
  · exact checkpoint ..
  · exact refl ..

theorem ends {s : State} (hs : s.GrantedBut none) (e : Nat) : Fires e s (btEnd e s) := by
  unfold btEnd
  dsimp only
  split
  · split
    · exact moveHolder ..
    · exact close hs ..
  · exact close hs ..
  · exact close hs ..
  · exact refl ..

/-- R99: boundary `i` of entry `e`, once recorded as fired. -/
theorem fire {s : State} (hs : s.GrantedBut none) (e i : Nat) :
    Fires e (modEntry e (fun x => { x with fired := i + 1 }) s) (btFire e i s) := by
  have hmod : (modEntry e (fun x => { x with fired := i + 1 }) s).GrantedBut none :=
    granted_booking.aside ⟨rfl, rfl, rfl, rfl, id⟩ hs
  unfold btFire
  dsimp only
  split
  · split
    next he => exact ask hmod he
    · exact refl ..
  · exact start ..
  · exact half ..
  · exact ends hmod e

end Fires

/-- R99: the report of a second at which one boundary is due. -/
theorem btReport_of_due {s : State} {sec e : Nat} (hs : s.GrantedBut none) (he : e < 128)
    (hopen : (s.entry e).state.isOpen = true) (hfired : (s.entry e).fired < 4)
    (hdue : (s.entry e).boundary (s.entry e).fired ≤ sec)
    (hnext : (s.entry e).fired < 3 → sec < (s.entry e).boundary ((s.entry e).fired + 1))
    (hothers : ∀ j < 128, j ≠ e → (s.entry j).Idle sec) :
    btReport sec s = btFire e (s.entry e).fired s := by
  let t := btFire e (s.entry e).fired s
  have hfires : Fires e (modEntry e (fun x => { x with fired := (s.entry e).fired + 1 }) s) t := .fire hs ..
  have hother : ∀ j < 128, j ≠ e → (t.entry j).Idle sec := by
    intro j hj hje
    have hmoves := hfires.others hje
    rw [modEntry_entry_of_ne hje] at hmoves
    exact hmoves.idle (hothers j hj hje)
  have hown : (t.entry e).Idle sec := by
    rintro ⟨hopen', hfired', hdue'⟩
    obtain hclosed | htiming := hfires.own
    · rw [hclosed] at hopen'
      cases hopen'
    · rw [entry_modEntry_self] at htiming
      have hf : (t.entry e).fired = (s.entry e).fired + 1 := htiming.1
      rw [htiming.boundary, hf] at hdue'
      have := hnext (by omega)
      exact absurd hdue' (Nat.not_le.mpr this)
  have hfire : btFireUpTo sec e 4 s = t := by
    rw [btFireUpTo, if_pos (by simp [hopen, hfired, hdue])]
    exact btFireUpTo_idle _ _ _ _ hown
  have hbefore : ∀ k ≤ e, forAll k (fun j t => btFireUpTo sec j 4 t) s = s := by
    intro k hk
    induction k with
    | zero => rfl
    | succ k ih =>
      rw [forAll_succ, ih (by omega)]
      exact btFireUpTo_idle _ _ _ _ (hothers k (by omega) (by omega))
  have hafter : ∀ k, forAll (e + 1 + k) (fun j t => btFireUpTo sec j 4 t) s = t ∨ 128 < e + 1 + k := by
    intro k
    induction k with
    | zero => rw [Nat.add_zero, forAll_succ, hbefore e le_rfl]; exact .inl hfire
    | succ k ih =>
      rcases Nat.lt_or_ge 128 (e + 1 + (k + 1)) with hlt | hge
      · exact .inr hlt
      · refine .inl ?_
        rw [← Nat.add_assoc, forAll_succ, ih.resolve_right (by omega)]
        exact btFireUpTo_idle _ _ _ _ (hother (e + 1 + k) (by omega) (by omega))
  have hall := (hafter (127 - e)).resolve_right (by omega)
  rwa [show e + 1 + (127 - e) = 128 by omega] at hall

/-! ### The CHECKPOINT record -/

/-- A record that may not go into the billing ring (R191, R192). -/
def State.billingFull (s : State) : Prop := s.ringFull .billing = true ∨ s.rw.pendingBilling ≠ []

theorem State.billingFull_iff (s : State) :
    s.billingFull ↔ ¬(!s.ringFull .billing && s.rw.pendingBilling.isEmpty) = true := by
  unfold State.billingFull
  cases s.ringFull .billing <;> simp

theorem rwPlaceCheckpoint_of_ring {s : State} (h : ¬s.billingFull) (e : Nat) (r : BillRecord) :
    rwPlaceCheckpoint e r s = rwAccept .billing r.bytes s := by
  unfold rwPlaceCheckpoint
  rw [if_pos (not_not.mp fun hn => h (s.billingFull_iff.mpr hn))]

theorem rwPlaceCheckpoint_of_queue {s : State} (h : s.billingFull) (hlt : s.rw.pendingBilling.length < 8) (e : Nat)
    (r : BillRecord) :
    rwPlaceCheckpoint e r s = s.withRw { s.rw with pendingBilling := s.rw.pendingBilling ++ [r] } := by
  unfold rwPlaceCheckpoint
  rw [if_neg (s.billingFull_iff.mp h), if_pos hlt]

theorem rwPlaceCheckpoint_of_full {s : State} (h : s.billingFull) (hge : 8 ≤ s.rw.pendingBilling.length) (e : Nat)
    (r : BillRecord) : Raised .billing 3 e
      [r.ref, r.charge, s.rw.pendingBilling.length, min 4294967295 (s.rw.checkpointsLost + 1)]
      (s.withRw { s.rw with checkpointsLost := min 4294967295 (s.rw.checkpointsLost + 1) })
      (rwPlaceCheckpoint e r s) := by
  unfold rwPlaceCheckpoint
  rw [if_neg (s.billingFull_iff.mp h), if_neg (Nat.not_lt.mpr hge)]
  exact raise_raised ..

/-! ### The boundaries of O52 -/

theorem BookingState.isOpen_iff {st : BookingState} :
    st.isOpen = true ↔ st ∈ [.scheduled, .waiting, .preroll, .live, .suspended, .overrun] := by
  cases st <;> decide

theorem BookingState.checkpoints_iff {st : BookingState} :
    st.checkpoints = true ↔ st ∈ [.waiting, .preroll, .live, .suspended] := by
  cases st <;> decide

theorem Entry.boundary_eq (x : Entry) (i : Nat) : x.boundary i =
    if i = 0 then x.effStart - x.desc.preroll else if i = 1 then x.effStart
      else if i = 2 then x.effStart + (x.desc.endSec - x.effStart) / 2 else x.desc.endSec := by
  match i with
  | 0 => rfl
  | 1 => rfl
  | 2 => rfl
  | _ + 3 => rfl

/-- R100: the preroll boundary of a booking whose destination has no holder, before its effective start. -/
theorem btAsk_early {s : State} {e : Nat} {x : Entry} (hx : s.entry e = x) (hst : x.state = .scheduled)
    (hholder : s.holder x.desc.dest = none) (hearly : x.fired < 2 ∧ s.tb.seconds < x.effStart) :
    (btAsk e s).bt.requestCount = min max64 (s.bt.requestCount + 1) ∧ (btAsk e s).holder x.desc.dest = some e ∧
    (btAsk e s).entry e =
      { x with requestNo := (btAsk e s).bt.requestCount, state := .preroll, resume := none } := by
  let count := min max64 (s.bt.requestCount + 1)
  let v := (s.withBt { s.bt with requestCount := count }).setEntry e { x with requestNo := count }
  have hentry : v.entry e = { x with requestNo := count } := State.entry_setEntry_self ..
  have heq : btAsk e s = gaRequest e v := btAsk_eq hx rfl
  have hfree := gaRequest_of_free (s := v) (b := e) (by rw [hentry]; exact hholder)
  rw [hentry] at hfree
  obtain ⟨hhold, hself, -, hcount, -, -⟩ := hfree
  have hgrant : grantedState v.tb.seconds { x with requestNo := count } = .preroll := by
    have hnt : v.tb.seconds = s.tb.seconds := rfl
    simp [grantedState, hst, hnt, hearly]
  have hc : (btAsk e s).bt.requestCount = count := by rw [heq, hcount]; rfl
  rw [hc, heq, hself, hgrant]
  exact ⟨rfl, hhold, rfl⟩

/-! ### What each boundary does by the state of its booking -/

section
variable {s v : State} {e : Nat}

theorem btFire_preroll (hv : modEntry e (fun x => { x with fired := 1 }) s = v) :
    btFire e 0 s = if (v.entry e).state = .scheduled then btAsk e v else v := hv ▸ rfl

theorem btFire_start (hv : modEntry e (fun x => { x with fired := 2 }) s = v) : btFire e 1 s = btStart e v := hv ▸ rfl

theorem btFire_half (hv : modEntry e (fun x => { x with fired := 3 }) s = v) : btFire e 2 s = btHalf e v := hv ▸ rfl

theorem btFire_end (hv : modEntry e (fun x => { x with fired := 4 }) s = v) : btFire e 3 s = btEnd e v := hv ▸ rfl

theorem btStart_of_preroll (h : (s.entry e).state = .preroll) : btStart e s = btMoveHolder e .live s := by
  simp only [btStart, h]

theorem btStart_of_resume (h : (s.entry e).state = .suspended) (hres : (s.entry e).resume = some .preroll) :
    btStart e s = s.setEntry e { s.entry e with resume := some .live } := by
  simp only [btStart, h, if_pos hres]

theorem btStart_of_other (h : (s.entry e).state ≠ .preroll)
    (hres : (s.entry e).state = .suspended → (s.entry e).resume ≠ some .preroll) : btStart e s = s := by
  unfold btStart
  dsimp only
  split
  next hst => exact absurd hst h
  next hst => rw [if_neg (hres hst)]
  · rfl

theorem btHalf_of_checkpoint (h : (s.entry e).state.checkpoints = true) (hflag : (s.entry e).desc.checkpoint = true) :
    btHalf e s = rwPlaceCheckpoint e (muCheckpoint s (s.entry e)) s := by
  simp only [btHalf, h, hflag, Bool.and_self, if_true]

theorem btHalf_of_none (h : (s.entry e).state.checkpoints = false ∨ (s.entry e).desc.checkpoint = false) :
    btHalf e s = s := by
  unfold btHalf
  rw [if_neg]
  obtain h | h := h <;> simp [h]

theorem btEnd_of_overrun (h : (s.entry e).state = .live) (hon : (s.entry e).desc.holdOn = true)
    (hpos : 0 < (s.entry e).desc.allowance) : btEnd e s = btMoveHolder e .overrun s := by
  simp only [btEnd, h, hon, hpos, decide_true, Bool.and_self, if_true]

theorem btEnd_of_ended (h : (s.entry e).state = .live)
    (hoff : (s.entry e).desc.holdOn = false ∨ (s.entry e).desc.allowance = 0) : btEnd e s = btClose e .ended s := by
  have hnot : ((s.entry e).desc.holdOn && decide (0 < (s.entry e).desc.allowance)) = false := by
    obtain hoff | hoff := hoff <;> simp [hoff]
  simp only [btEnd, h, hnot, Bool.false_eq_true, if_false]

theorem btEnd_of_waits (h : (s.entry e).state = .waiting ∨ (s.entry e).state = .suspended) :
    btEnd e s = btClose e .endedWaiting s := by
  obtain h | h := h <;> simp only [btEnd, h]

theorem btEnd_of_other (h : (s.entry e).state ∈ [.scheduled, .preroll, .overrun]) : btEnd e s = s := by
  simp only [List.mem_cons, List.not_mem_nil, or_false] at h
  obtain h | h | h := h <;> simp only [btEnd, h]

theorem btMoveHolder_ga (e : Nat) (st : BookingState) (s : State) : (btMoveHolder e st s).ga = s.ga := by
  simp [btMoveHolder, btStateEvent]

theorem btMoveHolder_ru (e : Nat) (st : BookingState) (s : State) : (btMoveHolder e st s).ru = s.ru := by
  simp [btMoveHolder, btStateEvent]

theorem muCheckpoint_charge {x : Entry} {tariff : Tariff} (h : s.tariff x.desc.tariff = some tariff) :
    (muCheckpoint s x).charge = (chargeOf false tariff x.meters).charge ∧
    (muCheckpoint s x).seconds = (chargeOf false tariff x.meters).seconds := by
  simp only [muCheckpoint, muRecord, muCharge, h, and_self]

/-- R182: no minimum is applied to a provisional charge. -/
theorem muCheckpoint_minApplied (s : State) (x : Entry) : (muCheckpoint s x).minApplied = false := by
  have hcharge (t : Tariff) : (chargeOf false t x.meters).minApplied = false := by
    unfold chargeOf
    split <;> rfl
  change (muCharge false s x).minApplied = false
  unfold muCharge
  split
  · rfl
  · exact hcharge _

end

/-- Settles O52. -/
theorem boundariesFireAtSecondReports : Obligations.BoundariesFireAtSecondReports := by
  refine ⟨fun s h => tbReport_next h, ?_⟩
  intro s sec e he hord x at_ hopen hfired hdue hnext hothers t y v live full
  have hs : s.GrantedBut none := s.grantsInOrder_iff.mp hord
  have hat : ∀ z i, at_ z i = Entry.boundary z i := fun z i => (Entry.boundary_eq z i).symm
  simp only [hat] at hdue hnext hothers
  have ht : t = btFire e x.fired s := by
    refine btReport_of_due hs he (BookingState.isOpen_iff.mpr hopen) hfired hdue hnext ?_
    rintro j hj hje ⟨hjopen, hjfired, hjdue⟩
    exact absurd hjdue (Nat.not_le.mpr (hothers j hj hje (BookingState.isOpen_iff.mp hjopen) hjfired))
  have hve : v.entry e = y := State.entry_setEntry_self ..
  have hv : ∀ k, x.fired = k → modEntry e (fun x => { x with fired := k + 1 }) s = v := by
    rintro k rfl
    rfl
  refine ⟨fun h0 => ?preroll, fun h1 => ?start, fun h2 => ?half, fun h3 => ?ends⟩
  case preroll =>
    have hact : t = if y.state = .scheduled then btAsk e v else v := by
      rw [ht, h0, btFire_preroll (hv 0 h0), hve]
    refine ⟨fun hst hholder hearly => ?_, fun hst => ?_⟩
    · rw [hact, if_pos hst]
      exact btAsk_early hve hst hholder ⟨by change x.fired + 1 < 2; omega, hearly⟩
    · rw [hact, if_neg hst]
  case start =>
    have hact : t = btStart e v := by rw [ht, h1, btFire_start (hv 1 h1)]
    refine ⟨fun hst => ?_, fun hst hres => ?_, fun hne hsus => ?_⟩
    · rw [hact, btStart_of_preroll (hve ▸ hst), btMoveHolder_entry_self, hve, Entry.enter_live, btMoveHolder_ga,
        btMoveHolder_ru]
      exact ⟨rfl, rfl, rfl⟩
    · rw [hact, btStart_of_resume (hve ▸ hst) (hve ▸ hres), hve]
      exact State.setEntry_setEntry ..
    · rw [hact]
      exact btStart_of_other (hve ▸ hne) (hve ▸ hsus)
  case half =>
    have hact : t = btHalf e v := by rw [ht, h2, btFire_half (hv 2 h2)]
    refine ⟨fun hst hflag => ?_, fun hnone => ?_⟩
    · have hplace : t = rwPlaceCheckpoint e (muCheckpoint v y) v := by
        rw [hact, btHalf_of_checkpoint (hve ▸ BookingState.checkpoints_iff.mpr hst) (hve ▸ hflag), hve]
      refine ⟨muCheckpoint v y, rfl, rfl, rfl, rfl, rfl, muCheckpoint_minApplied .., fun tariff htariff =>
        muCheckpoint_charge htariff, fun hroom => ?_, fun hfull hlt => ?_, fun hfull hge => ?_⟩
      · rw [hplace, rwPlaceCheckpoint_of_ring (s := v) hroom]
        exact rwAccept_accepted ..
      · rw [hplace, rwPlaceCheckpoint_of_queue (s := v) hfull hlt]
        rfl
      · rw [hplace]
        exact rwPlaceCheckpoint_of_full (s := v) hfull hge e (muCheckpoint v y)
    · rw [hact]
      refine btHalf_of_none (hve ▸ hnone.imp_left fun hst => ?_)
      rw [← Bool.not_eq_true, BookingState.checkpoints_iff]
      exact hst
  case ends =>
    have hact : t = btEnd e v := by rw [ht, h3, btFire_end (hv 3 h3)]
    refine ⟨fun hst hon hpos => ?_, fun hst hoff => ?_, fun hst => ?_, fun hst => ?_⟩
    · rw [hact, btEnd_of_overrun (hve ▸ hst) (hve ▸ hon) (hve ▸ hpos), btMoveHolder_entry_self, hve, btMoveHolder_ga,
        btMoveHolder_ru]
      exact ⟨rfl, rfl, rfl⟩
    · rw [hact, btEnd_of_ended (hve ▸ hst) (hve ▸ hoff)]
    · rw [hact, btEnd_of_waits (hve ▸ hst)]
    · rw [hact, btEnd_of_other (hve ▸ hst)]

end Sys2Proof.Machine
end

section
/-! SUPPORT. The local millisecond event: the booking that a meter limit closes in it (O51). -/

namespace Sys2Proof.Machine

/-! ### A record that has been produced stays -/

/-- The record `r` is among the own requests, or waits in the pending billing queue. -/
def RecordOut (r : BillRecord) (s : State) : Prop :=
  (∃ o ∈ ownWork s, o.kind = .record .billing ∧ o.req.data = r.bytes) ∨ r ∈ s.rw.pendingBilling

theorem RecordOut.grow {r : BillRecord} {s t : State} (h : RecordOut r s) (hw : ∃ new, ownWork t = ownWork s ++ new)
    (hq : ∃ new, t.rw.pendingBilling = s.rw.pendingBilling ++ new) : RecordOut r t := by
  obtain ⟨new, hnew⟩ := hw
  obtain ⟨more, hmore⟩ := hq
  refine h.imp (fun ⟨o, ho, hdata⟩ => ⟨o, hnew ▸ List.mem_append_left _ ho, hdata⟩) fun hr => ?_
  rw [hmore]
  exact List.mem_append_left _ hr

theorem RecordOut.same {r : BillRecord} {s t : State} (h : RecordOut r s) (hw : ownWork t = ownWork s)
    (hq : t.rw.pendingBilling = s.rw.pendingBilling) : RecordOut r t :=
  h.grow ⟨[], by rw [hw, List.append_nil]⟩ ⟨[], by rw [hq, List.append_nil]⟩

theorem recordOut_loose (r : BillRecord) : Loose (fun _ => True) (RecordOut r) where
  raise h := by
    obtain ⟨new, hnew, -⟩ := (raise_writes ..).work
    exact h.grow ⟨new, hnew⟩ ⟨[], by rw [raise_rw_pendingBilling, List.append_nil]⟩
  route _ h := h.same rfl rfl
  delivery _ h := h.same rfl rfl
  feed _ h := h.same rfl rfl
  counts _ h := h.same rfl rfl
  latch _ h := h.same rfl rfl
  forward h := by
    unfold lpuForward
    split <;> exact h.same rfl rfl
  hold _ _ _ h := h.same rfl rfl
  join _ h := h.same rfl rfl
  free _ h := h.same rfl rfl
  entry h := h.same rfl rfl
  bookingCounts h := h.same rfl rfl
  holder h := h.same rfl rfl
  queue h := h.same rfl rfl
  read {addr len s} h := by
    obtain ⟨q, w, heq, hqw⟩ := rwRequest_spec .descriptor .read addr len [] s
    exact h.grow ⟨_, by rw [heq]; exact hqw⟩ ⟨[], by rw [heq, List.append_nil]; rfl⟩
  accept {bytes s} h := by
    obtain ⟨hwork, heq⟩ := rwAccept_accepted .billing bytes s
    exact h.grow ⟨_, hwork⟩ ⟨[], by rw [heq, List.append_nil]; rfl⟩
  push _ h := h.grow ⟨[], (List.append_nil _).symm⟩ ⟨_, rfl⟩
  lost h := h.same rfl rfl

/-- R191: a placed record is in the ring or the queue, or stands in its entry. -/
theorem rwPlaceFinal_out (e : Nat) (r : BillRecord) (s : State) :
    RecordOut r (rwPlaceFinal e r s) ∨ ((rwPlaceFinal e r s).entry e).record = some r := by
  rcases Nat.lt_or_ge s.rw.pendingBilling.length 8 with hlt | hge
  · refine .inl ?_
    by_cases hfull : s.billingFull
    · refine .inr ?_
      rw [(rwPlaceFinal_of_queue hfull hlt e r).2.1]
      exact List.mem_append_right _ List.mem_cons_self
    · unfold State.billingFull at hfull
      rw [not_or, Bool.not_eq_true, not_not] at hfull
      obtain ⟨new, hnew, hdata, -⟩ := (rwPlaceFinal_of_ring hfull.1 hfull.2 e r).1.work
      have hmem : r.bytes ∈ billingData new := hdata ▸ List.mem_cons_self
      obtain ⟨o, ho, hbytes⟩ := List.mem_map.mp hmem
      obtain ⟨hnew', hkind⟩ := List.mem_filter.mp ho
      exact .inl ⟨o, hnew ▸ List.mem_append_right _ hnew', by simpa using hkind, hbytes⟩
  · refine .inr ?_
    rw [(rwPlaceFinal_of_entry hge e r).2.2.2]

/-- Entry `e` is closed for good, and its record `r` has been produced. -/
structure State.ClosedWith (e : Nat) (r : BillRecord) (s : State) : Prop where
  granted : s.GrantedBut none
  closed : (s.entry e).state.isOpen = false
  record : RecordOut r s ∨ (s.entry e).record = some r

namespace State.ClosedWith

variable {e : Nat} {r : BillRecord} {s t : State}

theorem step (h : s.ClosedWith e r) (hg : t.GrantedBut none) (hout : RecordOut r s → RecordOut r t)
    (hst : (t.entry e).state = (s.entry e).state) (hrec : (t.entry e).record = (s.entry e).record) :
    t.ClosedWith e r where
  granted := hg
  closed := hst ▸ h.closed
  record := h.record.imp hout fun hr => hrec.trans hr

theorem setEntry (h : s.ClosedWith e r) {i : Nat} {x : Entry} (hg : (s.setEntry i x).GrantedBut none)
    (hx : i = e → x.state = (s.entry e).state ∧ x.record = (s.entry e).record) : (s.setEntry i x).ClosedWith e r := by
  by_cases hi : e = i
  · obtain ⟨hst, hrec⟩ := hx hi.symm
    subst hi
    exact h.step hg (recordOut_loose r).entry (by rw [State.entry_setEntry_self]; exact hst)
      (by rw [State.entry_setEntry_self]; exact hrec)
  · have hentry : (s.setEntry i x).entry e = s.entry e := State.entry_setEntry_of_ne _ _ hi
    exact h.step hg (recordOut_loose r).entry (by rw [hentry]) (by rw [hentry])

/-- A closed entry does not move. -/
theorem moves (h : s.ClosedWith e r) (hg : t.GrantedBut none) (hout : RecordOut r s → RecordOut r t)
    (hm : (s.entry e).Moves (t.entry e)) : t.ClosedWith e r := by
  have heq : t.entry e = s.entry e := hm.opens.resolve_right fun ⟨hopen, _⟩ => by
    rw [h.closed] at hopen
    cases hopen
  exact h.step hg hout (by rw [heq]) (by rw [heq])

theorem withTb (h : s.ClosedWith e r) (x : Tb) : (s.withTb x).ClosedWith e r :=
  h.step (t := s.withTb x) (h.granted.congr rfl rfl) (fun hr => hr.same rfl rfl) rfl rfl

end State.ClosedWith

theorem closedWith_firing (e : Nat) (r : BillRecord) : Firing (fun _ => True) (State.ClosedWith e r) where
  raise h := h.step (granted_booking.raise h.granted) (recordOut_loose r).raise (by rw [raise_entry]) (by rw [raise_entry])
  route _ h := h.step (granted_booking.route trivial h.granted) ((recordOut_loose r).route trivial) rfl rfl
  delivery _ h := h.step (granted_booking.delivery trivial h.granted) ((recordOut_loose r).delivery trivial) rfl rfl
  feed _ h := h.step (granted_booking.feed trivial h.granted) ((recordOut_loose r).feed trivial) rfl rfl
  counts hx h := h.setEntry (granted_booking.counts hx h.granted) fun hi => by
    unfold Entry.Counted at hx
    rw [hx, hi]
    exact ⟨rfl, rfl⟩
  latch _ h := h.step (granted_booking.latch trivial h.granted) ((recordOut_loose r).latch trivial) rfl rfl
  forward h := h.step (granted_booking.forward h.granted) (recordOut_loose r).forward (by rw [lpuForward_entry])
    (by rw [lpuForward_entry])
  hold hd hn hlen h := h.step (granted_booking.hold hd hn hlen h.granted) ((recordOut_loose r).hold hd hn hlen) rfl rfl
  join _ h := h.step (granted_booking.join trivial h.granted) ((recordOut_loose r).join trivial) rfl rfl
  free _ h := h.step (granted_booking.free trivial h.granted) ((recordOut_loose r).free trivial) rfl rfl
  aside hx h := h.setEntry (granted_booking.aside hx h.granted) fun hi => by
    obtain ⟨hst, -, hrec, -⟩ := hx
    rw [hst, hrec, hi]
    exact ⟨rfl, rfl⟩
  requestCount h := h.step (granted_booking.requestCount h.granted) (recordOut_loose r).placing.booking.requestCount rfl rfl
  request hb h := h.moves (granted_booking.request hb h.granted) ((recordOut_loose r).placing.booking.request hb)
    (gaRequest_moves h.granted hb e)
  close {i reason s} hopen h := by
    have hi : e ≠ i := by
      rintro rfl
      rw [h.closed] at hopen
      cases hopen
    exact h.moves (h.granted.btClose ..) ((recordOut_loose r).placing.booking.close hopen) (btClose_moves h.granted hi reason)
  move {i nt st s} hi hst h := h.setEntry (granted_booking.move hi hst h.granted) fun heq => by
    have hopen := BookingState.isOpen_of_holds hi
    rw [heq, h.closed] at hopen
    cases hopen
  resume {i s} hi h := h.setEntry (granted_booking.resume hi h.granted) fun heq => by
    have hclosed := h.closed
    rw [← heq, hi] at hclosed
    cases hclosed
  checkpoint h := h.step (granted_booking.checkpoint h.granted) (recordOut_loose r).placing.booking.checkpoint
    (by rw [rwPlaceCheckpoint_entry]) (by rw [rwPlaceCheckpoint_entry])

/-! ### A booking on the way to its limit test -/

/-- `y` is the booking `x`, still open, with its meters and its descriptor. -/
structure Entry.Carries (x y : Entry) : Prop where
  meters : y.meters = x.meters
  desc : y.desc = x.desc
  live : x.hasLive = true → y.hasLive = true
  isOpen : y.state.isOpen = x.state.isOpen

theorem Entry.Carries.refl (x : Entry) : x.Carries x := ⟨rfl, rfl, id, rfl⟩

theorem Entry.Carries.trans {x y z : Entry} (h : x.Carries y) (k : y.Carries z) : x.Carries z where
  meters := k.meters.trans h.meters
  desc := k.desc.trans h.desc
  live := k.live ∘ h.live
  isOpen := k.isOpen.trans h.isOpen

theorem Entry.Moves.carries {x y : Entry} (h : x.Moves y) : x.Carries y := ⟨h.meters, h.desc, h.live, h.isOpen⟩

theorem Entry.Counted.carries {x y : Entry} (h : x.Counted y) : x.Carries y := by
  unfold Entry.Counted at h
  rw [h]
  exact ⟨rfl, rfl, id, rfl⟩

theorem Entry.Carries.limit {x y : Entry} (h : x.Carries y) (st : BookingState) : y.limit st = x.limit st := by
  unfold Entry.limit
  rw [h.meters, h.desc]

/-- The grants are in order, and entry `e` carries on what it was as `x`. -/
structure State.Carries (e : Nat) (x : Entry) (s : State) : Prop where
  granted : s.GrantedBut none
  entry : x.Carries (s.entry e)

theorem State.Carries.same {e : Nat} {x : Entry} {s t : State} (h : s.Carries e x) (hg : t.GrantedBut none)
    (he : t.entry e = s.entry e) : t.Carries e x := ⟨hg, he ▸ h.entry⟩

theorem carries_reading (e : Nat) (x : Entry) : Reading (fun _ => True) (fun _ => True) (State.Carries e x) where
  raise h := h.same (granted_booking.raise h.granted) (raise_entry ..)
  route _ h := h.same (granted_booking.route trivial h.granted) rfl
  delivery _ h := h.same (granted_booking.delivery trivial h.granted) rfl
  feed _ h := h.same (granted_booking.feed trivial h.granted) rfl
  counts {i y s} hy h := by
    refine ⟨granted_booking.counts hy h.granted, ?_⟩
    by_cases hi : e = i
    · subst hi
      rw [State.entry_setEntry_self]
      exact h.entry.trans hy.carries
    · rw [State.entry_setEntry_of_ne _ _ hi]
      exact h.entry
  latch _ h := h.same (granted_booking.latch trivial h.granted) rfl
  forward h := h.same (granted_booking.forward h.granted) (lpuForward_entry ..)
  hold hd hn hlen h := h.same (granted_booking.hold hd hn hlen h.granted) rfl
  join _ h := h.same (granted_booking.join trivial h.granted) rfl
  free _ h := h.same (granted_booking.free trivial h.granted) rfl

/-- The limit test of another entry. -/
theorem State.Carries.limitTest {e : Nat} {x : Entry} {s : State} (h : s.Carries e x) {j : Nat} (hj : e ≠ j)
    (st : BookingState) : (btLimitTest j st s).Carries e x := by
  refine ⟨granted_booking.btLimitTest h.granted .., h.entry.trans ?_⟩
  unfold btLimitTest
  split
  · split
    · exact (btClose_moves h.granted hj _).carries
    · exact .refl _
  · exact .refl _

theorem closingRecord_fields {s : State} (hs : s.GrantedBut none) (e : Nat) (reason : CloseReason) :
    (closingRecord e reason s).reason = reason ∧ (closingRecord e reason s).ref = (s.entry e).desc.ref ∧
    (closingRecord e reason s).meters = (s.entry e).meters ∧
    ((s.entry e).hasLive = true → (closingRecord e reason s).kind = .close) := by
  obtain ⟨hkind, hreason, href, -, -, -, hmeters, -⟩ :=
    muFinal_fields (recordState e reason s) ((recordState e reason s).entry e)
  rw [recordState_entry_self hs] at hkind hreason href hmeters
  unfold closingRecord
  rw [recordState_entry_self hs]
  exact ⟨hreason, href, hmeters, fun hlive => hkind.trans (if_pos hlive)⟩

theorem btClose_closedWith {s : State} (hs : s.GrantedBut none) (e : Nat) (reason : CloseReason) :
    (btClose e reason s).ClosedWith e (closingRecord e reason s) where
  granted := hs.btClose ..
  closed := btClose_not_open hs e reason
  record := rwPlaceFinal_out ..

/-- R105: the tests of every entry close `e` where its limit is reached in the state its totals were taken from. -/
theorem btLimits_closes {s : State} {taken : List (Nat × BookingState)} {e : Nat} {x : Entry} {st : BookingState}
    {reason : CloseReason} (hs : s.Carries e x) (hmem : (e, st) ∈ taken) (hnodup : (taken.map Prod.fst).Nodup)
    (hopen : x.state.isOpen = true) (hlimit : x.limit st = some reason) :
    ∃ r : BillRecord, (btLimits taken s).ClosedWith e r ∧ r.reason = reason ∧ r.ref = x.desc.ref ∧ r.meters = x.meters ∧
      (x.hasLive = true → r.kind = .close) := by
  obtain ⟨before, after, rfl⟩ := List.append_of_mem hmem
  have hbefore : (btLimits before s).Carries e x := by
    refine List.foldlRecOn (motive := State.Carries e x) _ _ hs fun t ht p hp => ht.limitTest ?_ _
    rintro rfl
    rw [List.map_append, List.map_cons] at hnodup
    exact (List.nodup_append.mp hnodup).2.2 _ (List.mem_map_of_mem hp) _ List.mem_cons_self rfl
  obtain ⟨u, hu⟩ : ∃ u, u = btLimits before s := ⟨_, rfl⟩
  rw [← hu] at hbefore
  have htest : btLimitTest e st u = btClose e reason u := by
    unfold btLimitTest
    rw [if_pos (hbefore.entry.isOpen.trans hopen), hbefore.entry.limit, hlimit]
  have hall : btLimits (before ++ (e, st) :: after) s = btLimits after (btClose e reason u) := by
    unfold btLimits at hu ⊢
    rw [List.foldl_append, List.foldl_cons, ← hu, htest]
  obtain ⟨hreason, href, hmeters, hkind⟩ := closingRecord_fields hbefore.granted e reason
  refine ⟨closingRecord e reason u, ?_, hreason, ?_, ?_, fun hlive => hkind (hbefore.entry.live hlive)⟩
  · rw [hall]
    exact (closedWith_firing e _).btLimits (btClose_closedWith hbefore.granted e reason) _
  · rw [href, hbefore.entry.desc]
  · rw [hmeters, hbefore.entry.meters]

/-! ### The local millisecond event -/

/-- The time base at the end of the millisecond in progress. -/
def Tb.atMillisecond (t : Tb) : Tb := { t with msStart := t.msStart + 1000, subMicros := 0 }

theorem timeTo_end {s : State} (h : NothingDue s) :
    timeTo 1000 s = s.withTb { s.tb with subMicros := max s.tb.subMicros 1000 } := timeTo_of_nothingDue h le_rfl

theorem localMillisecond_of_nothingDue {s : State} (hr : s.lpu.resetAsserted = false) (h : NothingDue s) :
    exec .localMillisecond s = .next (millisecondEvent (s.withTb s.tb.atMillisecond)) := by
  change Host.Outcome.next (if s.lpu.resetAsserted then s else tbMillisecond s) = _
  rw [hr, tbMillisecond, timeTo_end h, if_neg Bool.false_ne_true]
  have hstart : (s.withTb { s.tb with subMicros := max s.tb.subMicros 1000 }).withTb
      ((s.withTb { s.tb with subMicros := max s.tb.subMicros 1000 }).tb.newMillisecond 1000) =
      s.withTb s.tb.atMillisecond := rfl
  rw [hstart]

theorem accrued_entry (s : State) {e : Nat} (he : e < 128) : (forAll 128 muAccrue s).entry e =
    { s.entry e with
      meters := (s.entry e).meters.accrue (s.entry e).state (s.delivery (s.entry e).desc.dest).condition } := by
  have hall := forAll_each (fun t i => (t.entry i, t.delivery))
    (fun _ p => ({ p.1 with meters := p.1.meters.accrue p.1.state (p.2 p.1.desc.dest).condition }, p.2))
    (g := muAccrue) (fun i t => Prod.ext (entry_modEntry_self ..) rfl)
    (fun i j t hne => Prod.ext (modEntry_entry_of_ne hne ..) rfl) 128 s e
  rw [if_pos he] at hall
  have hentry := congrArg Prod.fst hall
  dsimp only at hentry
  exact hentry

/-- R105: where nothing falls due on the oscillator before it, the local millisecond event closes the booking whose limit it
reaches, with the totals that it has taken. -/
theorem millisecondEvent_closes {s : State} (hs : s.GrantedBut none) {e : Nat} (he : e < 128) {k : Meters}
    {reason : CloseReason} (hopen : (s.entry e).state.isOpen = true)
    (hk : (s.entry e).meters.accrue (s.entry e).state (s.delivery (s.entry e).desc.dest).condition = k)
    (hlimit : { s.entry e with meters := k }.limit (s.entry e).state = some reason) :
    ∃ r : BillRecord, (millisecondEvent s).ClosedWith e r ∧ r.reason = reason ∧ r.ref = (s.entry e).desc.ref ∧
      r.meters = k ∧ ((s.entry e).hasLive = true → r.kind = .close) := by
  let x : Entry := { s.entry e with meters := k }
  have haccrued : (forAll 128 muAccrue (s.withTb s.tb.advance)).Carries e x := by
    constructor
    · exact forAll_preserves (P := State.GrantedBut none) (fun i t ht => granted_booking.muAccrue ht i) 128
        (hs.congr (t := s.withTb s.tb.advance) rfl rfl)
    · rw [accrued_entry _ he]
      exact hk ▸ .refl _
  have hdm := forAll_preserves (P := State.Carries e x)
    (g := dmMillisecond) (fun d t ht => (carries_reading e x).dmMillisecond trivial ht) 48 haccrued
  have hru := forAll_preserves (P := State.Carries e x)
    (g := ruMillisecond) (fun d t ht => (carries_reading e x).ruMillisecond trivial ht) 48 hdm
  have hfm := forAll_preserves (P := State.Carries e x)
    (g := fmMillisecond) (fun f t ht => (carries_reading e x).fmMillisecond (fun _ => trivial) ht trivial) 64 hru
  have hmem : (e, (s.entry e).state) ∈ entryStates s := List.mem_map_of_mem (List.mem_range.mpr he)
  have hnodup : ((entryStates s).map Prod.fst).Nodup := by
    unfold entryStates
    rw [List.map_map]
    exact List.map_id _ ▸ List.nodup_range
  obtain ⟨r, hclosed, hfields⟩ := btLimits_closes hfm hmem hnodup hopen hlimit
  refine ⟨r, ?_, hfields⟩
  unfold millisecondEvent tbReport
  dsimp only
  split
  · exact ((closedWith_firing e r).secondReports hclosed _).withTb _
  · exact hclosed

/-! ### The rows of the limits -/

/-- The limits count totals that one millisecond raises by at most 1. -/
theorem Meters.accrue_le (m : Meters) (st : BookingState) (c : Condition) :
    (m.accrue st c).window ≤ m.window + 1 ∧ (m.accrue st c).over ≤ m.over + 1 ∧ (m.accrue st c).su ≤ m.su + 1 := by
  have hcount : ∀ k, satAdd max32 k 1 ≤ k + 1 := fun k => Nat.min_le_right ..
  have hc := hcount m.c
  have hd := hcount m.d
  have hu := hcount m.u
  have hoc := hcount m.oc
  have hod := hcount m.od
  have hou := hcount m.ou
  have hsu := hcount m.su
  unfold Meters.accrue Meters.window Meters.over
  split
  case h_2 => cases c <;> dsimp only <;> omega
  case h_3 => cases c <;> dsimp only <;> omega
  case h_5 => omega
  all_goals
    dsimp only
    omega

theorem BookingState.not_open_iff {st : BookingState} : st.isOpen = false ↔ st ∈ [.closing, .empty, .fetching] := by
  cases st <;> decide

theorem btLimitDue_iff {s : State} (h : NothingDue s) (e : Nat) (st : BookingState) :
    btLimitDue e st (timeTo 1000 s) = true ↔ (s.entry e).state = st ∧
      ({ s.entry e with
        meters := (s.entry e).meters.accrue st (s.delivery (s.entry e).desc.dest).condition }.limit st).isSome = true := by
  rw [timeTo_end h, btLimitDue, Bool.and_eq_true, beq_iff_eq, muAccrue, entry_modEntry_self]
  refine and_congr_right fun hst => ?_
  rw [show (State.entry (s.withTb _) e).state = st from hst]
  rfl

/-- R105: a limit that the coming millisecond reaches. -/
theorem limitRow_closes {s : State} {e : Nat} {row : Instr} {st : BookingState} {reason : CloseReason} {k : Meters}
    (hr : s.lpu.resetAsserted = false) (h : NothingDue s) (he : e < 128) (hs : s.GrantedBut none)
    (hrow : exec row s = .next (tbInterval (btLimitDue e st) s)) (hst : (s.entry e).state = st) (hopen : st.isOpen = true)
    (hk : (s.entry e).meters.accrue st (s.delivery (s.entry e).desc.dest).condition = k)
    (hlimit : { s.entry e with meters := k }.limit st = some reason) :
    ∃ (t : State) (r : BillRecord), exec row s = .next t ∧ exec .localMillisecond s = .next t ∧
      (t.entry e).state ∈ [.closing, .empty, .fetching] ∧
      r.reason = reason ∧ r.ref = (s.entry e).desc.ref ∧ r.meters = k ∧ ((s.entry e).hasLive = true → r.kind = .close) ∧
      ((∃ o ∈ ownWork t, o.kind = .record .billing ∧ o.req.data = r.bytes) ∨ r ∈ t.rw.pendingBilling ∨
        (t.entry e).record = some r) := by
  subst hst
  have hdue : btLimitDue e (s.entry e).state (timeTo 1000 s) = true :=
    (btLimitDue_iff h ..).mpr ⟨rfl, by rw [hk, hlimit]; rfl⟩
  have hevent := localMillisecond_of_nothingDue hr h
  obtain ⟨r, hclosed, hreason, href, hmeters, hkind⟩ := millisecondEvent_closes (s := s.withTb s.tb.atMillisecond)
    (hs.congr rfl rfl) he hopen hk hlimit
  refine ⟨_, r, ?_, hevent, ?_, hreason, href, hmeters, hkind, or_assoc.mp hclosed.record⟩
  · rw [hrow, tbInterval_of_due hr hdue, hevent]
  · exact BookingState.not_open_iff.mp hclosed.closed

/-- The row of a limit that is not reached. -/
theorem limitRow_idle {s : State} {e : Nat} {row : Instr} {st : BookingState} (h : NothingDue s)
    (hrow : exec row s = .next (tbInterval (btLimitDue e st) s))
    (hnot : (s.entry e).state ≠ st ∨ { s.entry e with
      meters := (s.entry e).meters.accrue st (s.delivery (s.entry e).desc.dest).condition }.limit st = none) :
    exec row s = .next s := by
  rw [hrow, tbInterval_of_not_due]
  rw [← Bool.not_eq_true, btLimitDue_iff h]
  rintro ⟨hst, hsome⟩
  obtain hne | hnone := hnot
  · exact hne hst
  · rw [hnone] at hsome
    cases hsome

/-- Settles O51. -/
theorem meterLimitsCloseBookings : Obligations.MeterLimitsCloseBookings := by
  intro s e hr h he hord x m c count closes
  have hs : s.GrantedBut none := s.grantsInOrder_iff.mp hord
  have hle := fun st => m.accrue_le st c
  refine ⟨fun k hst hk hfull => ?_, fun k hst hk hfull => ?_, fun hst hfull => ?_, fun hnot => ?_, fun hnot => ?_,
    fun hnot => ?_⟩
  · have hacc : m.accrue .live c = k := by
      obtain ⟨hc, rfl⟩ | ⟨hc, rfl⟩ | ⟨hc, rfl⟩ := hk <;> rw [hc] <;> rfl
    exact limitRow_closes hr h he hs rfl hst rfl hacc (if_pos hfull)
  · have hacc : m.accrue .overrun c = k := by
      obtain ⟨hc, rfl⟩ | ⟨hc, rfl⟩ | ⟨hc, rfl⟩ := hk <;> rw [hc] <;> rfl
    exact limitRow_closes hr h he hs rfl hst rfl hacc (if_pos hfull)
  · exact limitRow_closes hr h he hs rfl hst rfl rfl (if_pos hfull)
  · refine limitRow_idle h rfl (hnot.imp_right fun hlt => if_neg (Nat.not_le.mpr ?_))
    exact (hle .live).1.trans_lt hlt
  · refine limitRow_idle h rfl (hnot.imp_right fun hlt => if_neg (Nat.not_le.mpr ?_))
    exact (hle .overrun).2.1.trans_lt hlt
  · refine limitRow_idle h rfl (hnot.imp_right fun hlt => if_neg (Nat.not_le.mpr ?_))
    exact (hle .suspended).2.2.trans_lt hlt

end Sys2Proof.Machine
end

section
/-! SUPPORT. Network time: the passing of time and the local millisecond (O40). -/

namespace Sys2Proof.Machine

/-! ### The time base while time passes -/

/-- `y` is the time base `x` but for the position of the oscillator and the treatment of missed marks (R54). -/
def Tb.Passes (x y : Tb) : Prop :=
  y = { x with
    subMicros := y.subMicros, refState := y.refState, consecutive := y.consecutive, failed := y.failed,
    expected := y.expected }

theorem Tb.Passes.refl (x : Tb) : x.Passes x := rfl

theorem Tb.Passes.trans {x y z : Tb} (h : x.Passes y) (k : y.Passes z) : x.Passes z := by
  unfold Tb.Passes at *
  rw [h] at k
  rw [k]

theorem tbDeadlinePassed_passes (at_ : Nat) (s : State) : s.tb.Passes (tbDeadlinePassed at_ s).tb := by
  unfold tbDeadlinePassed
  split
  · rfl
  · split
    · rw [tbSetState_tb]
      rfl
    · rfl
  · exact .refl _

theorem lpuHoldExpire_tb (d : Nat) (s : State) : (lpuHoldExpire d s).tb = s.tb :=
  (tb_loose s.tb).toReading.lpuHoldExpire trivial rfl

theorem moveTo_passes (pos : Nat) (s : State) : s.tb.Passes (moveTo pos s).tb := rfl

theorem comeDue_passes (x : Due) (s : State) : s.tb.Passes (comeDue x s).tb := by
  cases x with
  | deadline a => exact tbDeadlinePassed_passes a s
  | hold d => exact (lpuHoldExpire_tb d s).symm ▸ .refl _

theorem passTime_passes (pos n : Nat) (s : State) : s.tb.Passes (passTime pos n s).tb := by
  induction n generalizing s with
  | zero => exact .refl _
  | succ n ih =>
    unfold passTime
    split
    · exact .refl _
    · split
      · exact ((moveTo_passes _ s).trans (comeDue_passes ..)).trans (ih _)
      · exact .refl _

theorem timeTo_passes (pos : Nat) (s : State) : s.tb.Passes (timeTo pos s).tb :=
  (passTime_passes ..).trans (moveTo_passes ..)

/-! ### The time base in the local millisecond -/

theorem millisecondEvent_tb (s : State) : (millisecondEvent s).tb =
    { s.tb.advance with reported := max s.tb.advance.reported s.tb.advance.seconds } := by
  let x := s.tb.advance
  have haccrued := forAll_preserves (P := fun t => t.tb = x) (g := muAccrue)
    (fun e t ht => (tb_firing x).muAccrue ht e) 128 (s := s.withTb x) rfl
  have hdm := forAll_preserves (P := fun t => t.tb = x) (g := dmMillisecond)
    (fun d t ht => (tb_firing x).dmMillisecond trivial ht) 48 haccrued
  have hru := forAll_preserves (P := fun t => t.tb = x) (g := ruMillisecond)
    (fun d t ht => (tb_firing x).ruMillisecond trivial ht) 48 hdm
  have hfm := forAll_preserves (P := fun t => t.tb = x) (g := fmMillisecond)
    (fun f t ht => (tb_firing x).fmMillisecond (fun _ => trivial) ht trivial) 64 hru
  have hlimits := (tb_firing x).btLimits hfm (entryStates s)
  unfold millisecondEvent
  rw [tbReport_tb, hlimits]

/-- R48. -/
theorem Tb.advance_spec (t : Tb) :
    t.advance = { t with seconds := t.advance.seconds, millis := t.advance.millis } ∧
    (t.millis < 999 → t.advance.seconds = t.seconds ∧ t.advance.millis = t.millis + 1) ∧
    (999 ≤ t.millis → t.seconds < 4294967295 → t.advance.seconds = t.seconds + 1 ∧ t.advance.millis = 0) ∧
    (999 ≤ t.millis → 4294967295 ≤ t.seconds → t.advance.seconds = t.seconds ∧ t.advance.millis = t.millis) := by
  have hmax : max32 = 4294967295 := rfl
  unfold Tb.advance
  rw [hmax]
  split
  next hms => exact ⟨rfl, fun _ => ⟨rfl, rfl⟩, by omega, by omega⟩
  · split
    next hms hsec => exact ⟨rfl, by omega, fun _ _ => ⟨rfl, rfl⟩, by omega⟩
    · exact ⟨rfl, by omega, by omega, fun _ _ => ⟨rfl, rfl⟩⟩

/-- Settles O40. -/
theorem millisecondAdvancesNetworkTime : Obligations.MillisecondAdvancesNetworkTime := by
  intro s hr
  let v := timeTo 1000 s
  let x := v.tb.newMillisecond 1000
  have hexec : exec .localMillisecond s = .next (millisecondEvent (v.withTb x)) := by
    change Host.Outcome.next (if s.lpu.resetAsserted then s else tbMillisecond s) = _
    rw [hr, if_neg Bool.false_ne_true]
    rfl
  have htb : (millisecondEvent (v.withTb x)).tb = { x.advance with reported := max x.advance.reported x.advance.seconds } :=
    millisecondEvent_tb (v.withTb x)
  have hevent : NothingDue s → v.withTb x = s.withTb s.tb.atMillisecond := fun h => by
    have hv : v = _ := timeTo_end h
    simp only [x, hv]
    rfl
  obtain ⟨t, ht⟩ : ∃ t, t = millisecondEvent (v.withTb x) := ⟨_, rfl⟩
  rw [← ht] at hexec htb
  have hpass : s.tb.Passes v.tb := timeTo_passes ..
  have hx : x = { s.tb with
      msStart := s.tb.msStart + 1000, subMicros := 0, refState := v.tb.refState, consecutive := v.tb.consecutive,
      failed := v.tb.failed, expected := v.tb.expected } := by
    unfold Tb.Passes at hpass
    simp only [x, Tb.newMillisecond]
    rw [hpass]
  obtain ⟨hadv, hms, hsec, hlast⟩ := x.advance_spec
  have hseconds : t.tb.seconds = x.advance.seconds := (congrArg Tb.seconds htb :)
  have hmillis : t.tb.millis = x.advance.millis := (congrArg Tb.millis htb :)
  have hrest : t.tb = { x with
      seconds := t.tb.seconds, millis := t.tb.millis, reported := max x.reported t.tb.seconds } := by
    rw [hseconds, hmillis]
    rw [hadv] at htb
    exact htb
  rw [← hseconds, ← hmillis, hx] at hms hsec hlast
  rw [hx] at hrest
  refine ⟨t, hexec, hms, hsec, hlast,
    (congrArg Tb.reported hrest :), (congrArg Tb.msStart hrest :), (congrArg Tb.subMicros hrest :),
    (congrArg Tb.markCount hrest :), (congrArg Tb.refMode hrest :), (congrArg Tb.staged hrest :),
    (congrArg Tb.window hrest :), fun hdue => ?_⟩
  intro advanced accrued timed
  have hadvanced : advanced = s.tb.atMillisecond.advance := by
    have hxeq : x = s.tb.atMillisecond := congrArg State.tb (hevent hdue)
    rw [hxeq] at hadv hseconds hmillis
    rw [hadv, ← hseconds, ← hmillis]
    rfl
  rw [ht, hevent hdue, millisecondEvent]
  dsimp only [timed, accrued]
  rw [hadvanced]
  rfl

end Sys2Proof.Machine
end

section
/-! SUPPORT. The end of a descriptor fetch (O49). -/

namespace Sys2Proof.Machine

/-! ### The response in memory's hands -/

section
variable {s : State} {o : OwnRequest} {before after : List Issued}

/-- The first own request with the tag leaves memory's hands, and the entry that fetches by it ends its fetch. -/
theorem btDescriptorResponse_of_first (hissued : s.lpu.issued = before ++ .own o :: after) (hkind : o.kind = .descriptor)
    (hfirst : ∀ y ∈ before, ∀ z, y = .own z → z.req.tag ≠ o.req.tag) (resp : Response) :
    let u := s.withLpu { s.lpu with issued := before ++ after }
    (fetchingEntry u o.req.tag = none → btDescriptorResponse o.req.tag resp s = u) ∧
    ∀ e, fetchingEntry u o.req.tag = some e → btDescriptorResponse o.req.tag resp s = btFetchEnds e resp u := by
  intro u
  unfold btDescriptorResponse
  extract_lets own lpu s1
  have hown : own (.own o) = true := by simp [own, hkind]
  have hbefore : ∀ y ∈ before, ¬own y = true := by
    intro y hy hp
    cases y with
    | own z =>
      have hp' : (z.kind == .descriptor && z.req.tag == o.req.tag) = true := hp
      rw [Bool.and_eq_true, beq_iff_eq, beq_iff_eq] at hp'
      exact hfirst _ hy z rfl hp'.2
    | upstream z => cases hp
  have hany : s.lpu.issued.any own = true := by
    rw [hissued, List.any_append, List.any_cons, hown, Bool.true_or, Bool.or_true]
  have herase : s.lpu.issued.eraseP own = before ++ after := by
    rw [hissued, List.eraseP_append_right _ hbefore, List.eraseP_cons_of_pos hown]
  have hs1 : s1 = u := congrArg (fun l => s.withLpu { s.lpu with issued := l }) herase
  rw [if_pos hany, hs1]
  exact ⟨fun h => by rw [h], fun e h => by rw [h]⟩

end

theorem fetchingEntry_eq_some {s : State} {e tag : Nat} (he : e < 128)
    (hfetch : (s.entry e).state = .fetching ∧ (s.entry e).fetchTag = some tag)
    (hlow : ∀ i < e, ¬((s.entry i).state = .fetching ∧ (s.entry i).fetchTag = some tag)) :
    fetchingEntry s tag = some e := by
  refine find_range_eq_some he ?_ fun i hi => ?_
  · rw [hfetch.1, hfetch.2, beq_self_eq_true, beq_self_eq_true]
    rfl
  · rw [← Bool.not_eq_true, Bool.and_eq_true, beq_iff_eq, beq_iff_eq]
    exact hlow i hi

theorem fetchingEntry_eq_none {s : State} {tag : Nat}
    (h : ∀ e < 128, ¬((s.entry e).state = .fetching ∧ (s.entry e).fetchTag = some tag)) : fetchingEntry s tag = none := by
  refine List.find?_eq_none.mpr fun e he => ?_
  rw [Bool.and_eq_true, beq_iff_eq, beq_iff_eq]
  exact h e (List.mem_range.mp he)

/-! ### The ends of a fetch -/

section
variable {s : State} {e : Nat} {x : Entry}

theorem cuFinishExecuting_answered {ex : Executing} (h : s.cu.executing = some ex) (r : Reply) :
    Answered ex.slot ex.data r s (cuFinishExecuting r s) := by
  simp only [cuFinishExecuting, h]
  exact cuFinish_answered ..

theorem cuFinishExecuting_keeps (r : Reply) (s : State) : (cuFinishExecuting r s).bt = s.bt ∧
    (cuFinishExecuting r s).entry = s.entry ∧ (cuFinishExecuting r s).holder = s.holder := by
  have hkeeps : (cuFinishExecuting r s).bt = s.bt ∧ (cuFinishExecuting r s).ga = s.ga := by
    unfold cuFinishExecuting
    split
    · exact ⟨rfl, rfl⟩
    · exact ⟨cuFinish_bt .., cuFinish_ga ..⟩
  obtain ⟨hbt, hga⟩ := hkeeps
  refine ⟨hbt, funext fun e => ?_, funext fun d => ?_⟩
  · rw [State.entry, hbt]
    rfl
  · rw [State.holder, hga]
    rfl

theorem btFetchFailed_of_command (hx : s.entry e = x) (horigin : x.origin = .command) (kind detail : Nat) (r : Reply) :
    btFetchFailed e kind detail r s = cuFinishExecuting r (s.setEntry e .blank) := by
  simp only [btFetchFailed, hx, horigin]

theorem btFetchFailed_of_chain {pred : Nat} (hx : s.entry e = x) (horigin : x.origin = .chain pred) (kind detail : Nat)
    (r : Reply) : Raised .chain kind e [x.address % 4294967296, x.address / 4294967296, detail, pred]
      (s.setEntry e .blank) (btFetchFailed e kind detail r s) := by
  simp only [btFetchFailed, hx, horigin]
  exact raise_raised ..

theorem btFetchEnds_of_invalid {data : List Byte} {k : Nat} (h : validation s data = some k) (hk : k ≠ 3) :
    btFetchEnds e (.done data) s = btFetchFailed e 2 k ⟨.descriptorInvalid, k, [e, field data 4 4]⟩ s := by
  unfold btFetchEnds
  dsimp only
  rw [h]
  split
  next heq => exact absurd (Option.some.inj heq) hk
  next heq => rw [Option.some.inj heq]; rfl
  next heq => cases heq

theorem btFetchEnds_of_duplicate {data : List Byte} (h : validation s data = some 3) :
    btFetchEnds e (.done data) s =
      btFetchFailed e 2 3 ⟨.duplicateRef, 3, [e, field data 4 4, (bookingOf s (field data 4 4)).getD 0]⟩ s := by
  unfold btFetchEnds
  dsimp only
  rw [h]
  rfl

theorem btFetchEnds_of_command {data : List Byte} (hx : s.entry e = x) (h : validation s data = none)
    (horigin : x.origin = .command) : btFetchEnds e (.done data) s =
      cuFinishExecuting ⟨.done, 0, [e, field data 4 4, ((btSchedule e (descriptorOf data) s).entry e).state.num]⟩
        (btSchedule e (descriptorOf data) s) := by
  unfold btFetchEnds
  dsimp only
  rw [h, hx, horigin]
  rfl

theorem btFetchEnds_of_chain {data : List Byte} {pred : Nat} (hx : s.entry e = x) (h : validation s data = none)
    (horigin : x.origin = .chain pred) : btFetchEnds e (.done data) s = btSchedule e (descriptorOf data) s := by
  unfold btFetchEnds
  dsimp only
  rw [h, hx, horigin]

/-! ### The booking that is scheduled -/

/-- R98: the booking of the descriptor, as it enters SCHEDULED. -/
def scheduledState (e : Nat) (d : Descriptor) (s : State) : State :=
  btStateEvent e d.ref .fetching .scheduled 0 (modEntry e (fun x => x.scheduled d) s)

theorem scheduledState_entry_self (hx : s.entry e = x) (d : Descriptor) :
    (scheduledState e d s).entry e = x.scheduled d := by
  rw [scheduledState, btStateEvent, raise_entry, entry_modEntry_self, hx]

theorem scheduledState_entry_of_ne {i : Nat} (hi : i ≠ e) (d : Descriptor) :
    (scheduledState e d s).entry i = s.entry i := by
  rw [scheduledState, btStateEvent, raise_entry, modEntry_entry_of_ne hi]

theorem scheduledState_holder (e : Nat) (d : Descriptor) (s : State) (i : Nat) :
    (scheduledState e d s).holder i = s.holder i := raise_holder ..

theorem scheduledState_requestCount (e : Nat) (d : Descriptor) (s : State) :
    (scheduledState e d s).bt.requestCount = s.bt.requestCount := by
  rw [scheduledState, btStateEvent, raise_bt]
  rfl

theorem btAsk_free_entry_of_ne (hx : s.entry e = x) (h : s.holder x.desc.dest = none) {i : Nat} (hi : i ≠ e) :
    (btAsk e s).entry i = s.entry i := by
  rw [btAsk_eq hx rfl, (gaRequest_of_free ?_).2.2.2.2.2 i hi]
  · exact State.entry_setEntry_of_ne _ _ hi
  · rw [State.entry_setEntry_self]
    exact h

theorem btAsk_free_cu (hx : s.entry e = x) (h : s.holder x.desc.dest = none) : (btAsk e s).cu = s.cu := by
  have hfree : ((s.withBt { s.bt with requestCount := satAdd max64 s.bt.requestCount 1 }).setEntry e
      { x with requestNo := satAdd max64 s.bt.requestCount 1 }).holder x.desc.dest = none := h
  rw [btAsk_eq hx rfl, gaRequest]
  simp only [State.entry_setEntry_self, hfree, gaNotice_cu, raise_cu, btGranted_cu]
  rfl

/-- No boundary is due. -/
theorem btSchedule_of_early (hx : s.entry e = x) {d : Descriptor} (h : s.tb.seconds < d.startSec - d.preroll) :
    btSchedule e d s = scheduledState e d s := by
  let v := scheduledState e d s
  have hve : v.entry e = x.scheduled d := scheduledState_entry_self hx d
  have hvtb : v.tb = s.tb := raise_tb ..
  change btFireUpTo v.tb.seconds e 4 v = v
  rw [hvtb]
  refine btFireUpTo_idle _ _ _ _ ?_
  rw [hve]
  rintro ⟨-, -, hdue⟩
  exact absurd hdue (Nat.not_le.mpr h)

/-- R100: the preroll boundary is due, of a booking whose destination has no holder. -/
theorem btSchedule_of_preroll (hx : s.entry e = x) {d : Descriptor} (hdue : d.startSec - d.preroll ≤ s.tb.seconds)
    (hearly : s.tb.seconds < d.startSec) (hholder : s.holder d.dest = none) :
    (btSchedule e d s).bt.requestCount = min max64 (s.bt.requestCount + 1) ∧
    (btSchedule e d s).holder d.dest = some e ∧
    (btSchedule e d s).entry e = { x.scheduled d with
      fired := 1, requestNo := (btSchedule e d s).bt.requestCount, state := .preroll } ∧
    (∀ i, i ≠ e → (btSchedule e d s).entry i = s.entry i) ∧ (btSchedule e d s).cu = s.cu := by
  let v := scheduledState e d s
  have hve : v.entry e = x.scheduled d := scheduledState_entry_self hx d
  have hvtb : v.tb = s.tb := raise_tb ..
  let w := modEntry e (fun x => { x with fired := 1 }) v
  have hwe : w.entry e = { x.scheduled d with fired := 1 } := by rw [entry_modEntry_self, hve]
  have hfree : w.holder d.dest = none := (scheduledState_holder ..).trans hholder
  have hwtb : w.tb = s.tb := hvtb
  obtain ⟨hcount, hhold, hself⟩ := btAsk_early hwe rfl hfree ⟨Nat.one_lt_two, by rw [hwtb]; exact hearly⟩
  have hfire : btFireUpTo s.tb.seconds e 4 v = btFireUpTo s.tb.seconds e 3 (btAsk e w) := by
    rw [btFireUpTo, hve, if_pos]
    · have hst : (w.entry e).state = .scheduled := by rw [hwe]; rfl
      change btFireUpTo _ _ _ (btFire e 0 v) = _
      rw [btFire_preroll (v := w) rfl, if_pos hst]
    · have hle : (x.scheduled d).boundary (x.scheduled d).fired ≤ s.tb.seconds := hdue
      rw [decide_eq_true hle]
      rfl
  have heq : btSchedule e d s = btAsk e w := by
    change btFireUpTo v.tb.seconds e 4 v = _
    rw [hvtb, hfire]
    refine btFireUpTo_idle _ _ _ _ ?_
    rw [hself]
    rintro ⟨-, -, hstart⟩
    exact absurd hstart (Nat.not_le.mpr hearly)
  have hwcount : w.bt.requestCount = s.bt.requestCount := scheduledState_requestCount ..
  rw [heq]
  refine ⟨by rw [hcount, hwcount], hhold, hself, fun i hi => ?_, ?_⟩
  · rw [btAsk_free_entry_of_ne hwe hfree hi, modEntry_entry_of_ne hi]
    exact scheduledState_entry_of_ne hi d
  · rw [btAsk_free_cu hwe hfree]
    exact raise_cu ..

end

/-- Settles O49. -/
theorem descriptorReadEndsTheFetch : Obligations.DescriptorReadEndsTheFetch := by
  intro s o before after hissued hkind hfirst u fetches
  have hresponse := btDescriptorResponse_of_first hissued hkind hfirst
  refine ⟨fun resp hnone => ?_, fun e he hfetch hlow => ?_⟩
  · exact congrArg Host.Outcome.next ((hresponse resp).1 (fetchingEntry_eq_none hnone))
  intro x lo hi passed
  have hends : ∀ resp, exec (.descriptorReadResponse o.req.tag resp) s = .next (btFetchEnds e resp u) := fun resp =>
    congrArg Host.Outcome.next ((hresponse resp).2 e (fetchingEntry_eq_some he hfetch hlow))
  have hux : u.entry e = x := rfl
  have hentry : u.entry = s.entry := rfl
  have hvalid : validation u = validation s := rfl
  have hbooking : bookingOf u = bookingOf s := rfl
  have hcu : u.cu = s.cu := rfl
  have htb : u.tb = s.tb := rfl
  have hbt : u.bt = s.bt := rfl
  have hheld : u.holder = s.holder := rfl
  clear_value u
  rw [← hbt, ← hcu, ← hheld, ← hentry, ← htb, ← hvalid, ← hbooking]
  have hpassed : ∀ data, x.scheduled (descriptorOf data) = passed data := fun _ => rfl
  have hsched : ∀ data, Raised .booking 1 e [field data 4 4, 1, 2, 0] (u.setEntry e (passed data))
      (scheduledState e (descriptorOf data) u) := fun data => by
    rw [← hpassed, ← hux]
    exact raise_raised ..
  refine ⟨fun ex horigin hex => ⟨?_, fun data k hk hk3 => ?_, fun data i hk hi => ?_, fun data hv hearly => ?_⟩,
    fun pred horigin => ⟨?_, fun data k hk => ?_, fun data hv hearly => ?_⟩, fun data hv hdue hearly hholder => ?_⟩
  · refine ⟨_, hends _, ?_⟩
    change Answered _ _ _ _ (btFetchFailed e 1 0 ⟨.fetchError, 0, [e, (u.entry e).address % 4294967296,
      (u.entry e).address / 4294967296]⟩ u)
    rw [hux, btFetchFailed_of_command hux horigin]
    exact cuFinishExecuting_answered (s := u.setEntry e .blank) hex _
  · refine ⟨_, hends _, ?_⟩
    rw [btFetchEnds_of_invalid hk hk3, btFetchFailed_of_command hux horigin]
    exact cuFinishExecuting_answered (s := u.setEntry e .blank) hex _
  · refine ⟨_, hends _, ?_⟩
    rw [btFetchEnds_of_duplicate hk, btFetchFailed_of_command hux horigin, hi]
    exact cuFinishExecuting_answered (s := u.setEntry e .blank) hex _
  · refine ⟨_, scheduledState e (descriptorOf data) u, hends _, hsched data, ?_⟩
    have hexec : (scheduledState e (descriptorOf data) u).cu.executing = some ex := by
      rw [scheduledState, btStateEvent, raise_cu]
      exact hex
    rw [btFetchEnds_of_command hux hv horigin, btSchedule_of_early (d := descriptorOf data) hux hearly,
      scheduledState_entry_self hux]
    exact cuFinishExecuting_answered hexec _
  · exact ⟨_, hends _, btFetchFailed_of_chain hux horigin 1 0 _⟩
  · refine ⟨_, hends _, ?_⟩
    by_cases hk3 : k = 3
    · rw [hk3] at hk ⊢
      rw [btFetchEnds_of_duplicate hk]
      exact btFetchFailed_of_chain hux horigin 2 3 _
    · rw [btFetchEnds_of_invalid hk hk3]
      exact btFetchFailed_of_chain hux horigin 2 k _
  · refine ⟨_, hends _, ?_⟩
    rw [btFetchEnds_of_chain hux hv horigin, btSchedule_of_early (d := descriptorOf data) hux hearly]
    exact hsched data
  · obtain ⟨hcount, hhold, hself, hothers, hkept⟩ :=
      btSchedule_of_preroll (d := descriptorOf data) hux hdue hearly hholder
    obtain ⟨v, hv'⟩ : ∃ v, v = btSchedule e (descriptorOf data) u := ⟨_, rfl⟩
    rw [← hv'] at hcount hhold hself hothers hkept
    refine ⟨_, hends _, ?_⟩
    cases horigin : x.origin with
    | chain pred =>
      rw [btFetchEnds_of_chain hux hv horigin, ← hv']
      exact ⟨hcount, hhold, hself, hothers, fun ex hcommand => nomatch hcommand⟩
    | command =>
      have hstate : (v.entry e).state.num = 4 := by rw [hself]; rfl
      rw [btFetchEnds_of_command hux hv horigin, ← hv', hstate]
      obtain ⟨hcounts, hentries, hholders⟩ := cuFinishExecuting_keeps ⟨.done, 0, [e, field data 4 4, 4]⟩ v
      obtain ⟨t, ht⟩ : ∃ t, t = cuFinishExecuting ⟨.done, 0, [e, field data 4 4, 4]⟩ v := ⟨_, rfl⟩
      rw [← ht] at hcounts hentries hholders ⊢
      refine ⟨by rw [hcounts, hcount]; rfl, by rw [hholders]; exact hhold, by rw [hentries, hcounts, hself]; rfl, fun i hi => ?_,
        fun ex _ hex => ⟨v, ?_⟩⟩
      · rw [hentries, hothers i hi]
      · rw [ht]
        exact cuFinishExecuting_answered (hkept ▸ hex) _

end Sys2Proof.Machine
end

section
/-! SUPPORT. The reference mark: when it comes, how it is accepted, and how it is treated (O42). -/

namespace Sys2Proof.Machine

/-! ### Time up to a mark -/

/-- Nothing falls due before a position that is not beyond the end of the millisecond, or is the present one. -/
theorem timeTo_of_idle {s : State} {pos : Nat} (h : s.lpu.holds = [])
    (hlate : ∀ x, s.tb.expected = some x → pos ≤ max s.tb.subMicros (x + s.tb.window - s.tb.msStart)) :
    timeTo pos s = s.withTb { s.tb with subMicros := max s.tb.subMicros pos } := by
  have hidle : ∀ n, passTime pos n s = s := by
    intro n
    cases n with
    | zero => rfl
    | succ n =>
      have hnext : nextDue s = deadlineDue s := by
        unfold nextDue
        rw [h]
        rfl
      unfold passTime
      rw [hnext]
      split
      · rfl
      next at_ x hdue =>
        unfold deadlineDue at hdue
        split at hdue
        · obtain ⟨y, hy, heq⟩ := Option.map_eq_some_iff.mp hdue
          have hle := hlate y hy
          rw [if_neg]
          rw [← (Prod.mk.inj heq).1]
          exact Nat.not_lt.mpr hle
        · cases hdue
  rw [timeTo, hidle, moveTo_of_no_holds h]

theorem tbReport_of_idle {s : State} (h : s.tb.seconds ≤ s.tb.reported) : tbReport s = s := by
  unfold tbReport
  rw [if_neg (Nat.not_lt.mpr h)]

/-! ### Acceptance -/

theorem tbAlignedOnce_eq (s : State) : tbAlignedOnce s =
    s.withTb { s.tb with refMode := if s.tb.refMode = .alignOnce then .monitor else s.tb.refMode } := by
  unfold tbAlignedOnce
  split <;> rfl

section
variable {s : State} {e : Int} {near : Nat}

/-- The time base re-phased to the mark, with NT at second `sec`. -/
def Tb.rephased (sec : Nat) (t : Tb) : Tb :=
  { t with msStart := t.msStart + t.subMicros, subMicros := 0, seconds := sec, millis := 0 }

theorem tbAccept_of_monitor (hst : s.tb.staged = none) (hmode : s.tb.refMode = .monitor) : tbAccept e near s = (s, false) := by
  unfold tbAccept
  rw [hst]
  simp [hmode]

theorem tbRephase_early (h : s.tb.subMicros < 500) : tbRephase s = s.withTb (s.tb.newMillisecond s.tb.subMicros) := by
  unfold tbRephase
  exact if_neg (Nat.not_le.mpr h)

/-- A mark that aligns NT before 500 µs of the millisecond have run. -/
theorem tbAccept_of_aligns (hst : s.tb.staged = none) (hmode : s.tb.refMode = .track ∨ s.tb.refMode = .alignOnce)
    (h : s.tb.subMicros < 500) : tbAccept e near s =
      (tbAlignedOnce (if inWindow s.tb.window e then s.withTb (s.tb.rephased near)
        else tbEvent 2 [signed32 e, near, s.tb.refMode.num, 0] (s.withTb (s.tb.rephased near))), true) := by
  unfold tbAccept
  rw [hst]
  dsimp only
  rw [if_pos hmode, tbRephase_early h]
  rfl

/-- A mark that aligns NT after 500 µs of the millisecond have run, with the event of that millisecond. -/
theorem tbAccept_of_aligns_late (hst : s.tb.staged = none) (hmode : s.tb.refMode = .track ∨ s.tb.refMode = .alignOnce)
    (h : 500 ≤ s.tb.subMicros) (hin : inWindow s.tb.window e = true) : ∃ reported, (tbAccept e near s).1.tb =
      { s.tb.rephased near with
        reported := reported, refMode := if s.tb.refMode = .alignOnce then .monitor else s.tb.refMode } := by
  let v := s.withTb (s.tb.newMillisecond s.tb.subMicros)
  have hrephase : tbRephase s = millisecondEvent v := if_pos h
  have htb := millisecondEvent_tb v
  obtain ⟨hadv, -⟩ := v.tb.advance_spec
  rw [hadv] at htb
  obtain ⟨u, hu⟩ : ∃ u, u = millisecondEvent v := ⟨_, rfl⟩
  rw [← hu] at htb hrephase
  have hwindow : (tbSetNT near u).tb.window = s.tb.window := (congrArg Tb.window htb :)
  have hacc : (tbAccept e near s).1 = tbAlignedOnce (tbSetNT near u) := by
    unfold tbAccept
    rw [hst]
    dsimp only
    rw [if_pos hmode, hrephase, hwindow, if_pos hin]
  refine ⟨u.tb.reported, ?_⟩
  rw [hacc, tbAlignedOnce_eq, tbSetNT]
  dsimp only [State.withTb]
  rw [htb]
  rfl

/-- A mark that applies a staged time before 500 µs of the millisecond have run. -/
theorem tbAccept_of_staged {sec : Nat} (hst : s.tb.staged = some sec) (h : s.tb.subMicros < 500) : tbAccept e near s =
    (tbAlignedOnce (btTimeStepped (tbEvent 4 [sec, s.tb.seconds, s.tb.millis, signed32 e]
      (s.withTb { s.tb.rephased sec with staged := none }))), true) := by
  unfold tbAccept
  rw [hst]
  dsimp only
  rw [tbRephase_early h]
  rfl

theorem btTimeStepped_tb (s : State) : (btTimeStepped s).tb = s.tb := by
  have honly := btTimeStepped_only s
  generalize btTimeStepped s = t at honly ⊢
  unfold OnlyEntries at honly
  exact (congrArg State.tb honly :)

/-! ### Treatment by the reference state -/

theorem tbTreat_of_locked_outside (hst : s.tb.refState = .locked) (hin : inWindow s.tb.window e = false) :
    (tbTreat e near s).tb = s.tb.wander ∧
    Raised .time 3 0 [signed32 e, s.tb.seconds, s.tb.window, s.tb.wander.wanderCount] (s.withTb s.tb.wander)
      (tbTreat e near s) := by
  unfold tbTreat
  rw [hst, hin]
  exact ⟨raise_tb .., raise_raised ..⟩

theorem tbTreat_of_locked_inside (hst : s.tb.refState = .locked) (hin : inWindow s.tb.window e = true) :
    tbTreat e near s = (tbAccept e near s).1.withTb
      { (tbAccept e near s).1.tb with failed := 0, expected := some (s.now + 1000000) } := by
  unfold tbTreat
  rw [hst, hin]
  rfl

theorem tbTreat_of_holdover_outside (hst : s.tb.refState = .holdover) (hin : inWindow s.tb.window e = false) :
    tbTreat e near s = s.withTb s.tb.wander := by
  unfold tbTreat
  rw [hst, hin]
  rfl

theorem tbTreat_of_acquiring (hst : s.tb.refState = .acquiring) : tbTreat e near s = tbAcquiring e near s := by
  unfold tbTreat
  rw [hst]

theorem tbTreat_of_new (h : s.tb.refState = .absent ∨ s.tb.refState = .holdover ∧ inWindow s.tb.window e = true) :
    tbTreat e near s = tbToAcquiring e near s := by
  unfold tbTreat
  obtain hst | ⟨hst, hin⟩ := h
  · rw [hst]
  · rw [hst, hin]
    rfl

/-- R52: the first mark, not accepted to any effect. -/
theorem tbAcquiring_first_of_monitor (hdue : s.tb.firstMarkDue = true) (hacc : tbAccept e near s = (s, false)) :
    tbAcquiring e near s = s.withTb (if inWindow s.tb.window e then
      { s.tb with consecutive := 1, firstMarkDue := false, expected := some (s.now + 1000000) }
      else { s.tb with consecutive := 0, expected := none }) := by
  unfold tbAcquiring
  rw [if_pos hdue, hacc]
  cases inWindow s.tb.window e <;> rfl

/-- R52: the first mark, which aligns NT or applies a staged time. -/
theorem tbAcquiring_first_of_effect {v : State} (hdue : s.tb.firstMarkDue = true) (hacc : tbAccept e near s = (v, true)) :
    tbAcquiring e near s =
      v.withTb { v.tb with consecutive := 1, firstMarkDue := false, expected := some (s.now + 1000000) } := by
  unfold tbAcquiring
  rw [if_pos hdue, hacc]
  rfl

theorem tbAcquiring_later_inside (hdue : s.tb.firstMarkDue = false) (hin : inWindow s.tb.window e = true) {v : State}
    (hv : v = (tbAccept e near s).1.withTb { (tbAccept e near s).1.tb with
      consecutive := min 4 ((tbAccept e near s).1.tb.consecutive + 1), expected := some (s.now + 1000000) }) :
    tbAcquiring e near s =
      if 4 ≤ v.tb.consecutive then tbSetState .locked (v.withTb { v.tb with failed := 0 }) else v := by
  unfold tbAcquiring
  rw [if_neg (by simp [hdue]), if_pos hin, hv]

theorem tbAcquiring_later_outside (hdue : s.tb.firstMarkDue = false) (hin : inWindow s.tb.window e = false) :
    tbAcquiring e near s = s.withTb { s.tb with consecutive := 0, firstMarkDue := true, expected := none } := by
  unfold tbAcquiring
  rw [if_neg (by simp [hdue]), if_neg (by simp [hin])]

/-- A change of the reference state. -/
theorem tbSetState_raised {old new : RefState} (hold : s.tb.refState = old) (hne : old ≠ new) :
    Raised .time 1 0 [old.num, new.num, s.tb.refMode.num, signed32 s.tb.lastOffset]
      (s.withTb { s.tb with refState := new }) (tbSetState new s) := by
  subst hold
  unfold tbSetState
  rw [if_neg hne]
  exact raise_raised ..

/-! ### Marks that change no NT -/

theorem tbTreat_monitor_locked (hacc : tbAccept e near s = (s, false)) (hst : s.tb.refState = .locked)
    (hin : inWindow s.tb.window e = true) :
    tbTreat e near s = s.withTb { s.tb with failed := 0, expected := some (s.now + 1000000) } := by
  rw [tbTreat_of_locked_inside hst hin, hacc]

theorem tbTreat_monitor_first (hacc : tbAccept e near s = (s, false)) (hst : s.tb.refState = .acquiring)
    (hdue : s.tb.firstMarkDue = true) : tbTreat e near s = s.withTb (if inWindow s.tb.window e then
      { s.tb with consecutive := 1, firstMarkDue := false, expected := some (s.now + 1000000) }
      else { s.tb with consecutive := 0, expected := none }) := by
  rw [tbTreat_of_acquiring hst, tbAcquiring_first_of_monitor hdue hacc]

theorem tbTreat_monitor_later (hacc : tbAccept e near s = (s, false)) (hst : s.tb.refState = .acquiring)
    (hdue : s.tb.firstMarkDue = false) (hin : inWindow s.tb.window e = true) (hfew : s.tb.consecutive + 1 < 4) :
    tbTreat e near s =
      s.withTb { s.tb with consecutive := s.tb.consecutive + 1, expected := some (s.now + 1000000) } := by
  have hcount : min 4 (s.tb.consecutive + 1) = s.tb.consecutive + 1 := Nat.min_eq_right hfew.le
  rw [tbTreat_of_acquiring hst, tbAcquiring_later_inside hdue hin rfl, hacc]
  dsimp only [State.withTb]
  rw [hcount]
  exact if_neg (Nat.not_le.mpr hfew)

/-- The fourth in-window mark in a row. -/
theorem tbTreat_monitor_fourth (hacc : tbAccept e near s = (s, false)) (hst : s.tb.refState = .acquiring)
    (hdue : s.tb.firstMarkDue = false) (hin : inWindow s.tb.window e = true) (hmany : 4 ≤ s.tb.consecutive + 1) :
    (tbTreat e near s).tb.seconds = s.tb.seconds ∧ (tbTreat e near s).tb.reported = s.tb.reported ∧
    Raised .time 1 0 [1, 2, s.tb.refMode.num, signed32 s.tb.lastOffset] (s.withTb { s.tb with
      consecutive := 4, expected := some (s.now + 1000000), failed := 0, refState := .locked }) (tbTreat e near s) := by
  let v := s.withTb { s.tb with consecutive := 4, expected := some (s.now + 1000000), failed := 0 }
  have hcount : min 4 (s.tb.consecutive + 1) = 4 := Nat.min_eq_left hmany
  have htreat : tbTreat e near s = tbSetState .locked v := by
    rw [tbTreat_of_acquiring hst, tbAcquiring_later_inside hdue hin rfl, hacc]
    dsimp only [State.withTb]
    rw [hcount]
    exact if_pos le_rfl
  have hraised := tbSetState_raised (s := v) (old := .acquiring) (new := .locked) hst (by decide)
  rw [htreat, tbSetState_tb]
  exact ⟨rfl, rfl, hraised⟩

/-- R52, R55: a mark that moves the reference state to ACQUIRING. -/
theorem tbTreat_monitor_new {old : RefState} (hmode : s.tb.refMode = .monitor) (hstaged : s.tb.staged = none)
    (hold : s.tb.refState = old) (hnew : old = .absent ∨ old = .holdover ∧ inWindow s.tb.window e = true) :
    ∃ v, v.tb = { s.tb with refState := .acquiring } ∧
      Raised .time 1 0 [old.num, 1, s.tb.refMode.num, signed32 s.tb.lastOffset]
        (s.withTb { s.tb with refState := .acquiring }) v ∧
      tbTreat e near s = v.withTb (if inWindow s.tb.window e then
        { v.tb with consecutive := 1, firstMarkDue := false, expected := some (s.now + 1000000) }
        else { v.tb with consecutive := 0, firstMarkDue := true, expected := none }) := by
  have hne : old ≠ .acquiring := by
    obtain hst | ⟨hst, -⟩ := hnew <;> rw [hst] <;> decide
  obtain ⟨v, hv⟩ : ∃ v, v = tbSetState .acquiring s := ⟨_, rfl⟩
  have hvtb : v.tb = { s.tb with refState := .acquiring } := hv ▸ tbSetState_tb ..
  refine ⟨v, hvtb, hv ▸ tbSetState_raised hold hne, ?_⟩
  let w := v.withTb { v.tb with firstMarkDue := true }
  have hstaged' : w.tb.staged = none := (congrArg Tb.staged hvtb :).trans hstaged
  have hmode' : w.tb.refMode = .monitor := (congrArg Tb.refMode hvtb :).trans hmode
  have hwindow : w.tb.window = s.tb.window := (congrArg Tb.window hvtb :)
  have hnow : w.now = s.now := by
    change v.tb.msStart + v.tb.subMicros = _
    rw [hvtb]
    rfl
  have htreat : tbTreat e near s = tbAcquiring e near w := by
    rw [tbTreat_of_new (hold ▸ hnew), tbToAcquiring, ← hv]
  rw [htreat, tbAcquiring_first_of_monitor rfl (tbAccept_of_monitor hstaged' hmode'), hwindow, hnow]
  cases inWindow s.tb.window e <;> rfl

/-! ### Marks that align NT -/

/-- The reference mode after an aligning mark (R51). -/
def RefMode.aligned (m : RefMode) : RefMode := if m = .alignOnce then .monitor else m

theorem tbTreat_aligns_locked (hstaged : s.tb.staged = none)
    (hmode : s.tb.refMode = .track ∨ s.tb.refMode = .alignOnce) (hpos : s.tb.subMicros < 500)
    (hst : s.tb.refState = .locked) (hin : inWindow s.tb.window e = true) : tbTreat e near s =
      s.withTb { s.tb.rephased near with
        failed := 0, expected := some (s.now + 1000000), refMode := s.tb.refMode.aligned } := by
  rw [tbTreat_of_locked_inside hst hin, tbAccept_of_aligns hstaged hmode hpos, if_pos hin, tbAlignedOnce_eq]
  rfl

theorem tbTreat_aligns_first (hstaged : s.tb.staged = none)
    (hmode : s.tb.refMode = .track ∨ s.tb.refMode = .alignOnce) (hpos : s.tb.subMicros < 500)
    (hst : s.tb.refState = .acquiring) (hdue : s.tb.firstMarkDue = true) (hin : inWindow s.tb.window e = true) :
    tbTreat e near s = s.withTb { s.tb.rephased near with
      consecutive := 1, firstMarkDue := false, expected := some (s.now + 1000000),
      refMode := s.tb.refMode.aligned } := by
  have hacc := tbAccept_of_aligns (e := e) (near := near) hstaged hmode hpos
  rw [if_pos hin, tbAlignedOnce_eq] at hacc
  rw [tbTreat_of_acquiring hst, tbAcquiring_first_of_effect hdue hacc]
  rfl

theorem tbTreat_aligns_far (hstaged : s.tb.staged = none)
    (hmode : s.tb.refMode = .track ∨ s.tb.refMode = .alignOnce) (hpos : s.tb.subMicros < 500)
    (hst : s.tb.refState = .acquiring) (hdue : s.tb.firstMarkDue = true) (hout : inWindow s.tb.window e = false) :
    ∃ v, v.tb = s.tb.rephased near ∧
      Raised .time 2 0 [signed32 e, near, s.tb.refMode.num, 0] (s.withTb (s.tb.rephased near)) v ∧
      tbTreat e near s = v.withTb { v.tb with
        consecutive := 1, firstMarkDue := false, expected := some (s.now + 1000000),
        refMode := s.tb.refMode.aligned } := by
  obtain ⟨v, hv⟩ : ∃ v, v = tbEvent 2 [signed32 e, near, s.tb.refMode.num, 0] (s.withTb (s.tb.rephased near)) := ⟨_, rfl⟩
  have hvtb : v.tb = s.tb.rephased near := hv ▸ raise_tb ..
  have hmodev : v.tb.refMode = s.tb.refMode := (congrArg Tb.refMode hvtb :)
  have hacc := tbAccept_of_aligns (e := e) (near := near) hstaged hmode hpos
  rw [if_neg (by simp [hout]), ← hv, tbAlignedOnce_eq, hmodev] at hacc
  refine ⟨v, hvtb, hv ▸ raise_raised .., ?_⟩
  rw [tbTreat_of_acquiring hst, tbAcquiring_first_of_effect hdue hacc]
  rfl

theorem tbTreat_aligns_late (hstaged : s.tb.staged = none)
    (hmode : s.tb.refMode = .track ∨ s.tb.refMode = .alignOnce) (hpos : 500 ≤ s.tb.subMicros)
    (hst : s.tb.refState = .locked) (hin : inWindow s.tb.window e = true) : ∃ reported, (tbTreat e near s).tb =
      { s.tb.rephased near with
        reported := reported, failed := 0, expected := some (s.now + 1000000), refMode := s.tb.refMode.aligned } := by
  obtain ⟨reported, hacc⟩ := tbAccept_of_aligns_late (near := near) hstaged hmode hpos hin
  refine ⟨reported, ?_⟩
  rw [tbTreat_of_locked_inside hst hin]
  change { (tbAccept e near s).1.tb with failed := 0, expected := some (s.now + 1000000) } = _
  rw [hacc]
  rfl

/-- A mark that applies a staged time. -/
theorem tbTreat_staged {sec : Nat} (hstaged : s.tb.staged = some sec) (hpos : s.tb.subMicros < 500)
    (hst : s.tb.refState = .locked) (hin : inWindow s.tb.window e = true) :
    ∃ v, v.tb = { s.tb.rephased sec with staged := none } ∧ v.bt = s.bt ∧
      Raised .time 4 0 [sec, s.tb.seconds, s.tb.millis, signed32 e]
        (s.withTb { s.tb.rephased sec with staged := none }) v ∧
      tbTreat e near s = (btTimeStepped v).withTb { v.tb with
        failed := 0, expected := some (s.now + 1000000), refMode := s.tb.refMode.aligned } := by
  obtain ⟨v, hv⟩ : ∃ v, v = tbEvent 4 [sec, s.tb.seconds, s.tb.millis, signed32 e]
    (s.withTb { s.tb.rephased sec with staged := none }) := ⟨_, rfl⟩
  have hvtb : v.tb = { s.tb.rephased sec with staged := none } := hv ▸ raise_tb ..
  have hvbt : v.bt = s.bt := hv ▸ raise_bt ..
  have hmode : v.tb.refMode = s.tb.refMode := (congrArg Tb.refMode hvtb :)
  obtain ⟨w, hw⟩ : ∃ w, w = btTimeStepped v := ⟨_, rfl⟩
  have hsteptb : w.tb = v.tb := hw ▸ btTimeStepped_tb v
  refine ⟨v, hvtb, hvbt, hv ▸ raise_raised .., ?_⟩
  rw [tbTreat_of_locked_inside hst hin, tbAccept_of_staged hstaged hpos, ← hv, ← hw, tbAlignedOnce_eq, hsteptb, hmode]
  rfl

/-! ### A missed mark (R54) -/

theorem tbDeadlinePassed_of_acquiring (hst : s.tb.refState = .acquiring) (x : Nat) :
    tbDeadlinePassed x s = s.withTb { s.tb with consecutive := 0, expected := none } := by
  unfold tbDeadlinePassed
  rw [hst]

theorem tbDeadlinePassed_of_locked (hst : s.tb.refState = .locked) (hfew : s.tb.failed < 2) (x : Nat) :
    tbDeadlinePassed x s = s.withTb { s.tb with failed := s.tb.failed + 1, expected := some (x + 1000000) } := by
  unfold tbDeadlinePassed
  rw [hst]
  exact if_neg (by omega)

theorem tbDeadlinePassed_of_third (hst : s.tb.refState = .locked) (hmany : 2 ≤ s.tb.failed) (x : Nat) :
    Raised .time 1 0 [2, 3, s.tb.refMode.num, signed32 s.tb.lastOffset]
      (s.withTb { s.tb with consecutive := 0, failed := 0, expected := none, refState := .holdover })
      (tbDeadlinePassed x s) := by
  have hpassed : tbDeadlinePassed x s =
      tbSetState .holdover (s.withTb { s.tb with consecutive := 0, failed := 0, expected := none }) := by
    unfold tbDeadlinePassed
    rw [hst]
    exact if_pos (by omega)
  have hraised := tbSetState_raised (s := s.withTb { s.tb with consecutive := 0, failed := 0, expected := none })
    (old := .locked) (new := .holdover) hst (by decide)
  rw [hpassed]
  exact hraised

end

/-! ### The row of a mark -/

/-- The time base at a mark with offset `e` at position `pos`. -/
def Tb.measured (pos : Nat) (e : Int) (t : Tb) : Tb :=
  { t with subMicros := pos, markCount := min 4294967295 (t.markCount + 1), lastOffset := e }

theorem referenceMark_arrives {s : State} {u : Nat} (hr : s.lpu.resetAsserted = false) (h : NothingDue s) (hu : u < 1000) :
    let pos := max s.tb.subMicros u
    let v := s.withTb { s.tb with subMicros := pos, markCount := min 4294967295 (s.tb.markCount + 1) }
    let e := markOffset (s.tb.millis * 1000 + pos)
    (s.tb.refMode = .off → exec (.referenceMark u) s = .next v) ∧
    (s.tb.refMode ≠ .off → exec (.referenceMark u) s =
      .next (tbReport (tbTreat e (v.tb.nearestSecond e) (s.withTb (s.tb.measured pos e))))) := by
  intro pos v e
  have htime : timeTo (max s.tb.subMicros (min 999 u)) s = s.withTb { s.tb with subMicros := pos } := by
    rw [Nat.min_eq_right (by omega), timeTo_of_idle h.1 fun x hx => ?_]
    · rw [← Nat.max_assoc, Nat.max_self]
    · have := h.2 x hx
      omega
  have hexec : exec (.referenceMark u) s = .next (tbMark (s.withTb { s.tb with subMicros := pos })) := by
    change Host.Outcome.next (if s.lpu.resetAsserted then s else tbMark (timeTo (max s.tb.subMicros (min 999 u)) s)) = _
    rw [hr, if_neg Bool.false_ne_true, htime]
  rw [hexec]
  constructor
  · intro hoff
    exact congrArg Host.Outcome.next (if_pos hoff)
  · intro hon
    exact congrArg Host.Outcome.next (if_neg hon)

/-- Settles O42. -/
theorem marksAreTreatedByState : Obligations.MarksAreTreatedByState := by
  refine ⟨fun s u hr h hu => ?_, fun s x hr hholds hx => ?_⟩
  · intro pos p e off inside near next counted measured wandered begun met missed after aligns
    obtain ⟨hoff, hon⟩ := referenceMark_arrives hr h hu
    let w := s.withTb measured
    have hin : inside ↔ inWindow w.tb.window e = true := decide_eq_true_iff.symm
    have hout : ¬inside → inWindow w.tb.window e = false := fun hn => by rw [← Bool.not_eq_true, ← hin]; exact hn
    have hmark : ∀ t, s.tb.refMode ≠ .off → tbTreat e (counted.nearestSecond e) w = t → t.tb.seconds ≤ t.tb.reported →
        exec (.referenceMark u) s = .next t := by
      rintro t hmode rfl hle
      rw [← tbReport_of_idle hle]
      exact hon hmode
    have hif : ∀ x y : Tb, (if inWindow w.tb.window e = true then x else y) = if inside then x else y := fun x y => by
      by_cases hn : inside
      · rw [if_pos hn, if_pos (hin.mp hn)]
      · rw [if_neg hn, if_neg (hn ∘ hin.mpr)]
    have hnearest : s.tb.seconds < 4294967295 → counted.nearestSecond e = near := fun hlast =>
      if_congr Iff.rfl rfl (if_pos hlast)
    have hactive : s.tb.refMode = .track ∨ s.tb.refMode = .alignOnce → s.tb.refMode ≠ .off := by
      rintro (hmode | hmode) <;> rw [hmode] <;> decide
    refine ⟨hoff, fun hmode hsec => ?outside, fun hmode hstaged hsec => ?monitor, fun halign hpos => ?aligns,
      fun halign hst hins hpos => ?late, fun sec hmode hst hins hstaged hle hpos => ?staged⟩
    case outside =>
      refine ⟨fun hst hn => ?_, fun hst hn => ?_, fun hst hdue hn => ?_⟩
      · obtain ⟨htb, hraised⟩ := tbTreat_of_locked_outside (s := w) (near := counted.nearestSecond e) hst (hout hn)
        exact ⟨_, hmark _ hmode rfl (by rw [htb]; exact hsec), hraised⟩
      · exact hmark _ hmode (tbTreat_of_holdover_outside (s := w) hst (hout hn)) hsec
      · refine hmark _ hmode ?_ hsec
        rw [tbTreat_of_acquiring (s := w) hst, tbAcquiring_later_outside (s := w) hdue (hout hn)]
        rfl
    case monitor =>
      have hne : s.tb.refMode ≠ .off := by rw [hmode]; decide
      have hacc : tbAccept e (counted.nearestSecond e) w = (w, false) := tbAccept_of_monitor hstaged hmode
      refine ⟨fun hst hins => ?_, fun hst hdue => ?_, fun hst hdue hins hfew => ?_, fun hst hdue hins hmany => ?_,
        fun hnew => ?_⟩
      · exact hmark _ hne (tbTreat_monitor_locked hacc hst (hin.mp hins)) hsec
      · have htreat := tbTreat_monitor_first hacc hst hdue
        rw [hif] at htreat
        exact hmark _ hne htreat (by split <;> exact hsec)
      · exact hmark _ hne (tbTreat_monitor_later hacc hst hdue (hin.mp hins) hfew) hsec
      · obtain ⟨hseconds, hreported, hraised⟩ := tbTreat_monitor_fourth hacc hst hdue (hin.mp hins) hmany
        rw [show w.tb.refMode = .monitor from hmode] at hraised
        exact ⟨_, hmark _ hne rfl (by rw [hseconds, hreported]; exact hsec), hraised⟩
      · obtain ⟨v, hvtb, hraised, htreat⟩ := tbTreat_monitor_new (s := w) (near := counted.nearestSecond e) hmode hstaged
          (old := s.tb.refState) rfl (hnew.imp_right (And.imp_right hin.mp))
        rw [show w.tb.refMode = .monitor from hmode] at hraised
        rw [hif] at htreat
        have hle : v.tb.seconds ≤ v.tb.reported := by rw [hvtb]; exact hsec
        exact ⟨v, hraised, hmark _ hne htreat (by split <;> exact hle)⟩
    case aligns =>
      obtain ⟨hmode, hstaged, hnear, hlast⟩ := halign
      rw [hnearest hlast] at hmark
      have hne := hactive hmode
      refine ⟨fun hst hins => ?_, fun hst hdue hins => ?_, fun hst hdue hn => ?_⟩
      · exact hmark _ hne (tbTreat_aligns_locked (s := w) hstaged hmode hpos hst (hin.mp hins)) hnear
      · exact hmark _ hne (tbTreat_aligns_first (s := w) hstaged hmode hpos hst hdue (hin.mp hins)) hnear
      · obtain ⟨v, hvtb, hraised, htreat⟩ :=
          tbTreat_aligns_far (s := w) (near := near) hstaged hmode hpos hst hdue (hout hn)
        have hle : v.tb.seconds ≤ v.tb.reported := by rw [hvtb]; exact hnear
        exact ⟨v, hraised, hmark _ hne htreat hle⟩
    case late =>
      obtain ⟨hmode, hstaged, hnear, hlast⟩ := halign
      obtain ⟨reported, htb⟩ := tbTreat_aligns_late (s := w) (near := near) hstaged hmode hpos hst (hin.mp hins)
      obtain ⟨t, ht⟩ : ∃ t, t = tbReport (tbTreat e near w) := ⟨_, rfl⟩
      have hexec : exec (.referenceMark u) s = .next t := by
        rw [ht, ← hnearest hlast]
        exact hon (hactive hmode)
      have hfinal : t.tb = _ := ht ▸ tbReport_tb (tbTreat e near w)
      rw [htb] at hfinal
      exact ⟨t, hexec, (congrArg Tb.seconds hfinal :), (congrArg Tb.millis hfinal :), (congrArg Tb.subMicros hfinal :),
        (congrArg Tb.msStart hfinal :), (congrArg Tb.failed hfinal :), (congrArg Tb.expected hfinal :),
        (congrArg Tb.refMode hfinal :), (congrArg Tb.staged hfinal :).trans hstaged⟩
    case staged =>
      obtain ⟨v, hvtb, hvbt, hraised, htreat⟩ :=
        tbTreat_staged (s := w) (near := counted.nearestSecond e) hstaged hpos hst (hin.mp hins)
      have hle' : v.tb.seconds ≤ v.tb.reported := by rw [hvtb]; exact hle
      obtain ⟨z, hz⟩ : ∃ z, z = btTimeStepped v := ⟨_, rfl⟩
      rw [← hz] at htreat
      refine ⟨_, v, hmark _ hmode htreat hle', hraised, rfl, fun i hi => ?_, ?_⟩
      · have hentry : v.entry i = s.entry i := by rw [State.entry, hvbt]; rfl
        rw [← hentry, ← btTimeStepped_entry v hi, ← hz]
        rfl
      · have honly := btTimeStepped_only v
        unfold OnlyEntries at honly
        rw [← hz, hvbt] at honly
        rw [honly]
        rfl
  · intro pos here hlt
    have htime : timeTo pos s = s.withTb here := by
      rw [timeTo_of_idle hholds fun y hy => ?_]
      · rw [← Nat.max_assoc, Nat.max_self]
      · rw [hx] at hy
        rw [← Option.some.inj hy]
    have hexec : s.tb.refState = .acquiring ∨ s.tb.refState = .locked →
        exec .markDeadline s = .next (tbDeadlinePassed x (s.withTb here)) := by
      intro hst
      have hdue : deadlineDue s = some (pos, .deadline x) := by
        unfold deadlineDue
        rw [if_pos hst, hx]
        rfl
      change Host.Outcome.next (if s.lpu.resetAsserted then s else tbMarkDeadline s) = _
      rw [hr, if_neg Bool.false_ne_true, tbMarkDeadline, hdue]
      dsimp only
      rw [if_pos hlt, htime, show (s.withTb here).tb.expected = some x from hx]
    refine ⟨fun hst => ?_, fun hst hfew => ?_, fun hst hmany => ?_⟩
    · rw [hexec (.inl hst), tbDeadlinePassed_of_acquiring (s := s.withTb here) hst]
      rfl
    · rw [hexec (.inr hst), tbDeadlinePassed_of_locked (s := s.withTb here) hst hfew]
      rfl
    · exact ⟨_, hexec (.inr hst), tbDeadlinePassed_of_third (s := s.withTb here) hst hmany x⟩

end Sys2Proof.Machine
end

section
/-! SUPPORT. Enter Run: the checks of the region map, and the blocks it sets up (O35). -/

namespace Sys2Proof.Machine

/-! ### The checks of the map -/

theorem mem_definedRegions {kind n size k i b z g : Nat} {definition : Nat → Option Region} :
    (⟨k, i, b, z, g⟩ : MapRegion) ∈ definedRegions kind n size definition ↔
      k = kind ∧ i < n ∧ z = size ∧ ∃ x, definition i = some x ∧ b = x.base.toNat ∧ g = x.agent := by
  unfold definedRegions
  rw [List.mem_filterMap]
  constructor
  · rintro ⟨j, hj, hx⟩
    obtain ⟨y, hy, heq⟩ := Option.map_eq_some_iff.mp hx
    obtain ⟨rfl, rfl, rfl, rfl, rfl⟩ := MapRegion.mk.inj heq
    exact ⟨rfl, List.mem_range.mp hj, rfl, y, hy, rfl, rfl⟩
  · rintro ⟨rfl, hi, rfl, x, hx, rfl, rfl⟩
    exact ⟨i, List.mem_range.mpr hi, by rw [hx]; rfl⟩

/-- Two regions share no address. -/
def MapRegion.Apart (x y : MapRegion) : Prop := ¬(x.base < y.base + y.size ∧ y.base < x.base + x.size)

theorem MapRegion.overlaps_iff {x y : MapRegion} : x.overlaps y = true ↔ ¬x.Apart y := by
  rw [MapRegion.overlaps, Bool.and_eq_true, decide_eq_true_iff, decide_eq_true_iff, MapRegion.Apart, not_not]

theorem firstOverlap_eq_none_iff : ∀ l : List MapRegion, firstOverlap l = none ↔ l.Pairwise MapRegion.Apart
  | [] => by simp [firstOverlap]
  | x :: xs => by
    have hhead : xs.find? (fun y => x.overlaps y) = none ↔ ∀ y ∈ xs, x.Apart y := by
      simp only [List.find?_eq_none, MapRegion.overlaps_iff, not_not]
    rw [List.pairwise_cons, ← hhead, ← firstOverlap_eq_none_iff xs]
    cases hx : xs.find? (fun y => x.overlaps y) with
    | none => simp [firstOverlap, hx]
    | some y => simp [firstOverlap, hx]

section
variable {s : State}

theorem geometryFault_of_no_depth (h : s.lpu.depth = none) : geometryFault s = some (geometry 1 []) := by
  unfold geometryFault
  rw [h]
  rfl

theorem geometryFault_code {reply : Reply} (h : geometryFault s = some reply) : reply.code = .geometry := by
  unfold geometryFault at h
  dsimp only at h
  split_ifs at h
  · rw [← Option.some.inj h]
    rfl
  · rw [← Option.some.inj h]
    rfl
  · split at h
    · rw [← Option.some.inj h]
      rfl
    · split at h
      · rw [← Option.some.inj h]
        rfl
      · obtain ⟨x, -, rfl⟩ := Option.map_eq_some_iff.mp h
        rfl

theorem geometryFault_of_empty (hd : s.lpu.depth ≠ none) (h : feedRegions s = [] ∨ windowRegions s = []) :
    (geometryFault s).map Reply.detail = some 2 := by
  unfold geometryFault
  dsimp only
  rw [if_neg (by simpa using hd), if_pos (by simpa using h)]
  rfl

/-- R22: the checks of a map with regions of both kinds. -/
theorem geometryFault_of_regions (hd : s.lpu.depth ≠ none) (hf : feedRegions s ≠ []) (hw : windowRegions s ≠ []) :
    let regions := feedRegions s ++ windowRegions s
    let aligned := ∀ x ∈ regions, x.base % regionSize s = 0
    let apart := ((⟨0, 0, s.controlBase, 1048576, 0⟩ : MapRegion) :: regions).Pairwise MapRegion.Apart
    let foreign := ∀ x ∈ regions, x.agent ≠ s.lpu.strapInit.toNat
    (¬aligned → (geometryFault s).map Reply.detail = some 3) ∧
    (aligned → ¬apart → (geometryFault s).map Reply.detail = some 4) ∧
    (aligned → apart → ¬foreign → (geometryFault s).map Reply.detail = some 5) ∧
    (aligned → apart → foreign → geometryFault s = none) := by
  intro regions aligned apart foreign
  have hne : ¬((feedRegions s).isEmpty || (windowRegions s).isEmpty) = true := by simp [hf, hw]
  have haligned : regions.find? (fun x => x.base % regionSize s != 0) = none ↔ aligned := by
    rw [List.find?_eq_none]
    refine forall₂_congr fun x _ => ?_
    rw [bne_iff_ne, not_not]
  have hapart := firstOverlap_eq_none_iff (⟨0, 0, s.controlBase, 1048576, 0⟩ :: regions)
  have hforeign : regions.find? (fun x => x.agent == s.lpu.strapInit.toNat) = none ↔ foreign := by
    rw [List.find?_eq_none]
    refine forall₂_congr fun x _ => ?_
    rw [beq_iff_eq]
  unfold geometryFault
  dsimp only
  rw [if_neg (by simpa using hd), if_neg hne]
  refine ⟨fun hn => ?_, fun ha hn => ?_, fun ha hp hn => ?_, fun ha hp hfor => ?_⟩
  · obtain ⟨x, hx⟩ := Option.ne_none_iff_exists'.mp (hn ∘ haligned.mp)
    rw [hx]
    rfl
  · obtain ⟨x, hx⟩ := Option.ne_none_iff_exists'.mp (hn ∘ hapart.mp)
    rw [haligned.mpr ha, hx]
    rfl
  · obtain ⟨x, hx⟩ := Option.ne_none_iff_exists'.mp (hn ∘ hforeign.mp)
    rw [haligned.mpr ha, hapart.mpr hp, hx]
    rfl
  · rw [haligned.mpr ha, hapart.mpr hp, hforeign.mpr hfor]
    rfl

end

/-! ### What Enter Run sets up -/

theorem get_map_some {α : Type} (x : α) (i : Nat) (l : List Nat) :
    Tbl.get none (l.map (fun i => (i, some x))) i = if i ∈ l then some x else none := by
  induction l with
  | nil => rfl
  | cons j l ih =>
    rw [List.map_cons, Tbl.get, ih]
    by_cases hj : j = i
    · simp [hj]
    · simp [hj, Ne.symm hj]

theorem get_recordsFor {α : Type} (n : Nat) (definition : Nat → Option Region) (x : α) (i : Nat) :
    Tbl.get none (recordsFor n definition x) i = if i < n ∧ definition i ≠ none then some x else none := by
  unfold recordsFor
  rw [get_map_some]
  refine if_congr ?_ rfl rfl
  rw [List.mem_filter, List.mem_range, Option.isSome_iff_ne_none]

/-- `t` is `s` with other delivery states. -/
def OnlyDeliveries (s t : State) : Prop := t = s.withDm t.dm

theorem onlyDeliveries_forAll {step : Nat → State → State} (hstep : ∀ d t, ∃ x, step d t = t.setDelivery d x) (n : Nat)
    (s : State) : OnlyDeliveries s (forAll n step s) := by
  have hstart : OnlyDeliveries s s := rfl
  refine forAll_preserves (P := OnlyDeliveries s) (fun d t ht => ?_) n hstart
  obtain ⟨x, hx⟩ := hstep d t
  unfold OnlyDeliveries at ht ⊢
  rw [hx, ht]
  rfl

/-- The state of Enter Run before the delivery states are set up. -/
def runState (s : State) : State :=
  let s1 := s.withLpu { s.lpu with mode := .run, latches := [], foreignWrites := [] }
  let s2 := s1.withFm { s1.fm with records := recordsFor 64 s1.ringDef FeedRecord.atEnterRun }
  s2.withRu { s2.ru with routes := recordsFor 48 s2.windowDef Route.atEnterRun }

theorem enterRun_only (s : State) : OnlyDeliveries (runState s) (enterRun s) :=
  onlyDeliveries_forAll (fun _ _ => ⟨_, rfl⟩) 48 (runState s)

/-- R154, Table 8-1: the delivery states after Enter Run. -/
theorem enterRun_delivery {s : State} {n : Nat} (hn : s.lpu.depth = some n) {d : Nat} (hd : d < 48) :
    let x := s.delivery d
    let lagMax := min x.lagMax (n / 2)
    (enterRun s).delivery d = { Delivery.initial with
      lag := min x.lag lagMax, lagMax := lagMax, adapt := x.adapt, holdLimit := x.holdLimit } := by
  intro x lagMax
  have hall := forAll_each (fun t i => (t.delivery i, t.lpu.depth))
    (fun _ p => ({ Delivery.initial with
      lag := min p.1.lag (min p.1.lagMax (p.2.getD 1024 / 2)), lagMax := min p.1.lagMax (p.2.getD 1024 / 2),
      adapt := p.1.adapt, holdLimit := p.1.holdLimit }, p.2))
    (g := dmEnterRun) (fun i t => Prod.ext (State.delivery_setDelivery_self ..) rfl)
    (fun i j t hne => Prod.ext (State.delivery_setDelivery_of_ne _ _ hne) rfl) 48 (runState s) d
  rw [if_pos hd, show (runState s).lpu.depth = some n from hn] at hall
  have hdelivery := congrArg Prod.fst hall
  dsimp only at hdelivery
  exact hdelivery

/-- Settles O35. -/
theorem enterRunSetsUpTheBlocks : Obligations.EnterRunSetsUpTheBlocks := by
  refine ⟨fun s => ?_, fun s n data rest h hmode => ⟨fun hnone => ?_, fun reply hreply => ?_⟩⟩
  · intro regions aligned apart foreign number
    refine ⟨fun hd => ?_, fun hd => ⟨geometryFault_of_empty hd, geometryFault_of_regions hd⟩, fun i b z g => ?_,
      fun i b z g => ?_⟩
    · simp only [number, geometryFault_of_no_depth hd]
      rfl
    · rw [List.mem_append, feedRegions, windowRegions, mem_definedRegions, mem_definedRegions]
      simp [regionSize]
    · rw [List.mem_append, feedRegions, windowRegions, mem_definedRegions, mem_definedRegions]
      simp [regionSize]
  · obtain ⟨depth, hdepth⟩ : ∃ depth, s.lpu.depth = some depth :=
      Option.ne_none_iff_exists'.mp fun hd => by simp [geometryFault_of_no_depth hd] at hnone
    have hfault : geometryFault (s.started rest) = none := hnone
    have howner : lpuRunCommand (commandParam data) (s.started rest) = (enterRun (s.started rest), ⟨.done, 0, []⟩) := by
      rw [lpuRunCommand, inConfig_of_config (s := s.started rest) hmode, hfault]
      rfl
    have honly := enterRun_only (s.started rest)
    have hdelivery := fun d (hd : d < 48) => enterRun_delivery (s := s.started rest) hdepth hd
    have hring : s.ringDepth = depth := by rw [State.ringDepth, hdepth]; rfl
    obtain ⟨u, hu⟩ : ∃ u, u = enterRun (s.started rest) := ⟨_, rfl⟩
    rw [← hu] at howner honly hdelivery
    unfold OnlyDeliveries at honly
    refine ⟨u, gives_of_owner (exec_enterRun s) h howner, (congrArg State.lpu honly :), fun f => ?_, fun d => ?_,
      fun d hd => ?_, (congrArg State.cu honly :), (congrArg State.rw honly :), (congrArg State.tb honly :),
      (congrArg State.bt honly :), (congrArg State.ga honly :), (congrArg State.mu honly :), ?_, ?_,
      (congrArg State.pending honly :)⟩
    · rw [honly]
      exact get_recordsFor 64 s.ringDef FeedRecord.atEnterRun f
    · rw [honly]
      exact get_recordsFor 48 s.windowDef Route.atEnterRun d
    · rw [hring]
      exact hdelivery d hd
    · rw [honly]
      rfl
    · rw [honly]
      rfl
  · have hfault : geometryFault (s.started rest) = some reply := hreply
    refine ⟨geometryFault_code hreply, gives_of_owner (exec_enterRun s) h ?_⟩
    rw [lpuRunCommand, inConfig_of_config (s := s.started rest) hmode, hfault]

end Sys2Proof.Machine
end

section
/-! SUPPORT. The held reads answered together, and Enter Config (O36). -/

namespace Sys2Proof.Machine

/-! ### Every held read is answered from the slate -/

/-- `t` is `s` but for its held reads, latches and what goes downstream. -/
def OnlySlated (s t : State) : Prop :=
  t = s.withLpu { s.lpu with
    holds := t.lpu.holds, latches := t.lpu.latches, forwarding := t.lpu.forwarding,
    decidedReads := t.lpu.decidedReads }

theorem OnlySlated.refl (s : State) : OnlySlated s s := rfl

theorem OnlySlated.trans {s t u : State} (h : OnlySlated s t) (g : OnlySlated t u) : OnlySlated s u := by
  unfold OnlySlated at *
  rw [h] at g
  rw [g]
  rfl

theorem OnlySlated.serving {s t : State} (h : OnlySlated s t) : t.serving = s.serving := by
  rw [h]
  rfl

theorem lpuHoldToSlate_only (d : Nat) (s : State) : OnlySlated s (lpuHoldToSlate d s) := by
  cases hh : s.hold d with
  | none =>
    rw [lpuHoldToSlate_of_no_hold hh]
    exact .refl s
  | some h =>
    have honly := (lpuHoldToSlate_of_hold hh).1
    unfold OnlyForwarded at honly
    unfold OnlySlated
    rw [honly]
    rfl

theorem foldl_lpuHoldToSlate (l : List Nat) (s : State) :
    OnlySlated s (l.foldl (fun t d => lpuHoldToSlate d t) s) ∧
    (l.foldl (fun t d => lpuHoldToSlate d t) s).lpu.holds = s.lpu.holds.filter (fun h => h.dest ∉ l) := by
  induction l generalizing s with
  | nil => exact ⟨.refl s, by simp⟩
  | cons d l ih =>
    obtain ⟨honly, hholds⟩ := ih (lpuHoldToSlate d s)
    refine ⟨(lpuHoldToSlate_only d s).trans honly, ?_⟩
    rw [List.foldl_cons, hholds, lpuHoldToSlate_holds, List.filter_filter]
    refine List.filter_congr fun h _ => ?_
    rw [Bool.and_comm]
    simp

theorem lpuAllHoldsToSlate_only (s : State) : OnlySlated s (lpuAllHoldsToSlate s) := (foldl_lpuHoldToSlate ..).1

theorem lpuAllHoldsToSlate_holds (s : State) : (lpuAllHoldsToSlate s).lpu.holds = [] := by
  unfold lpuAllHoldsToSlate
  rw [(foldl_lpuHoldToSlate ..).2, List.filter_eq_nil_iff]
  intro h hh
  simp only [decide_not, Bool.not_eq_true', decide_eq_false_iff_not, not_not]
  exact List.mem_map_of_mem hh

/-- The reads go downstream in the order of the hold list (log entry 17). -/
theorem lpuAllHoldsToSlate_downstream {s : State} (h : (s.lpu.holds.map HoldEntry.dest).Nodup) :
    (lpuAllHoldsToSlate s).downstream =
      s.downstream ++ s.lpu.holds.flatMap (fun h => h.reads.map (s.serving .slate h.dest)) := by
  have hall : ∀ (hs : List HoldEntry) (t : State), t.lpu.holds = hs → (hs.map HoldEntry.dest).Nodup →
      ((hs.map HoldEntry.dest).foldl (fun t d => lpuHoldToSlate d t) t).downstream =
        t.downstream ++ hs.flatMap (fun h => h.reads.map (t.serving .slate h.dest)) := by
    intro hs
    induction hs with
    | nil => intro t _ _; exact (List.append_nil _).symm
    | cons x xs ih =>
      intro t ht hnodup
      rw [List.map_cons, List.nodup_cons] at hnodup
      have hhold : t.hold x.dest = some x := by
        rw [State.hold, ht, List.find?_cons, beq_self_eq_true]
      have hrest : (lpuHoldToSlate x.dest t).lpu.holds = xs := by
        rw [lpuHoldToSlate_holds, ht, List.filter_cons_of_neg (by simp), List.filter_eq_self]
        intro y hy
        have hne : y.dest ≠ x.dest := fun heq => hnodup.1 (heq ▸ List.mem_map_of_mem hy)
        simpa using hne
      rw [List.map_cons, List.foldl_cons, ih _ hrest hnodup.2, (lpuHoldToSlate_only ..).serving,
        (lpuHoldToSlate_of_hold hhold).2, List.append_assoc]
      rfl
  exact hall s.lpu.holds s rfl h

/-- The held reads of `s`, each with its destination. -/
def State.heldReads (s : State) : List (Nat × Request) :=
  s.lpu.holds.flatMap (fun h => h.reads.map (fun r => (h.dest, r)))

/-- R3, R24, R45: the answers to the held reads. -/
theorem lpuAllHoldsToSlate_sends {s : State} (hbounds : s.inBounds = true)
    (hw : ∀ h ∈ s.lpu.holds, s.windowDef h.dest ≠ none) : ∃ sent,
    List.Forall₂ (fun x y => s.Sends .slate x.1 x.2 y) s.heldReads sent ∧
    (lpuAllHoldsToSlate s).downstream = s.downstream ++ sent := by
  have hnodup : (s.lpu.holds.map HoldEntry.dest).Nodup := by
    simp only [State.inBounds, Bool.and_eq_true, decide_eq_true_eq] at hbounds
    exact hbounds.1.2
  refine ⟨_, ?_, lpuAllHoldsToSlate_downstream hnodup⟩
  have hmap : s.lpu.holds.flatMap (fun h => h.reads.map (s.serving .slate h.dest)) =
      s.heldReads.map (fun x => s.serving .slate x.1 x.2) := by
    rw [State.heldReads, List.map_flatMap]
    simp only [List.map_map]
    rfl
  rw [hmap, List.forall₂_map_right_iff]
  refine List.forall₂_same.mpr fun x hx => ?_
  obtain ⟨h, hh, hr⟩ := List.mem_flatMap.mp hx
  obtain ⟨r, -, rfl⟩ := List.mem_map.mp hr
  obtain ⟨w, hwindow⟩ := Option.ne_none_iff_exists'.mp (hw h hh)
  exact s.serving_sends hwindow (fun _ _ hring => by cases hring) _

/-! ### Enter Config -/

theorem entriesInUse_eq_zero_iff {s : State} : entriesInUse s = 0 ↔ ∀ e < 128, (s.entry e).state = .empty := by
  unfold entriesInUse
  rw [List.length_eq_zero_iff, List.filter_eq_nil_iff]
  simp only [List.mem_range, bne_iff_ne, not_not]

/-- Settles O36. -/
theorem enterConfigClearsTheRun : Obligations.EnterConfigClearsTheRun := by
  intro s n data rest h
  have hgives := fun {u r} => gives_of_owner (u := u) (r := r) (exec_enterConfig s) h
  refine ⟨fun hmode => hgives ?_, fun hmode => hgives ?_, fun hmode huse => hgives ?_,
    fun hmode hempty hbounds hwindows => ?_⟩
  · rw [lpuConfigCommand, show (s.started rest).lpu.mode = .restarting from hmode]
    rfl
  · rw [lpuConfigCommand, show (s.started rest).lpu.mode = .config from hmode]
    rfl
  · obtain ⟨e, he, hstate⟩ := huse
    have huse : entriesInUse (s.started rest) ≠ 0 := fun hzero => hstate (entriesInUse_eq_zero_iff.mp hzero e he)
    rw [lpuConfigCommand, show (s.started rest).lpu.mode = .run from hmode]
    dsimp only
    rw [if_pos (bne_iff_ne.mpr huse)]
    rfl
  · have huse : entriesInUse (s.started rest) = 0 := entriesInUse_eq_zero_iff.mpr hempty
    have howner : lpuConfigCommand (commandParam data) (s.started rest) =
        (enterConfig (s.started rest), ⟨.done, 0, []⟩) := by
      rw [lpuConfigCommand, show (s.started rest).lpu.mode = .run from hmode]
      dsimp only
      rw [huse]
      rfl
    obtain ⟨sent, hsends, hdown⟩ := lpuAllHoldsToSlate_sends (s := s.started rest) hbounds hwindows
    have honly := lpuAllHoldsToSlate_only (s.started rest)
    have hholds := lpuAllHoldsToSlate_holds (s.started rest)
    unfold enterConfig at howner
    obtain ⟨v, hv⟩ : ∃ v, v = lpuAllHoldsToSlate (s.started rest) := ⟨_, rfl⟩
    rw [← hv] at howner hdown honly hholds
    unfold OnlySlated at honly
    refine ⟨_, sent, hgives howner, rfl, rfl, hholds, hsends, hdown, rfl, rfl, ?_⟩
    rw [honly]
    exact ⟨rfl, rfl, rfl, rfl, rfl, rfl, rfl, rfl, rfl, rfl, rfl, rfl, rfl, rfl, rfl, rfl⟩

end Sys2Proof.Machine
end

section
/-! SUPPORT. Restart: what its closings leave, and their end (O39). -/

namespace Sys2Proof.Machine

/-! ### Outside RUN, with no read held -/

/-- `t` is `s` but for the ring writer and the own requests, the bookings, the grants, the routes and the deliveries. -/
def OnlyClosing (s t : State) : Prop :=
  t = { s with
    lpu := { s.lpu with ownQueue := t.lpu.ownQueue, nextTag := t.lpu.nextTag }, rw := t.rw, bt := t.bt, ga := t.ga,
    ru := { s.ru with routes := t.ru.routes }, dm := t.dm }

namespace OnlyClosing

variable {s t u : State}

theorem refl (s : State) : OnlyClosing s s := rfl

theorem trans (h : OnlyClosing s t) (g : OnlyClosing t u) : OnlyClosing s u := by
  unfold OnlyClosing at *
  rw [h] at g
  rw [g]

theorem of_onlyBilling (h : OnlyBilling s t) : OnlyClosing s t := by
  unfold OnlyBilling at h
  unfold OnlyClosing
  rw [h]

theorem raise (h : OnlyClosing s t) (cls : EventClass) (kind subject : Nat) (words : List Nat) :
    OnlyClosing s (raise cls kind subject words t) := h.trans (of_onlyBilling ((OnlyBilling.refl t).raise ..))

theorem modRoute (h : OnlyClosing s t) (d : Nat) (g : Route → Route) : OnlyClosing s (modRoute d g t) := by
  refine h.trans ?_
  unfold Machine.modRoute
  split <;> rfl

end OnlyClosing

/-- Outside RUN, with no read held and no take pending. -/
structure Quiet (s : State) : Prop where
  mode : s.lpu.mode ≠ .run
  holds : s.lpu.holds = []
  takes : ∀ d < 48, ∀ rt, s.route d = some rt → rt.take = none

namespace Quiet

variable {s t : State}

theorem of_onlyClosing (h : Quiet s) (hs : OnlyClosing s t) (hr : ∀ d < 48, ∀ rt, t.route d = some rt → rt.take = none) :
    Quiet t where
  mode := (congrArg (fun v : State => v.lpu.mode) hs).trans_ne h.mode
  holds := (congrArg (fun v : State => v.lpu.holds) hs).trans h.holds
  takes := hr

theorem of_routes (h : Quiet s) (hs : OnlyClosing s t) (hr : t.ru = s.ru) : Quiet t :=
  h.of_onlyClosing hs fun d hd rt hrt => h.takes d hd rt (by rw [← hrt, State.route, State.route, hr])

theorem modRoute (h : Quiet s) (d : Nat) {g : Route → Route} (hg : ∀ rt, rt.take = none → (g rt).take = none) :
    Quiet (modRoute d g s) := by
  refine h.of_onlyClosing ((OnlyClosing.refl s).modRoute ..) fun i hi rt hrt => ?_
  by_cases hid : i = d
  · rw [hid, modRoute_route_self] at hrt
    obtain ⟨x, hx, rfl⟩ := Option.map_eq_some_iff.mp hrt
    exact hg x (h.takes d (hid ▸ hi) x hx)
  · rw [modRoute_route_of_ne hid] at hrt
    exact h.takes i hi rt hrt

theorem hold (h : Quiet s) (d : Nat) : s.hold d = none := by
  rw [State.hold, h.holds]
  rfl

end Quiet

/-- The booking counts, the GA and the routes apart, nothing of a vacated destination is left to do. -/
theorem gaNotice_quiet {s : State} (h : Quiet s) (d : Nat) (reason : TakeReason) :
    OnlyClosing s (gaNotice d none reason s) ∧ Quiet (gaNotice d none reason s) := by
  rw [gaNotice_of_vacated, lpuHoldToSlate_of_no_hold (h.hold d)]
  have hcancel : OnlyClosing s (ruCancelTake d none s) ∧ Quiet (ruCancelTake d none s) := by
    unfold ruCancelTake
    split
    · exact ⟨.refl s, h⟩
    · have hmod : OnlyClosing s (modRoute d (fun r => { r with take := none }) s) := (OnlyClosing.refl s).modRoute ..
      have hquiet : Quiet (modRoute d (fun r => { r with take := none }) s) := h.modRoute d fun _ _ => rfl
      exact ⟨hmod.raise .., hquiet.of_routes ((OnlyClosing.refl _).raise ..) (raise_ru ..)⟩
  obtain ⟨honly, hquiet⟩ := hcancel
  have hnew : OnlyClosing s (ruNewHolder d (ruCancelTake d none s)) := honly.modRoute ..
  have hnewQuiet : Quiet (ruNewHolder d (ruCancelTake d none s)) := hquiet.modRoute d fun _ ht => ht
  rw [dmClearImpairment_eq]
  generalize ruNewHolder d (ruCancelTake d none s) = v at hnew hnewQuiet
  have hdelivery (x : Delivery) : OnlyClosing v (v.setDelivery d x) := rfl
  exact ⟨hnew.trans (hdelivery _), hnewQuiet.of_routes (hdelivery _) rfl⟩

theorem btLeaveGa_quiet {s : State} (h : Quiet s) (e : Nat) (old : BookingState) :
    OnlyClosing s (btLeaveGa e old s) ∧ Quiet (btLeaveGa e old s) ∧ (btLeaveGa e old s).bt = s.bt := by
  unfold btLeaveGa
  split
  · rw [gaRelease_of_none (.inl h.mode)]
    let d := (s.entry e).desc.dest
    let v := raise .grant 5 d [255, e, (s.entry e).desc.ref, (s.grantQueue d).length] (s.setHolder d none)
    have hv : OnlyClosing s v := (show OnlyClosing s (s.setHolder d none) from rfl).raise ..
    obtain ⟨honly, hquiet⟩ := gaNotice_quiet (h.of_routes hv (raise_ru ..)) d .start
    exact ⟨hv.trans honly, hquiet, (gaNotice_bt ..).trans (raise_bt ..)⟩
  · split
    · exact ⟨rfl, h.of_routes rfl rfl, rfl⟩
    · exact ⟨.refl s, h, rfl⟩

/-! ### One closing of Restart -/

theorem btLeaveClosing_entry_of_not_run {s : State} (h : s.lpu.mode ≠ .run) (e : Nat) :
    (btLeaveClosing e s).entry e = .blank := by
  unfold btLeaveClosing
  dsimp only
  rw [if_neg]
  · rw [btStateEvent, raise_entry, State.entry_setEntry_self]
  · rw [btStateEvent, raise_lpu_mode]
    simpa using fun _ => h

/-- Outside RUN an entry whose record has found a place is EMPTY. -/
theorem rwPlaceFinal_entry_of_not_run {s : State} (h : s.lpu.mode ≠ .run) (e : Nat) (r : BillRecord) :
    (rwPlaceFinal e r s).entry e = .blank ∨ (rwPlaceFinal e r s).entry e = { s.entry e with record := some r } := by
  have hmode {t : State} (ht : OnlyBilling s t) : t.lpu.mode ≠ .run := ht.mode.trans_ne h
  have hentry (x : Option BillRecord) : OnlyBilling s (modEntry e (fun y => { y with record := x }) s) :=
    (OnlyBilling.refl s).setEntry e _
  unfold rwPlaceFinal
  dsimp only
  split_ifs
  · exact .inl (btLeaveClosing_entry_of_not_run (hmode ((hentry none).rwAccept ..)) e)
  · exact .inl (btLeaveClosing_entry_of_not_run (hmode (((hentry none).withRw _).raise ..)) e)
  · exact .inr (by rw [rwBillingEvent, raise_entry, entry_modEntry_self])

/-- The outcome `u` of the closing of entry `e`, which was the booking `x` at second `nt`, by Restart. -/
structure RestartClosed (e nt : Nat) (x : Entry) (u : State) : Prop where
  state : (u.entry e).state = .empty ∨
    (u.entry e).state = .closing ∧ (u.entry e).reason = .restart ∧ (u.entry e).record ≠ none
  record : ∃ r : BillRecord, r.reason = .restart ∧ r.kind = (if x.hasLive then .close else .cancel) ∧
    r.ref = x.desc.ref ∧ r.account = x.desc.account ∧ r.meters = x.meters ∧ r.takes = x.takes ∧ r.slips = x.slips ∧
    r.closeNT = nt ∧ (RecordOut r u ∨ (u.entry e).record = some r)

theorem btClose_quiet {s : State} (h : Quiet s) (e : Nat) :
    OnlyClosing s (btClose e .restart s) ∧ Quiet (btClose e .restart s) ∧
    (btClose e .restart s).bt.closeCount = min max64 (s.bt.closeCount + 1) ∧
    (∀ i, i ≠ e → (btClose e .restart s).entry i = s.entry i) ∧
    RestartClosed e s.tb.seconds (s.entry e) (btClose e .restart s) := by
  let v := closingState e .restart s
  have hv : OnlyClosing s v := rfl
  obtain ⟨hleft, hquiet, hbt⟩ := btLeaveGa_quiet (h.of_routes hv rfl) e (s.entry e).state
  obtain ⟨w, hw⟩ : ∃ w, w = recordState e .restart s := ⟨_, rfl⟩
  have hwv : OnlyClosing v w := hw ▸ hleft
  have hwquiet : Quiet w := hw ▸ hquiet
  have hwbt : w.bt = v.bt := hw ▸ hbt
  have hwe : w.entry e = (s.entry e).closing .restart (satAdd max64 s.bt.closeCount 1) := by
    rw [State.entry, hwbt]
    exact closingState_entry_self ..
  have hwtb : w.tb = s.tb := (congrArg State.tb (hv.trans hwv) :)
  let x := (s.entry e).closing .restart (satAdd max64 s.bt.closeCount 1)
  let r := muFinal w x
  let z := btStateEvent e r.ref (s.entry e).state .closing CloseReason.restart.num w
  have hclose : btClose e .restart s = rwPlaceFinal e r z := by
    rw [btClose_eq, closingRecord, ← hw, hwe]
  have hz : OnlyClosing w z := (OnlyClosing.refl w).raise ..
  have hzquiet : Quiet z := hwquiet.of_routes hz (raise_ru ..)
  have hplace : OnlyBilling z (rwPlaceFinal e r z) := (OnlyBilling.refl z).rwPlaceFinal e r
  obtain ⟨hkind, hreason, href, haccount, -, -, hmeters, htakes, hslips, -, -, -, -, hnt⟩ := muFinal_fields w x
  rw [hclose]
  refine ⟨((hv.trans hwv).trans hz).trans (.of_onlyBilling hplace),
    hzquiet.of_routes (.of_onlyBilling hplace) hplace.ru, ?_, fun i hi => ?_, ?_, r, hreason, hkind, href, haccount,
    hmeters, htakes, hslips, hnt.trans (by rw [hwtb]), rwPlaceFinal_out ..⟩
  · have hzbt : z.bt = w.bt := raise_bt ..
    rw [hplace.closeCount, hzbt, hwbt]
    rfl
  · have hzi : z.entry i = w.entry i := raise_entry ..
    rw [rwPlaceFinal_entry_of_ne hi, hzi, State.entry, hwbt]
    exact closingState_entry_of_ne hi .restart s
  · refine (rwPlaceFinal_entry_of_not_run hzquiet.mode e r).imp (fun hblank => by rw [hblank]; rfl) fun hself => ?_
    have hze : z.entry e = x := (raise_entry ..).trans hwe
    rw [hself, hze]
    exact ⟨rfl, rfl, Option.some_ne_none _⟩

/-! ### All closings of Restart -/

theorem RestartClosed.mono {e nt : Nat} {x : Entry} {s t : State} (h : RestartClosed e nt x s)
    (he : t.entry e = s.entry e) (hout : ∀ r, RecordOut r s → RecordOut r t) : RestartClosed e nt x t where
  state := by
    rw [he]
    exact h.state
  record := by
    obtain ⟨r, hreason, hkind, href, haccount, hmeters, htakes, hslips, hnt, hr⟩ := h.record
    exact ⟨r, hreason, hkind, href, haccount, hmeters, htakes, hslips, hnt, hr.imp (hout r) fun hrec => he ▸ hrec⟩

theorem restartCloses {l : List Nat} (hl : l.Nodup) {s : State} (h : Quiet s) :
    let u := l.foldl (fun t e => btClose e .restart t) s
    OnlyClosing s u ∧ Quiet u ∧
    u.bt.closeCount = (if l.length = 0 then s.bt.closeCount else min max64 (s.bt.closeCount + l.length)) ∧
    (∀ i, i ∉ l → u.entry i = s.entry i) ∧ ∀ e ∈ l, RestartClosed e s.tb.seconds (s.entry e) u := by
  induction l generalizing s with
  | nil => exact ⟨.refl s, h, rfl, fun _ _ => rfl, fun e he => nomatch he⟩
  | cons e l ih =>
    obtain ⟨he, hl⟩ := List.nodup_cons.mp hl
    obtain ⟨honly1, hquiet1, hcount1, hother1, hclosed1⟩ := btClose_quiet h e
    have hrest := ih hl hquiet1
    rw [List.foldl_cons]
    obtain ⟨v, hv⟩ : ∃ v, v = btClose e .restart s := ⟨_, rfl⟩
    rw [← hv] at honly1 hquiet1 hcount1 hother1 hclosed1 hrest ⊢
    obtain ⟨honly, hquiet, hcount, hother, hclosed⟩ := hrest
    have htb : v.tb = s.tb := (congrArg State.tb honly1 :)
    refine ⟨honly1.trans honly, hquiet, ?_, fun i hi => ?_, fun i hi => ?_⟩
    · rw [hcount, hcount1, List.length_cons, if_neg (Nat.succ_ne_zero _)]
      split
      next hzero => rw [hzero]
      · omega
    · rw [hother i fun hm => hi (List.mem_cons_of_mem _ hm), hother1 i fun heq => hi (heq ▸ List.mem_cons_self)]
    · obtain rfl | hi := List.mem_cons.mp hi
      · refine hclosed1.mono (hother i he) fun r hr => ?_
        exact List.foldlRecOn (motive := RecordOut r) _ _ hr fun t ht _ _ =>
          (recordOut_loose r).placing.booking.closeAny ht
      · have hne : i ≠ e := fun heq => he (heq ▸ hi)
        rw [← htb, ← hother1 i hne]
        exact hclosed i hi

/-! ### The state in which Restart closes -/

/-- R45: no read is held, no take is pending, and no fetch goes on. -/
def restartState (s : State) : State :=
  let v := restartTakes (lpuAllHoldsToSlate (s.withLpu { s.lpu with mode := .restarting }))
  (fetchingEntries v).foldl (fun t e => t.setEntry e .blank) v

theorem foldl_blank (l : List Nat) (s : State) :
    let u := l.foldl (fun t e => t.setEntry e .blank) s
    u = s.withBt { s.bt with entries := u.bt.entries } ∧
      ∀ e, u.entry e = if e ∈ l then .blank else s.entry e := by
  induction l generalizing s with
  | nil => exact ⟨rfl, fun _ => rfl⟩
  | cons d l ih =>
    obtain ⟨honly, hentry⟩ := ih (s.setEntry d .blank)
    rw [List.foldl_cons]
    generalize l.foldl (fun t e => t.setEntry e .blank) (s.setEntry d .blank) = u at honly hentry ⊢
    refine ⟨honly, fun e => ?_⟩
    rw [hentry]
    by_cases he : e ∈ l
    · rw [if_pos he, if_pos (List.mem_cons_of_mem _ he)]
    · rw [if_neg he]
      by_cases hd : e = d
      · rw [hd, State.entry_setEntry_self, if_pos List.mem_cons_self]
      · rw [State.entry_setEntry_of_ne _ _ hd, if_neg (by simp [hd, he])]

/-- `t` is `s` with other route records. -/
def OnlyRoutes (s t : State) : Prop := t = s.withRu { s.ru with routes := t.ru.routes }

theorem OnlyRoutes.modRoute {s t : State} (h : OnlyRoutes s t) (d : Nat) (g : Route → Route) :
    OnlyRoutes s (modRoute d g t) := by
  unfold Machine.modRoute
  split
  · exact h
  · unfold OnlyRoutes at h ⊢
    rw [h]
    rfl

theorem restartTakes_spec (s : State) : OnlyRoutes s (restartTakes s) ∧
    ∀ d < 48, ∀ rt, (restartTakes s).route d = some rt → rt.take = none := by
  have hroute := fun d => forAll_each State.route (fun _ x => x.map (fun r => { r with take := none }))
    (g := fun d => modRoute d (fun r => { r with take := none })) (fun _ _ => modRoute_route_self ..)
    (fun _ _ _ hne => modRoute_route_of_ne hne ..) 48 s d
  have hstart : OnlyRoutes s s := rfl
  refine ⟨forAll_preserves (P := OnlyRoutes s) (fun d t ht => ht.modRoute ..) 48 hstart, fun d hd rt hrt => ?_⟩
  · have hroute := hroute d
    rw [if_pos hd] at hroute
    rw [restartTakes, hroute] at hrt
    obtain ⟨x, -, rfl⟩ := Option.map_eq_some_iff.mp hrt
    rfl

theorem restartState_spec (s : State) :
    (restartState s).lpu = { s.lpu with
      mode := .restarting, holds := [], latches := (restartState s).lpu.latches,
      forwarding := (restartState s).lpu.forwarding, decidedReads := (restartState s).lpu.decidedReads } ∧
    (restartState s).downstream = (lpuAllHoldsToSlate (s.withLpu { s.lpu with mode := .restarting })).downstream ∧
    restartState s = { s with lpu := (restartState s).lpu, ru := (restartState s).ru, bt := (restartState s).bt } ∧
    (restartState s).bt.closeCount = s.bt.closeCount ∧
    (∀ e < 128, (restartState s).entry e = if (s.entry e).state = .fetching then .blank else s.entry e) ∧
    fetchingEntries (restartTakes (lpuAllHoldsToSlate (s.withLpu { s.lpu with mode := .restarting }))) =
      (List.range 128).filter (fun e => (s.entry e).state == .fetching) ∧
    Quiet (restartState s) := by
  let v := s.withLpu { s.lpu with mode := .restarting }
  have hslate := lpuAllHoldsToSlate_only v
  have hholds := lpuAllHoldsToSlate_holds v
  obtain ⟨htakes, hnone⟩ := restartTakes_spec (lpuAllHoldsToSlate v)
  obtain ⟨hblank, hentry⟩ := foldl_blank (fetchingEntries (restartTakes (lpuAllHoldsToSlate v)))
    (restartTakes (lpuAllHoldsToSlate v))
  have hstate : restartState s = (fetchingEntries (restartTakes (lpuAllHoldsToSlate v))).foldl
    (fun t e => t.setEntry e .blank) (restartTakes (lpuAllHoldsToSlate v)) := rfl
  rw [← hstate] at hblank hentry
  generalize restartState s = u at hblank hentry ⊢
  have hv : s.withLpu { s.lpu with mode := .restarting } = v := rfl
  rw [hv]
  generalize restartTakes (lpuAllHoldsToSlate v) = w at hblank hentry htakes hnone ⊢
  generalize lpuAllHoldsToSlate v = x at hslate hholds htakes ⊢
  unfold OnlySlated at hslate
  unfold OnlyRoutes at htakes
  have hlpu : u.lpu = x.lpu := by
    rw [hblank, htakes]
    rfl
  have hxlpu : x.lpu = _ := (congrArg State.lpu hslate :)
  rw [hholds] at hxlpu
  have hwentry : ∀ e, w.entry e = s.entry e := fun e => by
    rw [htakes, hslate]
    rfl
  have hfetching : ∀ e < 128, e ∈ fetchingEntries w ↔ (s.entry e).state = .fetching := fun e he => by
    rw [fetchingEntries, List.mem_filter, List.mem_range, hwentry, beq_iff_eq]
    exact and_iff_right he
  refine ⟨?_, ?_, ?_, ?_, fun e he => ?_, List.filter_congr fun e _ => by rw [hwentry], ?_, ?_, fun d hd rt hrt => ?_⟩
  · rw [hlpu]
    exact hxlpu
  · rw [State.downstream, State.downstream, hlpu]
  · rw [hblank, htakes, hslate]
    rfl
  · rw [hblank, htakes, hslate]
    rfl
  · rw [hentry e, hwentry e]
    exact if_congr (hfetching e he) rfl rfl
  · rw [hlpu, hxlpu]
    exact fun hmode => nomatch hmode
  · rw [hlpu, hholds]
  · rw [hblank] at hrt
    exact hnone d hd rt hrt

theorem restartCommand_eq (p : Nat → Nat) (s : State) : cuRestartCommand p s =
    ((openEntries (restartState s)).foldl (fun t e => btClose e .restart t) (restartState s),
      .inr (.restarting (openEntries (restartState s)).length
        (fetchingEntries (restartTakes (lpuAllHoldsToSlate (s.withLpu { s.lpu with mode := .restarting })))).length)) :=
  rfl

theorem BookingState.empty_or_closing {st : BookingState} (hopen : st.isOpen = false) (hfetch : st ≠ .fetching) :
    st = .empty ∨ st = .closing := by
  revert hopen hfetch
  cases st <;> decide

/-- R46, Table 8-1: what the end of Restart clears. -/
theorem restartClear_spec (s : State) :
    restartClear s = { s with
      lpu := { s.lpu with mode := .config, latches := [] }, fm := { s.fm with records := [] },
      ru := { s.ru with routes := [] }, ga := .afterReset, dm := (restartClear s).dm } ∧
    ∀ d < 48, (restartClear s).delivery d = { Delivery.initial with
      lag := (s.delivery d).lag, lagMax := (s.delivery d).lagMax, adapt := (s.delivery d).adapt,
      holdLimit := (s.delivery d).holdLimit } := by
  let v := ((s.withFm { s.fm with records := [] }).withRu { s.ru with routes := [] }).withGa .afterReset
  have honly : OnlyDeliveries v (forAll 48 dmEndRestart v) := onlyDeliveries_forAll (fun _ _ => ⟨_, rfl⟩) 48 v
  have hdelivery := forAll_each State.delivery (fun _ x => { Delivery.initial with
    lag := x.lag, lagMax := x.lagMax, adapt := x.adapt, holdLimit := x.holdLimit }) (g := dmEndRestart)
    (fun _ _ => State.delivery_setDelivery_self ..) (fun _ _ _ hne => State.delivery_setDelivery_of_ne _ _ hne) 48 v
  have hclear : restartClear s = (forAll 48 dmEndRestart v).withLpu
    { (forAll 48 dmEndRestart v).lpu with mode := .config, latches := [] } := rfl
  generalize forAll 48 dmEndRestart v = w at honly hdelivery hclear
  generalize restartClear s = u at hclear ⊢
  unfold OnlyDeliveries at honly
  refine ⟨?_, fun d hd => ?_⟩
  · rw [hclear, honly]
    rfl
  · have hd' := hdelivery d
    rw [if_pos hd] at hd'
    rw [hclear]
    exact hd'

/-- The end of Restart (R46). -/
theorem restartFinish_of_closing {s : State} {n : Nat} {data : List Byte} {closed abandoned : Nat}
    (hexec : s.cu.executing = some ⟨n, data, .restarting closed abandoned⟩) :
    ((∃ e < 128, (s.entry e).state = .closing) → restartFinish s = s) ∧
    ((∀ e < 128, (s.entry e).state ≠ .closing) →
      restartFinish s = cuFinish n data ⟨.done, 0, [closed, abandoned]⟩ (restartClear s)) := by
  have hany : (List.range 128).any (fun e => (s.entry e).state == .closing) = true ↔
      ∃ e < 128, (s.entry e).state = .closing := by
    simp [List.any_eq_true]
  unfold restartFinish
  rw [hexec]
  dsimp only
  refine ⟨fun hwait => if_pos (hany.mpr hwait), fun hnone => if_neg fun hsome => ?_⟩
  obtain ⟨e, he, hst⟩ := hany.mp hsome
  exact hnone e he hst

/-- Settles O39. -/
theorem restartClosesEveryBooking : Obligations.RestartClosesEveryBooking := by
  refine ⟨?_, ?_⟩
  · intro s n data rest h closed
    obtain ⟨hlpu, hdown, honly, hcount, hentry, hfetching, hquiet⟩ := restartState_spec (s.started rest)
    have howner := restartCommand_eq (commandParam data) (s.started rest)
    have hopen : openEntries (restartState (s.started rest)) = openEntries s := by
      refine List.filter_congr fun e he => ?_
      rw [hentry e (List.mem_range.mp he)]
      split
      next hst =>
        rw [show (s.entry e).state = .fetching from hst]
        rfl
      · rfl
    have hnodup : (openEntries s).Nodup := List.nodup_range.filter _
    have hclosings := restartCloses hnodup hquiet
    have hsends := fun hbounds hwindows => lpuAllHoldsToSlate_sends
      (s := (s.started rest).withLpu { (s.started rest).lpu with mode := .restarting }) hbounds hwindows
    rw [← hdown] at hsends
    rw [hfetching, hopen] at howner
    generalize restartState (s.started rest) = v at *
    obtain ⟨u, hu⟩ : ∃ u, u = (openEntries s).foldl (fun t e => btClose e .restart t) v := ⟨_, rfl⟩
    dsimp only at hclosings
    rw [← hu] at howner hclosings
    obtain ⟨hclosing, huquiet, hucount, hother, hclosed⟩ := hclosings
    have hmem : ∀ e < 128, e ∈ openEntries s ↔ (s.entry e).state.isOpen = true := fun e he => by
      rw [openEntries, List.mem_filter, List.mem_range]
      exact and_iff_right he
    have hkept : ∀ e < 128, (s.entry e).state.isOpen = false →
        u.entry e = if (s.entry e).state = .fetching then .blank else s.entry e := fun e he hst => by
      rw [hother e fun hin => by rw [(hmem e he).mp hin] at hst; cases hst]
      exact hentry e he
    have hvtb : v.tb = s.tb := (congrArg State.tb honly :)
    have hopened : ∀ e < 128, (s.entry e).state.isOpen = true → RestartClosed e s.tb.seconds (s.entry e) u := by
      intro e he hst
      have hrestart := hclosed e ((hmem e he).mpr hst)
      have hne : (s.entry e).state ≠ .fetching := fun heq => by rw [heq] at hst; cases hst
      rw [hvtb, hentry e he, show (State.started rest s).entry e = s.entry e from rfl, if_neg hne] at hrestart
      exact hrestart
    have hulpu : u.lpu = { v.lpu with ownQueue := u.lpu.ownQueue, nextTag := u.lpu.nextTag } :=
      (congrArg State.lpu hclosing :)
    rw [hlpu] at hulpu
    have hfm : u.fm = s.fm := (congrArg State.fm hclosing :).trans (congrArg State.fm honly :)
    have htb : u.tb = s.tb := (congrArg State.tb hclosing :).trans hvtb
    have hmu : u.mu = s.mu := (congrArg State.mu hclosing :).trans (congrArg State.mu honly :)
    have hcu : u.cu = (s.started rest).cu := (congrArg State.cu hclosing :).trans (congrArg State.cu honly :)
    have hrun := runLongCommand_of_job h howner
    refine ⟨_, (exec_restart s).trans (congrArg Host.Outcome.next hrun), ?_, huquiet.holds, fun hbounds hwindows => ?_,
      huquiet.takes, fun e he => ?_, fun e he hst => ?_, fun e he hst => ?_, fun e he hst => ⟨fun hend => ?_, ?_⟩, ?_, rfl,
      ?_, ?_, ?_, hfm, htb, hmu⟩
    · change u.lpu.mode = .restarting
      rw [hulpu]
    · obtain ⟨sent, hsent, hdownstream⟩ := hsends hbounds hwindows
      refine ⟨sent, hsent, ?_⟩
      change u.lpu.forwarding ++ u.lpu.decidedReads = _
      rw [hulpu]
      exact hdownstream
    · change (u.entry e).state = .empty ∨ (u.entry e).state = .closing
      by_cases hst : (s.entry e).state.isOpen = true
      · exact (hopened e he hst).state.imp_right And.left
      · rw [hkept e he (Bool.not_eq_true _ ▸ hst)]
        split
        · exact .inl rfl
        next hfetch => exact BookingState.empty_or_closing (Bool.not_eq_true _ ▸ hst) hfetch
    · change (u.entry e).state = .empty
      rw [hkept e he (by rw [hst]; rfl), if_pos hst]
      rfl
    · change u.entry e = s.entry e
      rw [hkept e he (by rw [hst]; rfl), if_neg (by rw [hst]; decide)]
    · have hstate := (hopened e he hst).state.resolve_left fun hempty => by
        have hend' : (u.entry e).state = .closing := hend
        rw [hempty] at hend'
        cases hend'
      exact hstate.2
    · obtain ⟨r, hreason, hkind, href, haccount, hmeters, htakes, hslips, hnt, hr⟩ := (hopened e he hst).record
      exact ⟨r, hreason, hkind, href, haccount, hmeters, htakes, hslips, hnt, or_assoc.mp hr⟩
    · exact hucount.trans (by rw [hcount]; rfl)
    · change u.cu.queue = rest
      rw [hcu]
      rfl
    · change u.lpu.rings = s.lpu.rings
      rw [hulpu]
      rfl
    · change u.lpu.windows = s.lpu.windows
      rw [hulpu]
      rfl
  · intro s n data closed abandoned hexec
    obtain ⟨hwaits, hends⟩ := restartFinish_of_closing hexec
    refine ⟨fun hwait => congrArg Host.Outcome.next (hwaits hwait), fun hnone => ?_⟩
    obtain ⟨honly, hdelivery⟩ := restartClear_spec s
    refine ⟨restartClear s, ⟨_, congrArg Host.Outcome.next (hends hnone), cuFinish_answered ..⟩, ?_⟩
    generalize restartClear s = u at honly hdelivery ⊢
    refine ⟨(congrArg State.lpu honly :), (congrArg State.fm honly :), (congrArg State.ru honly :), fun d => ?_, hdelivery,
      (congrArg State.cu honly :), (congrArg State.rw honly :), (congrArg State.tb honly :),
      (congrArg State.bt honly :), (congrArg State.mu honly :)⟩
    rw [honly]
    exact ⟨rfl, rfl⟩

end Sys2Proof.Machine
end

section
/-! SUPPORT. The slot starts: how a start is served, and a start that shows the slate (O23). -/

namespace Sys2Proof.Machine

/-! ### A slot start -/

/-- `v` has the link part of `s` but for the latches and the own requests. -/
def SameLink (s v : State) : Prop :=
  v.lpu = { s.lpu with latches := v.lpu.latches, ownQueue := v.lpu.ownQueue, nextTag := v.lpu.nextTag }

namespace SameLink

variable {s t u : State}

theorem refl (s : State) : SameLink s s := rfl

theorem trans (h : SameLink s t) (g : SameLink t u) : SameLink s u := by
  unfold SameLink at *
  rw [h] at g
  exact g

theorem of_lpu_eq (h : t.lpu = s.lpu) : SameLink s t := by
  unfold SameLink
  rw [h]

theorem setLatch (h : SameLink s t) (d : Nat) (l : Option Latch) : SameLink s (t.setLatch d l) :=
  h.trans (show SameLink t (t.setLatch d l) from rfl)

theorem of_onlyClosing (h : OnlyClosing s t) : SameLink s t := by
  have hlpu : t.lpu = { s.lpu with ownQueue := t.lpu.ownQueue, nextTag := t.lpu.nextTag } := (congrArg State.lpu h :)
  unfold SameLink
  rw [hlpu]

theorem raise (h : SameLink s t) (cls : EventClass) (kind subject : Nat) (words : List Nat) :
    SameLink s (raise cls kind subject words t) := h.trans (.of_onlyClosing ((OnlyClosing.refl t).raise ..))

end SameLink

namespace ReaderAt

variable {s v : State} {d slot o : Nat} {r : Request}

/-- R16: a read served where the link part is as it was. -/
theorem lpuServe_of_sameLink (h : ReaderAt s d slot o r) (hv : SameLink s v) {x : Served} {a : Addr}
    (ha : RemappedTo s x o a) : lpuServe d r x v = v.servedAt d slot a r := by
  have hwindow : v.windowDef = s.windowDef := by
    funext i
    unfold State.windowDef
    rw [hv]
  have hring : v.ringDef = s.ringDef := by
    funext i
    unfold State.ringDef
    rw [hv]
  have hbase : v.controlBase = s.controlBase := by
    unfold State.controlBase
    rw [hv]
  have hacc : lpuAccepts v = true := by
    rw [← h.1]
    unfold lpuAccepts
    rw [hv]
  have hslot : windowSlot v d r = slot := by
    rw [← h.windowSlot_eq, windowSlot, windowSlot, hwindow]
  have hoffset : windowOffset v d r = o := by
    rw [← h.windowOffset_eq, windowOffset, windowOffset, hwindow]
  have haddr : remapped v x o = a := by
    rw [← remapped_of_remappedTo ha]
    unfold remapped
    rw [hring, hbase]
  rw [lpuServe, hslot, hoffset, haddr, lpuForward_of_accepts hacc]
  rfl

/-- R17: a read in the header of a slot that the latch has not decided is a slot start. -/
theorem exec_slotStart (h : ReaderAt s d slot o r) (ho : o < 64) (hl : ∀ x, s.latch d ≠ some ⟨slot, .decided x⟩) :
    exec (.windowRead r) s = .next (lpuSlotStart d r s).1 := by
  have hnot : latchDecided s d slot = false := by
    unfold latchDecided
    split
    next k x hx =>
      rw [beq_eq_false_iff_ne]
      rintro rfl
      exact hl x hx
    · rfl
  rw [exec_windowRead, h.lpuReceive_eq, lpuReadWindow, h.windowSlot_eq, h.windowOffset_eq, hnot, decide_eq_true ho]
  rfl

/-- R155: a slot start that is decided to be served. -/
theorem exec_of_serve (h : ReaderAt s d slot o r) (ho : o < 64) (hl : ∀ x, s.latch d ≠ some ⟨slot, .decided x⟩)
    {x : Served} (hdec : ruDecide d slot s = (v, .serve x)) :
    exec (.windowRead r) s = .next (lpuServe d r x (v.setLatch d (some ⟨slot, .decided x⟩))) := by
  rw [h.exec_slotStart ho hl, lpuSlotStart, h.windowSlot_eq, hdec]

theorem exec_of_serve_at (h : ReaderAt s d slot o r) (ho : o < 64) (hl : ∀ x, s.latch d ≠ some ⟨slot, .decided x⟩)
    {x : Served} (hdec : ruDecide d slot s = (v, .serve x)) (hv : SameLink s v) {a : Addr} (ha : RemappedTo s x o a) :
    exec (.windowRead r) s = .next ((v.setLatch d (some ⟨slot, .decided x⟩)).servedAt d slot a r) := by
  rw [h.exec_of_serve ho hl hdec, h.lpuServe_of_sameLink (hv.setLatch ..) ha]

end ReaderAt

/-! ### A start that shows the slate -/

section
variable {s : State} {d : Nat} {rt : Route}

/-- R155, steps 1 and 2. -/
theorem ruDecide_toSlate (hrt : s.route d = some rt)
    (h : s.lpu.mode = .restarting ∨ s.holder d = none ∨ rt.change = some .toSlate) (slot : Nat) :
    ruDecide d slot s = (ruToSlate d s, .serve .slate) := by
  unfold ruDecide
  rw [hrt]
  dsimp only
  rw [if_pos]
  obtain h | h | h := h <;> simp [h]

theorem ruRevertHolds_of_slate (s : State) (d : Nat) (h : rt.source = .slate) : ruRevertHolds s d rt = false := by
  unfold ruRevertHolds
  split
  · rfl
  · simp [h]

theorem ruRevertCheck_of_fails (hrt : s.route d = some rt) (h : ruRevertHolds s d rt = false) :
    ruRevertCheck d s = s.setRoute d (some { rt with revert := 0 }) := by
  rw [ruRevertCheck, modRoute_of_route hrt, h]
  rfl

theorem dmCondition_of_slate {e : Nat} (hh : s.holder d = some e) (hrt : s.route d = some rt)
    (h : rt.source = .slate) : dmCondition s d = .outage := by
  simp [dmCondition, holderEntry_of_holder hh, hrt, h]

/-- The route that shows the slate, before its revert count is looked at. -/
def Route.onSlate (r : Route) : Route := { r with source := .slate, change := none, freeze := none }

/-- What remains of a start that shows the slate after its restore test has made the route `x`. -/
theorem ruToSlate_of_restore {v : State} {x : Route} (hrt : s.route d = some rt)
    (hrestore : ruRestore d (s.setRoute d (some rt.onSlate)) = v.setRoute d (some x)) (hx : x.source = .slate) :
    ruToSlate d s = (v.setRoute d (some { x with revert := 0 })).setDelivery d
      { v.delivery d with condition := dmCondition (v.setRoute d (some { x with revert := 0 })) d } := by
  rw [ruToSlate, modRoute_of_route hrt]
  change dmReclass d (ruRevertCheck d (ruRestore d (s.setRoute d (some rt.onSlate)))) = _
  rw [hrestore, ruRevertCheck_of_fails (State.route_setRoute_self ..) (ruRevertHolds_of_slate _ d hx), setRoute_setRoute]
  rfl

/-- R147: no take is restored. -/
theorem ruRestore_of_idle (h : s.holder d = none ∨ s.lpu.mode ≠ .run ∨ rt.take ≠ none) (hrt : s.route d = some rt) :
    ruRestore d s = s := by
  unfold ruRestore
  split
  next e r hh hr =>
    rw [hrt] at hr
    obtain rfl := Option.some.inj hr
    rw [if_neg]
    obtain h | h | h := h
    · rw [holderEntry_of_no_holder h] at hh
      cases hh
    · simp [h]
    · simp [h]
  · rfl

theorem ruRestore_of_unusable {e : Nat} (hh : s.holder d = some e) (hrt : s.route d = some rt)
    (hw : ∀ w, rt.wanted = some w → s.usable w = false) (hback : s.usable (s.entry e).selected = false) :
    ruRestore d s = s := by
  have hnone : rt.wanted.filter s.usable = none := by
    rw [Option.filter_eq_none_iff]
    intro w hwanted husable
    rw [hw w hwanted] at husable
    cases husable
  unfold ruRestore
  rw [holderEntry_of_holder hh, hrt]
  dsimp only
  split
  · rw [hnone]
    dsimp only
    rw [if_neg (by simp [hback])]
  · rfl

/-- R147: a take is restored, to the wanted feed or else to the selected one. -/
theorem ruRestore_of_usable {e g : Nat} (hh : s.holder d = some e) (hrt : s.route d = some rt)
    (hmode : s.lpu.mode = .run) (htake : rt.take = none) (hdown : ruSourceDown s rt = true)
    (hg : rt.wanted = some g ∨ (∀ w, rt.wanted = some w → s.usable w = false) ∧ g = (s.entry e).selected)
    (husable : s.usable g = true) : ruRestore d s = ruRequestTake d g .restore s := by
  unfold ruRestore
  rw [holderEntry_of_holder hh, hrt]
  dsimp only
  rw [if_pos (by simp [hmode, htake, hdown])]
  obtain hg | ⟨hnone, rfl⟩ := hg
  · rw [hg, Option.filter_some, if_pos husable]
  · have hfilter : rt.wanted.filter s.usable = none := by
      rw [Option.filter_eq_none_iff]
      intro w hwanted hu
      rw [hnone w hwanted] at hu
      cases hu
    rw [hfilter]
    exact if_pos husable

end

/-- Settles O23. -/
theorem slotStartGoesToSlate : Obligations.SlotStartGoesToSlate := by
  intro s d slot o r rt a h ho hl hrt ha slate shown
  let u := s.setRoute d (some rt.onSlate)
  have huroute : u.route d = some rt.onSlate := State.route_setRoute_self ..
  have hstart : ∀ {v : State} {x : Route}, (s.lpu.mode = .restarting ∨ s.holder d = none ∨ rt.change = some .toSlate) →
      ruRestore d u = v.setRoute d (some x) → x.source = .slate → SameLink s v → v.delivery d = s.delivery d →
      exec (.windowRead r) s = .next (shown (v.setRoute d (some { x with revert := 0 }))
        (dmCondition (v.setRoute d (some { x with revert := 0 })) d)) := by
    intro v x hwhy hrestore hx hv hdelivery
    have hdec := ruDecide_toSlate hrt hwhy slot
    rw [ruToSlate_of_restore hrt hrestore hx, hdelivery] at hdec
    exact h.exec_of_serve_at ho hl hdec (hv.trans (.of_lpu_eq rfl)) ha
  have hidle : ∀ {c : Condition}, (s.lpu.mode = .restarting ∨ s.holder d = none ∨ rt.change = some .toSlate) →
      ruRestore d u = u → dmCondition (s.setRoute d (some slate)) d = c →
      exec (.windowRead r) s = .next (shown (s.setRoute d (some slate)) c) := by
    intro c hwhy hrestore hc
    rw [← hc]
    exact hstart (v := s) (x := rt.onSlate) hwhy hrestore rfl (.refl s) rfl
  refine ⟨fun hnone => ?_, fun e hholder => ?_⟩
  · exact hidle (.inr (.inl hnone)) (ruRestore_of_idle (.inl hnone) huroute) (dmCondition_of_no_holder hnone)
  have hout : ∀ (v : State) (x : Route), v.holder d = some e → x.source = .slate →
      dmCondition (v.setRoute d (some x)) d = .outage := fun v x hv hx =>
    dmCondition_of_slate (s := v.setRoute d (some x)) hv (State.route_setRoute_self ..) hx
  refine ⟨fun hmode => ?_, fun tk hchange htake => ?_, fun hmode hchange htake => ?_⟩
  · exact hidle (.inl hmode) (ruRestore_of_idle (.inr (.inl (by change s.lpu.mode ≠ _; rw [hmode]; decide))) huroute)
      (hout s slate hholder rfl)
  · refine hidle (.inr (.inr hchange)) (ruRestore_of_idle (.inr (.inr ?_)) huroute) (hout s slate hholder rfl)
    change rt.take ≠ none
    rw [htake]
    exact Option.some_ne_none _
  · intro back
    refine ⟨fun hwanted hback => ?_, fun g p hg husable hp => ?_⟩
    · exact hidle (.inr (.inr hchange)) (ruRestore_of_unusable (s := u) hholder huroute hwanted hback)
        (hout s slate hholder rfl)
    · intro restored
      have hrestore : ruRestore d u = ruRequestTake d g .restore u :=
        ruRestore_of_usable (s := u) hholder huroute hmode htake rfl hg husable
      let tk : Take := ⟨g, .restore, .ready, some p, false, 0⟩
      have hrequested : u.requested d g .restore = tk := requested_of_found (s := u) husable hp .restore
      let x : Route := { rt.onSlate with take := some tk }
      let v := raise .take 1 d [g, 7, 4, 255] s
      have hrequest : ruRequestTake d g .restore u = v.setRoute d (some x) := by
        rw [ruRequestTake_of_run (s := u) hmode huroute, hrequested, show rt.onSlate.take = none from htake, raise_setRoute,
          setRoute_setRoute]
        rfl
      refine ⟨raise .take 1 d [g, 7, 4, 255] (s.setRoute d (some x)), raise_raised .., ?_⟩
      rw [raise_setRoute, setRoute_setRoute]
      have hshown := hstart (v := v) (x := x) (.inr (.inr hchange)) (hrestore.trans hrequest) rfl
        ((SameLink.refl s).raise ..) (raise_delivery ..)
      rw [hout v { x with revert := 0 } ((raise_holder ..).trans hholder) rfl] at hshown
      exact hshown

end Sys2Proof.Machine
end

section
/-! SUPPORT. The decision of a slot start (R155, steps 3 to 6) and its slips: O24. -/

namespace Sys2Proof.Machine

/-! ### The feed of a route -/

section
variable {s : State} {f : Nat} {x : FeedRecord}

theorem available_iff (hx : s.feedRec f = some x) (q : Nat) : s.available f q = true ↔
    1 ≤ x.complete ∧ modSub s.ringDepth x.lastSlot q ≤ min (x.complete - 1) (s.ringDepth - 2) := by
  simp [State.available, hx]

theorem usable_iff (hx : s.feedRec f = some x) : s.usable f = true ↔ x.health = .healthy ∨ x.health = .degraded := by
  rw [State.usable, hx]
  cases h : x.health <;> simp [Health.usable, h]

theorem lastSlot_of_feedRec (hx : s.feedRec f = some x) : s.lastSlot f = x.lastSlot := by
  rw [State.lastSlot, hx]

end

/-! ### The decision -/

section
variable {s v : State} {d f slot e : Nat} {rt : Route}

theorem ruTryTake_of_not_ready (hrt : s.route d = some rt) (h : ∀ tk, rt.take = some tk → tk.state ≠ .ready)
    (slot : Nat) : ruTryTake d slot s = (s, none) := by
  unfold ruTryTake
  rw [hrt]
  dsimp only
  cases htake : rt.take with
  | none => rfl
  | some tk =>
    dsimp only
    split
    next hready _ => exact absurd hready (h tk htake)
    · rfl

/-- R155, steps 1 and 2, do not act: the start is decided by the take and, without one, by the current source. -/
theorem ruDecide_of_run (hrt : s.route d = some rt) (hh : s.holder d = some e) (hmode : s.lpu.mode = .run)
    (hc : rt.change ≠ some .toSlate) {x : Option Served} (h : ruTryTake d slot s = (v, x)) :
    ruDecide d slot s = x.elim (ruServeCurrent d slot v) (fun y => (v, .serve y)) := by
  unfold ruDecide
  rw [hrt]
  dsimp only
  rw [if_neg (by simp [hh, hmode, hc]), h]
  cases x <;> rfl

theorem ruServeCurrent_of_slate (hrt : s.route d = some rt) (h : rt.source = .slate) (slot : Nat) :
    ruServeCurrent d slot s = (s, .serve .slate) := by
  simp [ruServeCurrent, hrt, h]

theorem ruServeCurrent_of_feed (hrt : s.route d = some rt) (h : rt.source = .feed f) (slot : Nat) :
    ruServeCurrent d slot s = ruByAvailability d slot f (ruApplyLag d slot f s) := by
  simp [ruServeCurrent, hrt, h]

theorem ruApplyLag_of_idle (hrt : s.route d = some rt) (h : rt.change = none) (slot f : Nat) : ruApplyLag d slot f s = s := by
  simp [ruApplyLag, hrt, h]

/-- R155, step 6, on the slot that the phase of the route points to. -/
theorem ruByAvailability_of_route (hrt : s.route d = some rt) (slot f : Nat) :
    ruByAvailability d slot f s =
      let q := (slot + rt.phase) % s.ringDepth
      let dist := modSub s.ringDepth (s.lastSlot f) q
      if s.available f q then
        if dist + 4 ≤ s.ringDepth then (s, .serve (.ring f q))
        else ((ruDropSlip d slot f dist s).1, .serve (ruDropSlip d slot f dist s).2)
      else if s.usable f then (s, .hold f q)
      else ((ruFreezeRepeat d f q s).1, .serve (ruFreezeRepeat d f q s).2) := by
  unfold ruByAvailability
  rw [hrt]
  rfl

end

/-! ### A start that raises an event -/

/-- `t` is `u` after an event has been raised and the slot start `r` of `d`, at offset `o` of `slot`, has been served from `x`;
`s` is the state in which the start came. -/
structure StartRaised (s u : State) (cls : EventClass) (kind : Nat) (words : List Nat) (d slot o : Nat) (r : Request)
    (x : Served) (t : State) : Prop where
  raised : Raised cls kind d words u (t.withLpu { t.lpu with latches := s.lpu.latches, forwarding := s.lpu.forwarding })
  latch : t.latch d = some ⟨slot, .decided x⟩
  route : t.route d = u.route d
  delivery : t.delivery d = u.delivery d
  bt : t.bt = u.bt
  fm : t.fm = u.fm
  ga : t.ga = u.ga
  sends : ∀ a, RemappedTo s x o a → t.lpu.forwarding = s.lpu.forwarding ++ [⟨{ r with addr := a }, .window d slot⟩]

namespace ReaderAt

variable {s u : State} {d slot o : Nat} {r : Request}

theorem startRaised (h : ReaderAt s d slot o r) (hu : u.lpu = s.lpu) (cls : EventClass) (kind : Nat) (words : List Nat)
    (x : Served) : StartRaised s u cls kind words d slot o r x
      (lpuServe d r x ((raise cls kind d words u).setLatch d (some ⟨slot, .decided x⟩))) := by
  obtain ⟨v, hv⟩ : ∃ v, v = raise cls kind d words u := ⟨_, rfl⟩
  have hraised : Raised cls kind d words u v := hv ▸ raise_raised ..
  have hlink : SameLink s v := hv ▸ (SameLink.of_lpu_eq hu).raise ..
  have hlatches : v.lpu.latches = s.lpu.latches := by rw [hv, raise_lpu_latches, hu]
  have hroute : v.route d = u.route d := by rw [hv, raise_route]
  have hdelivery : v.delivery d = u.delivery d := by rw [hv, raise_delivery]
  have hbt : v.bt = u.bt := by rw [hv, raise_bt]
  have hfm : v.fm = u.fm := by rw [hv, raise_fm]
  have hga : v.ga = u.ga := by rw [hv, raise_ga]
  rw [← hv]
  clear hv
  obtain ⟨w, hw⟩ : ∃ w, w = v.setLatch d (some ⟨slot, .decided x⟩) := ⟨_, rfl⟩
  have hlinkw : SameLink s w := hw ▸ hlink.setLatch ..
  have hlatch : w.latch d = some ⟨slot, .decided x⟩ := hw ▸ State.latch_setLatch_self ..
  have hacc : lpuAccepts w = true := by
    rw [← h.1]
    unfold lpuAccepts
    rw [hlinkw]
  have hforwarding : w.lpu.forwarding = s.lpu.forwarding := by rw [hlinkw]
  have hundone : w.withLpu { w.lpu with latches := s.lpu.latches, forwarding := s.lpu.forwarding } = v := by
    rw [← hforwarding, ← hlatches, hw]
    rfl
  rw [← hw]
  obtain ⟨y, hy⟩ : ∃ y, lpuServe d r x w = w.withForward y := ⟨_, lpuForward_of_accepts hacc _⟩
  refine ⟨?_, ?_, ?_, ?_, ?_, ?_, ?_, fun a ha => ?_⟩
  · rw [← hundone] at hraised
    rw [hy]
    exact hraised
  · rw [hy]
    exact hlatch
  · rw [hy, ← hroute, hw]
    rfl
  · rw [hy, ← hdelivery, hw]
    rfl
  · rw [hy, ← hbt, hw]
    rfl
  · rw [hy, ← hfm, hw]
    rfl
  · rw [hy, ← hga, hw]
    rfl
  · rw [h.lpuServe_of_sameLink hlinkw ha]
    change w.lpu.forwarding ++ _ = _
    rw [hforwarding]

/-- R155: a slot start that raises an event and is decided to be served. -/
theorem exec_startRaised (h : ReaderAt s d slot o r) (ho : o < 64) (hl : ∀ x, s.latch d ≠ some ⟨slot, .decided x⟩)
    {cls : EventClass} {kind : Nat} {words : List Nat} {x : Served}
    (hdec : ruDecide d slot s = (raise cls kind d words u, .serve x)) (hu : u.lpu = s.lpu) :
    ∃ t, exec (.windowRead r) s = .next t ∧ StartRaised s u cls kind words d slot o r x t :=
  ⟨_, h.exec_of_serve ho hl hdec, h.startRaised hu cls kind words x⟩

/-- R158: a slot start that is held. -/
theorem exec_of_hold (h : ReaderAt s d slot o r) (ho : o < 64) (hl : ∀ x, s.latch d ≠ some ⟨slot, .decided x⟩) {f q : Nat}
    (hdec : ruDecide d slot s = (s, .hold f q)) (hroom : s.lpu.holds.length < 8) :
    exec (.windowRead r) s = .next (lpuHold d f q slot r (s.setLatch d (some ⟨slot, .pending⟩))) := by
  rw [h.exec_slotStart ho hl, lpuSlotStart, h.windowSlot_eq, hdec]
  dsimp only
  rw [if_pos hroom]

/-- R158, R162: a start that would be held while the hold list is full. -/
theorem exec_of_full (h : ReaderAt s d slot o r) (ho : o < 64) (hl : ∀ x, s.latch d ≠ some ⟨slot, .decided x⟩) {f q : Nat}
    (hdec : ruDecide d slot s = (s, .hold f q)) (hfull : 8 ≤ s.lpu.holds.length) {x : Served}
    (hslip : ruRepeatSlip d slot f q 1 s = (u, x)) :
    exec (.windowRead r) s = .next (lpuServe d r x (u.setLatch d (some ⟨slot, .decided x⟩))) := by
  rw [h.exec_slotStart ho hl, lpuSlotStart, h.windowSlot_eq, hdec]
  dsimp only
  rw [if_neg (Nat.not_lt.2 hfull), hslip]

end ReaderAt

/-! ### Slips -/

section
variable {s : State} {d e : Nat} {rt : Route}

theorem modDelivery_eq (d : Nat) (g : Delivery → Delivery) (s : State) :
    modDelivery d g s = s.setDelivery d (g (s.delivery d)) := rfl

/-- R163, steps 3 and 4: the slip counted at the holder, and the impairment hold started; `y` is the delivery state with the slip
counted in it. -/
theorem slip_delivery {u : State} (y : Delivery) (hu : u = dmImpair d (btCountSlip d (s.setDelivery d y))) :
    u.delivery d = { y with
      impairment := max y.impairment (s.destParams d).impairmentHold
      condition := (u.delivery d).condition } := by
  subst hu
  rw [dmImpair_delivery_self]
  simp

theorem slip_entry (hh : s.holder d = some e) (y : Delivery) :
    ((dmImpair d (btCountSlip d (s.setDelivery d y))).entry e).slips = min 65535 ((s.entry e).slips + 1) := by
  have hholder : (s.setDelivery d y).holder d = some e := hh
  rw [dmImpair_entry, btCountSlip, hholder]
  dsimp only
  rw [modEntry, State.entry_setEntry_self]
  rfl

theorem slip_lpu (s : State) (d : Nat) (y : Delivery) : (dmImpair d (btCountSlip d (s.setDelivery d y))).lpu = s.lpu := by
  have hcount : (btCountSlip d (s.setDelivery d y)).lpu = s.lpu := by
    unfold btCountSlip
    split
    · rfl
    · rfl
  exact hcount

theorem previousSlot_slotNum (s : State) (f q : Nat) : (previousSlot s f q).slotNum =
    if s.available f (modSub s.ringDepth q 1) then modSub s.ringDepth q 1 else 65536 := by
  unfold previousSlot
  dsimp only
  split <;> rfl

theorem ruPhaseBack_of_route (hrt : s.route d = some rt) :
    ruPhaseBack d s = s.setRoute d (some { rt with phase := modSub s.ringDepth rt.phase 1 }) := modRoute_of_route hrt _

/-- R162, R163: a repeat slip of `d`. -/
theorem ruRepeatSlip_spec (hrt : s.route d = some rt) (hh : s.holder d = some e) (slot f q cause : Nat) :
    ∃ u, ruRepeatSlip d slot f q cause s = (raise .slip 1 d [slot,
        if s.available f (modSub s.ringDepth q 1) then modSub s.ringDepth q 1 else 65536,
        min 4294967295 ((s.delivery d).repeatSlips + 1), cause] u, previousSlot s f q) ∧
      u.lpu = s.lpu ∧ u.ru = (s.setRoute d (some { rt with phase := modSub s.ringDepth rt.phase 1 })).ru ∧
      u.delivery d = { s.delivery d with
        repeatSlips := min 4294967295 ((s.delivery d).repeatSlips + 1)
        periodRepeats := min 4294967295 ((s.delivery d).periodRepeats + 1)
        impairment := max (s.delivery d).impairment (s.destParams d).impairmentHold
        condition := (u.delivery d).condition } ∧
      (u.entry e).slips = min 65535 ((s.entry e).slips + 1) ∧ u.fm = s.fm ∧ u.ga = s.ga := by
  let back := s.setRoute d (some { rt with phase := modSub s.ringDepth rt.phase 1 })
  let y : Delivery := { s.delivery d with
    repeatSlips := min 4294967295 ((s.delivery d).repeatSlips + 1)
    periodRepeats := min 4294967295 ((s.delivery d).periodRepeats + 1) }
  obtain ⟨u, hu⟩ : ∃ u, u = dmImpair d (btCountSlip d (back.setDelivery d y)) := ⟨_, rfl⟩
  have hdelivery := slip_delivery y hu
  have hslip : ruRepeatSlip d slot f q cause s = (raise .slip 1 d [slot, (previousSlot s f q).slotNum,
      (u.delivery d).repeatSlips, cause] u, previousSlot s f q) := by
    unfold ruRepeatSlip
    rw [ruPhaseBack_of_route hrt, hu]
    rfl
  have hcount : (u.delivery d).repeatSlips = y.repeatSlips := (congrArg Delivery.repeatSlips hdelivery :)
  refine ⟨u, ?_, ?_, ?_, hdelivery, ?_, ?_, ?_⟩
  · rw [hslip, hcount, previousSlot_slotNum]
  · rw [hu]
    exact slip_lpu back d y
  · simp [hu, back]
  · rw [hu]
    exact slip_entry (s := back) hh y
  · simp [hu, back]
  · simp [hu, back]

end

/-! ### O24 -/

/-- R17: a later read of a held destination joins its entry. -/
theorem exec_windowRead_of_held {s : State} {d : Nat} {x : Region} {h : HoldEntry} {before after : List HoldEntry}
    {r : Request} (hacc : lpuAccepts s = true) (hclass : classify s r.addr.toNat = .window d) (hkind : r.kind = .read)
    (hx : s.windowDef d = some x) (hagent : x.agent = r.initiator.toNat) (hholds : s.lpu.holds = before ++ h :: after)
    (hd : h.dest = d) (hothers : ∀ y ∈ before ++ after, y.dest ≠ d) :
    exec (.windowRead r) s = .next (s.withLpu { s.lpu with
      holds := before ++ { h with reads := h.reads ++ [r] } :: after }) := by
  have hjoin : ∀ l : List HoldEntry, (∀ y ∈ l, y.dest ≠ d) →
      l.map (fun y => if y.dest = d then { y with reads := y.reads ++ [r] } else y) = l := fun l hl =>
    (List.map_congr_left fun y hy => if_neg (hl y hy)).trans (List.map_id' l)
  have hheld : ∃ k, s.hold d = some k := by
    rw [← Option.isSome_iff_exists]
    unfold State.hold
    rw [List.find?_isSome]
    exact ⟨h, by rw [hholds]; exact List.mem_append_right _ List.mem_cons_self, by simp [hd]⟩
  obtain ⟨k, hk⟩ := hheld
  have hwindow : lpuWindow d r s = holdJoin d [r] s := by
    simp [lpuWindow, hkind, hx, hagent, hk]
  rw [exec_windowRead, lpuReceive_of_accepts hacc, lpuTreat_of_window hclass, hwindow, holdJoin, hholds, List.map_append,
    List.map_cons, if_pos hd, hjoin before fun y hy => hothers y (List.mem_append_left _ hy),
    hjoin after fun y hy => hothers y (List.mem_append_right _ hy)]

/-- Settles O24: the start is decided by the availability of the slot that the phase points to. -/
theorem slotStartIsServedOrHeld : Obligations.SlotStartIsServedOrHeld := by
  refine ⟨?_, ?_, ?_⟩
  · intro s d slot o r rt f x e h ho hl hmode hrt hh hsource hchange htake hx n q dist free usable before shown back y
    have havail : s.available f q = true ↔ free := available_iff hx q
    have husable : s.usable f = true ↔ usable := usable_iff hx
    have hdec := ruDecide_of_run hrt hh hmode (by simp [hchange])
      (ruTryTake_of_not_ready hrt htake slot)
    rw [Option.elim_none, ruServeCurrent_of_feed hrt hsource, ruApplyLag_of_idle hrt hchange, ruByAvailability_of_route hrt,
      lastSlot_of_feedRec hx] at hdec
    change ruDecide d slot s = if s.available f q = true then
      if dist + 4 ≤ n then _ else _ else if s.usable f = true then _ else _ at hdec
    refine ⟨fun a hfree hnear ha => ?_, fun hfree huse hroom => ?_, fun a hfree huse ha => ?_, fun hfree huse hfull => ?_⟩
    · rw [if_pos (havail.2 hfree), if_pos hnear] at hdec
      exact h.exec_of_serve_at ho hl hdec (.refl s) ha
    · rw [if_neg (mt havail.1 hfree), if_pos (husable.2 huse)] at hdec
      exact h.exec_of_hold ho hl hdec hroom
    · rw [if_neg (mt havail.1 hfree), if_neg (mt husable.1 huse), ruFreezeRepeat, ruPhaseBack_of_route hrt] at hdec
      exact h.exec_of_serve_at ho hl hdec (.of_lpu_eq rfl) ha
    · rw [if_neg (mt havail.1 hfree), if_pos (husable.2 huse)] at hdec
      obtain ⟨u, hslip, hlpu, hru, hdelivery, hentry, hfm, hga⟩ := ruRepeatSlip_spec hrt hh slot f q 1
      have hstart := h.startRaised hlpu .slip 1 [slot,
        if s.available f (modSub s.ringDepth q 1) then modSub s.ringDepth q 1 else 65536,
        min 4294967295 ((s.delivery d).repeatSlips + 1), 1] (previousSlot s f q)
      have hroute : u.route d = some back := by
        unfold State.route
        rw [hru]
        exact State.route_setRoute_self ..
      refine ⟨_, u, h.exec_of_full ho hl hdec hfull hslip, hlpu, hstart.raised, hstart.latch, hstart.route.trans hroute,
        ?_, ?_, ?_, ?_, hstart.fm.trans hfm, hstart.ga.trans hga, hstart.sends⟩
      · rw [hstart.delivery, hdelivery]
      · rw [hstart.delivery, hdelivery]
      · rw [hstart.delivery, hdelivery]
      · rw [State.entry, hstart.bt]
        exact hentry
  · intro s d slot o r rt e a h ho hl hmode hrt hh hsource hchange htake ha
    have hdec := ruDecide_of_run hrt hh hmode hchange (ruTryTake_of_not_ready hrt htake slot)
    rw [Option.elim_none, ruServeCurrent_of_slate hrt hsource] at hdec
    exact h.exec_of_serve_at ho hl hdec (.refl s) ha
  · intro s d x h before after r hacc hclass hkind hx hagent hholds hd hothers
    exact exec_windowRead_of_held hacc hclass hkind hx hagent hholds hd hothers

end Sys2Proof.Machine
end

section
/-! SUPPORT. The slot starts that apply a take or a lag adjustment, and the drop slip: O25 and O26. -/

namespace Sys2Proof.Machine

section
variable {s : State} {d f slot e : Nat} {rt : Route}

theorem StartRaised.entry {s u t : State} {cls : EventClass} {kind : Nat} {words : List Nat} {d slot o : Nat} {r : Request}
    {x : Served} (h : StartRaised s u cls kind words d slot o r x t) (e : Nat) : t.entry e = u.entry e := by
  rw [State.entry, h.bt]
  rfl

/-! ### The drop slip -/

theorem ruRoughSlot_of_feedRec {x : FeedRecord} (hx : s.feedRec f = some x) (d : Nat) :
    ruRoughSlot s d f = modSub s.ringDepth x.lastSlot (s.delivery d).lag := by
  rw [ruRoughSlot, lastSlot_of_feedRec hx]

theorem ruPhaseToLag_of_route (hrt : s.route d = some rt) (f slot : Nat) : ruPhaseToLag d f slot s =
    s.setRoute d (some { rt with phase := modSub s.ringDepth (ruRoughSlot s d f) slot }) := modRoute_of_route hrt _

/-- R156, R163: a drop slip of `d` that skips `skipped` units, after the phase has been set. -/
theorem dmDropSlip_spec (hh : s.holder d = some e) (slot served skipped : Nat) :
    ∃ u, dmDropSlip d slot served skipped s = raise .slip 2 d [slot, served, skipped,
        min 4294967295 ((s.delivery d).dropSlips + 1)] u ∧
      u.lpu = s.lpu ∧ u.ru = s.ru ∧
      u.delivery d = { s.delivery d with
        dropSlips := min 4294967295 ((s.delivery d).dropSlips + 1)
        unitsSkipped := min 4294967295 ((s.delivery d).unitsSkipped + skipped)
        impairment := max (s.delivery d).impairment (s.destParams d).impairmentHold
        condition := (u.delivery d).condition } ∧
      (u.entry e).slips = min 65535 ((s.entry e).slips + 1) ∧ u.fm = s.fm ∧ u.ga = s.ga := by
  let y : Delivery := { s.delivery d with
    dropSlips := min 4294967295 ((s.delivery d).dropSlips + 1)
    unitsSkipped := min 4294967295 ((s.delivery d).unitsSkipped + skipped) }
  obtain ⟨u, hu⟩ : ∃ u, u = dmImpair d (btCountSlip d (s.setDelivery d y)) := ⟨_, rfl⟩
  have hdelivery := slip_delivery y hu
  have hslip : dmDropSlip d slot served skipped s = raise .slip 2 d [slot, served, skipped, (u.delivery d).dropSlips] u := by
    rw [hu]
    rfl
  have hcount : (u.delivery d).dropSlips = y.dropSlips := (congrArg Delivery.dropSlips hdelivery :)
  refine ⟨u, ?_, ?_, ?_, hdelivery, ?_, ?_, ?_⟩
  · rw [hslip, hcount]
  · rw [hu]
    exact slip_lpu s d y
  · simp [hu]
  · rw [hu]
    exact slip_entry hh y
  · simp [hu]
  · simp [hu]

end

/-- Settles O26: the slot is available but too near the writer, and the phase is set to the lag. -/
theorem dropSlipRestoresTheLag : Obligations.DropSlipRestoresTheLag := by
  intro s d slot o r rt f x e h ho hl hmode hrt hh hsource hchange htake hx n dist lag q hcomplete hdist hfar
  have hdec := ruDecide_of_run hrt hh hmode (by simp [hchange])
    (ruTryTake_of_not_ready hrt (fun tk htk => by simp [htake] at htk) slot)
  let back := s.setRoute d (some { rt with phase := modSub n q slot })
  obtain ⟨u, hslip, hlpu, hru, hdelivery, hentry, hfm, hga⟩ :=
    dmDropSlip_spec (s := back) (d := d) (e := e) hh slot q (dist - lag)
  rw [Option.elim_none, ruServeCurrent_of_feed hrt hsource, ruApplyLag_of_idle hrt hchange, ruByAvailability_of_route hrt,
    lastSlot_of_feedRec hx] at hdec
  dsimp only at hdec
  rw [if_pos ((available_iff hx _).2 ⟨hcomplete, hdist⟩), if_neg (Nat.not_le.2 hfar), ruDropSlip,
    ruPhaseToLag_of_route hrt, ruRoughSlot_of_feedRec hx] at hdec
  change ruDecide d slot s = (dmDropSlip d slot q (dist - lag) back, .serve (.ring f q)) at hdec
  rw [hslip] at hdec
  obtain ⟨t, hexec, hstart⟩ := h.exec_startRaised ho hl hdec hlpu
  have hroute : u.route d = some { rt with phase := modSub n q slot } := by
    unfold State.route
    rw [hru]
    exact State.route_setRoute_self ..
  refine ⟨t, u, hexec, hlpu, hstart.raised, hstart.latch, hstart.route.trans hroute, ?_, ?_, ?_, ?_, ?_,
    hstart.fm.trans hfm, hstart.ga.trans hga, hstart.sends⟩
  · rw [hstart.delivery, hdelivery]
    rfl
  · rw [hstart.delivery, hdelivery]
    rfl
  · rw [hstart.delivery, hdelivery]
    rfl
  · rw [hstart.delivery, hdelivery]
    rfl
  · rw [hstart.entry]
    exact hentry

/-! ### O25 -/

section
variable {s : State} {d f slot e p : Nat} {rt : Route} {tk : Take}

/-- R137: a READY take at a slot start. -/
theorem ruTryTake_of_ready (hrt : s.route d = some rt) (htake : rt.take = some tk) (hready : tk.state = .ready)
    (hp : tk.slot = some p) (slot : Nat) : ruTryTake d slot s =
      if s.usable tk.target = true then
        if s.available tk.target p = true then (ruApply d slot p tk rt s, some (.ring tk.target p))
        else (s.setRoute d (some { rt with take := some (ruArm s d { tk with timer := 0 }) }), none)
      else (s.setRoute d (some { rt with take := some tk.toWait }), none) := by
  unfold ruTryTake
  rw [hrt]
  dsimp only
  rw [htake]
  dsimp only
  rw [hready, hp]
  dsimp only
  cases s.usable tk.target
  · rfl
  · cases s.available tk.target p
    · rfl
    · rfl

/-- The route that has taken the target of `tk` at `phase`. -/
def Route.applied (r : Route) (tk : Take) (phase : Nat) (home : Bool) : Route :=
  { r with
    source := .feed tk.target, phase := phase, wanted := none, take := none, change := none, freeze := none,
    failoverSince := r.failoverSince && !home, revert := 0 }

/-- The entry of the holder after `tk` has been applied. -/
def Entry.applied (x : Entry) (tk : Take) : Entry :=
  { x with
    takes := min 65535 (x.takes + 1), failovers := if tk.reason = .failover then min 255 (x.failovers + 1) else x.failovers,
    rough := x.rough || tk.rough }

theorem ruArm_of_not_found (h : ruSearch s d tk.target = none) :
    ruArm s d tk = { tk with state := .arming, slot := none, rough := false } := by
  rw [ruArm, h]

theorem ruArm_of_found (h : ruSearch s d tk.target = some p) :
    ruArm s d tk =
      { tk with state := if tk.reason = .cue then .cued else .ready, slot := some p, rough := false } := by
  rw [ruArm, h]
  cases tk.reason <;> rfl

theorem pack_flag (b : Bool) (p : Nat) : pack 16 (flag b) p = p + (if b then 65536 else 0) := by
  cases b
  · exact Nat.zero_add p
  · exact Nat.add_comm 65536 p

/-- R138: the application of a take, before its event. -/
theorem ruApply_spec (hh : s.holder d = some e) (slot p : Nat) (tk : Take) (rt : Route) :
    ∃ u, ruApply d slot p tk rt s = raise .take 2 d [tk.target, tk.reason.num, modSub s.ringDepth p slot,
        p + (if tk.rough then 65536 else 0)] u ∧
      u.lpu = s.lpu ∧
      u.route d = some (rt.applied tk (modSub s.ringDepth p slot) ((s.entry e).selected == tk.target)) ∧
      u.entry e = (s.entry e).applied tk ∧
      u.delivery d = { s.delivery d with
        impairment := if tk.rough then max (s.delivery d).impairment (s.destParams d).impairmentHold else 0
        condition := (u.delivery d).condition } ∧
      u.fm = s.fm ∧ u.ga = s.ga := by
  obtain ⟨v, hv⟩ : ∃ v, v = (s.setRoute d (some (rt.applied tk (modSub s.ringDepth p slot)
    ((s.entry e).selected == tk.target)))).setEntry e ((s.entry e).applied tk) := ⟨_, rfl⟩
  have happly : ruApply d slot p tk rt s = raise .take 2 d [tk.target, tk.reason.num, modSub s.ringDepth p slot,
      pack 16 (flag tk.rough) p] (if tk.rough then dmImpair d v else dmClearImpairment d v) := by
    unfold ruApply
    dsimp only
    rw [holderEntry_of_holder hh, hh, hv]
    rfl
  have hroute : v.route d = some (rt.applied tk (modSub s.ringDepth p slot) ((s.entry e).selected == tk.target)) := by
    rw [hv]
    exact State.route_setRoute_self ..
  have hentry : v.entry e = (s.entry e).applied tk := hv ▸ State.entry_setEntry_self ..
  have hdelivery : v.delivery d = s.delivery d := by rw [hv]; rfl
  have hparams : v.destParams d = s.destParams d := by rw [hv]; rfl
  have hlpu : v.lpu = s.lpu := by rw [hv]; rfl
  have hfm : v.fm = s.fm := by rw [hv]; rfl
  have hga : v.ga = s.ga := by rw [hv]; rfl
  rw [happly, pack_flag]
  clear hv
  cases tk.rough with
  | true =>
    refine ⟨dmImpair d v, rfl, hlpu, ?_, ?_, ?_, ?_, ?_⟩
    · rw [dmImpair_route, hroute]
    · rw [dmImpair_entry, hentry]
    · rw [if_pos rfl, ← hdelivery, ← hparams]
      exact dmImpair_delivery_self d v
    · rw [dmImpair_fm, hfm]
    · rw [dmImpair_ga, hga]
  | false =>
    refine ⟨dmClearImpairment d v, rfl, hlpu, ?_, ?_, ?_, ?_, ?_⟩
    · rw [dmClearImpairment_route, hroute]
    · rw [dmClearImpairment_entry, hentry]
    · rw [if_neg Bool.false_ne_true, ← hdelivery, dmClearImpairment_delivery_self]
    · rw [dmClearImpairment_fm, hfm]
    · rw [dmClearImpairment_ga, hga]

/-- R166: a lag adjustment that sets the phase. -/
theorem dmLagAdjusted_spec (s : State) (d kind phase : Nat) :
    ∃ u, dmLagAdjusted d kind phase s = raise .slip 3 d [kind, phase, (s.delivery d).lag,
        min 4294967295 ((s.delivery d).lagAdjustments + 1)] u ∧
      u.lpu = s.lpu ∧ u.ru = s.ru ∧ u.bt = s.bt ∧ u.fm = s.fm ∧ u.ga = s.ga ∧
      u.delivery d = { s.delivery d with
        lagAdjustments := min 4294967295 ((s.delivery d).lagAdjustments + 1)
        impairment := max (s.delivery d).impairment (s.destParams d).impairmentHold
        condition := (u.delivery d).condition } := by
  let y : Delivery := { s.delivery d with lagAdjustments := min 4294967295 ((s.delivery d).lagAdjustments + 1) }
  obtain ⟨u, hu⟩ : ∃ u, u = dmImpair d (s.setDelivery d y) := ⟨_, rfl⟩
  have hdelivery : u.delivery d = { y with
      impairment := max y.impairment (s.destParams d).impairmentHold, condition := (u.delivery d).condition } := by
    rw [hu, dmImpair_delivery_self, State.delivery_setDelivery_self]
    rfl
  have hraise : dmLagAdjusted d kind phase s =
      raise .slip 3 d [kind, phase, (u.delivery d).lag, (u.delivery d).lagAdjustments] u := by
    rw [hu]
    rfl
  have hlag : (u.delivery d).lag = y.lag := (congrArg Delivery.lag hdelivery :)
  have hcount : (u.delivery d).lagAdjustments = y.lagAdjustments := (congrArg Delivery.lagAdjustments hdelivery :)
  refine ⟨u, ?_, ?_, ?_, ?_, ?_, ?_, hdelivery⟩
  · rw [hraise, hlag, hcount]
  · rw [hu]; rfl
  · rw [hu]; rfl
  · rw [hu]; rfl
  · rw [hu]; rfl
  · rw [hu]; rfl

/-- R155, step 5: a pending lag repeat or lag reset. -/
theorem ruApplyLag_of_change (hrt : s.route d = some rt) {change : Change} (hchange : rt.change = some change)
    {kind phase : Nat} {x : FeedRecord} (hx : s.feedRec f = some x)
    (h : (change, kind, phase) ∈ [(Change.lagRepeat, 1, modSub s.ringDepth rt.phase 1),
      (.lagReset, 2, modSub s.ringDepth (modSub s.ringDepth x.lastSlot (s.delivery d).lag) slot)]) :
    ruApplyLag d slot f s = dmLagAdjusted d kind phase (s.setRoute d (some { rt with phase := phase, change := none })) := by
  have hclear : modRoute d (fun x => { x with change := none }) s = s.setRoute d (some { rt with change := none }) :=
    modRoute_of_route hrt _
  have hroute : (s.setRoute d (some { rt with change := none })).route d = some { rt with change := none } :=
    State.route_setRoute_self ..
  unfold ruApplyLag
  rw [hrt]
  dsimp only
  rw [hchange, hclear]
  simp only [List.mem_cons, Prod.mk.injEq, List.not_mem_nil, or_false] at h
  obtain ⟨rfl, rfl, rfl⟩ | ⟨rfl, rfl, rfl⟩ := h
  · dsimp only
    rw [ruPhaseBack_of_route hroute, setRoute_setRoute, State.route_setRoute_self]
    rfl
  · dsimp only
    rw [ruPhaseToLag_of_route hroute, setRoute_setRoute, State.route_setRoute_self,
      ruRoughSlot_of_feedRec (s := s.setRoute d (some { rt with change := none })) hx]
    rfl

end

/-- R137, R138: the READY take that is applied. -/
theorem readyTake_applied {s : State} {d slot o : Nat} {r : Request} {rt : Route} {e : Nat} {tk : Take} {p : Nat}
    (h : ReaderAt s d slot o r) (ho : o < 64) (hl : ∀ y, s.latch d ≠ some ⟨slot, .decided y⟩)
    (hdec : ruDecide d slot s = (ruApply d slot p tk rt s, .serve (.ring tk.target p))) (hh : s.holder d = some e) :
    ∃ t u, exec (.windowRead r) s = .next t ∧ u.lpu = s.lpu ∧ StartRaised s u .take 2 [tk.target, tk.reason.num,
        modSub s.ringDepth p slot, p + (if tk.rough then 65536 else 0)] d slot o r (.ring tk.target p) t ∧
      u.route d = some (rt.applied tk (modSub s.ringDepth p slot) ((s.entry e).selected == tk.target)) ∧
      u.entry e = (s.entry e).applied tk ∧
      u.delivery d = { s.delivery d with
        impairment := if tk.rough then max (s.delivery d).impairment (s.destParams d).impairmentHold else 0
        condition := (u.delivery d).condition } ∧
      u.fm = s.fm ∧ u.ga = s.ga := by
  obtain ⟨u, happly, hlpu, hrest⟩ := ruApply_spec hh slot p tk rt
  rw [happly] at hdec
  obtain ⟨t, hexec, hstart⟩ := h.exec_startRaised ho hl hdec hlpu
  exact ⟨t, u, hexec, hlpu, hstart, hrest⟩

/-- Settles O25. -/
theorem readyTakeAndLagActAtASlotStart : Obligations.ReadyTakeAndLagActAtASlotStart := by
  refine ⟨?_, ?_⟩
  · intro s d slot o r rt e tk p h ho hl hmode hrt hh hchange htake hready hp phase x onSlate
    have htry := ruTryTake_of_ready hrt htake hready hp slot
    have hagain : ∀ again : Take, ruTryTake d slot s = (s.setRoute d (some { rt with take := some again }), none) →
        onSlate again := by
      intro again htry a hsource ha
      have hdec := ruDecide_of_run hrt hh hmode hchange htry
      rw [Option.elim_none, ruServeCurrent_of_slate (rt := { rt with take := some again })
        (State.route_setRoute_self ..) hsource] at hdec
      exact h.exec_of_serve_at ho hl hdec (.of_lpu_eq rfl) ha
    refine ⟨fun husable havail => ?_, fun husable => ?_, fun husable havail => ?_⟩
    · rw [if_pos husable, if_pos havail] at htry
      have hdec := ruDecide_of_run hrt hh hmode hchange htry
      obtain ⟨t, u, hexec, hlpu, hstart, hroute, hentry, hdelivery, hfm, hga⟩ := readyTake_applied h ho hl hdec hh
      refine ⟨t, u, hexec, hlpu, hstart.raised, hstart.latch, hstart.route.trans hroute, (hstart.entry e).trans hentry,
        ?_, ?_, ?_, hstart.fm.trans hfm, hstart.ga.trans hga, hstart.sends⟩
      · rw [hstart.delivery, hdelivery]
      · rw [hstart.delivery, hdelivery]
      · rw [hstart.delivery, hdelivery]
    · rw [if_neg (by simp [husable])] at htry
      exact hagain _ htry
    · rw [if_pos husable, if_neg (by simp [havail])] at htry
      have harm := hagain _ htry
      refine ⟨fun hsearch => ?_, fun q hsearch => ?_⟩
      · rw [ruArm_of_not_found (tk := { tk with timer := 0 }) hsearch] at harm
        exact harm
      · rw [ruArm_of_found (tk := { tk with timer := 0 }) hsearch] at harm
        exact harm
  · intro s d slot o r rt f x e change kind phase h ho hl hmode hrt hh hsource hchange htake hx n lag count hmem q dist
      hcomplete hdist hnear
    have hnot : rt.change ≠ some .toSlate := by
      rw [hchange]
      rintro ⟨⟩
      simp at hmem
    have hdec := ruDecide_of_run hrt hh hmode hnot (ruTryTake_of_not_ready hrt htake slot)
    let moved := s.setRoute d (some { rt with phase := phase, change := none })
    obtain ⟨u, hraise, hlpu, hru, hbt, hfm, hga, hdelivery⟩ := dmLagAdjusted_spec moved d kind phase
    have hroute : u.route d = some { rt with phase := phase, change := none } := by
      unfold State.route
      rw [hru]
      exact State.route_setRoute_self ..
    have hfeed : u.feedRec f = some x := by
      rw [← hx, State.feedRec, hfm]
      rfl
    have hdepth : u.ringDepth = n := by
      rw [State.ringDepth, hlpu]
      rfl
    rw [Option.elim_none, ruServeCurrent_of_feed hrt hsource, ruApplyLag_of_change hrt hchange hx hmem, hraise] at hdec
    obtain ⟨v, hv⟩ : ∃ v, v = raise .slip 3 d [kind, phase, (moved.delivery d).lag,
      min 4294967295 ((moved.delivery d).lagAdjustments + 1)] u := ⟨_, rfl⟩
    have hvroute : v.route d = some { rt with phase := phase, change := none } := by rw [hv, raise_route, hroute]
    have hvfeed : v.feedRec f = some x := by rw [hv, raise_feedRec, hfeed]
    have hvdepth : v.ringDepth = n := by rw [hv, raise_ringDepth, hdepth]
    rw [← hv, ruByAvailability_of_route hvroute, lastSlot_of_feedRec hvfeed, hvdepth] at hdec
    dsimp only at hdec
    rw [if_pos ((available_iff hvfeed _).2 (by rw [hvdepth]; exact ⟨hcomplete, hdist⟩)), if_pos hnear, hv] at hdec
    obtain ⟨t, hexec, hstart⟩ := h.exec_startRaised ho hl hdec hlpu
    refine ⟨t, u, hexec, hlpu, hstart.raised, hstart.latch, hstart.route.trans hroute, ?_, ?_, ?_, ?_, ?_,
      hstart.bt.trans hbt, hstart.fm.trans hfm, hstart.ga.trans hga, hstart.sends⟩
    · rw [hstart.delivery, hdelivery]
      rfl
    · rw [hstart.delivery, hdelivery]
      rfl
    · rw [hstart.delivery, hdelivery]
      rfl
    · rw [hstart.delivery, hdelivery]
      rfl
    · rw [hstart.delivery, hdelivery]
      rfl

end Sys2Proof.Machine
end

section
/-! SUPPORT. The intervals of a feed at a local millisecond (O32). -/

namespace Sys2Proof.Machine

/-! ### The feed records at a local millisecond -/

/-- No act but those of the FM changes its records. -/
theorem fm_loose (x : Fm) : Loose (fun _ => False) (fun s => s.fm = x) where
  raise hs := (raise_fm ..).trans hs
  route _ hs := hs
  delivery _ hs := hs
  feed hf _ := hf.elim
  counts _ hs := hs
  latch _ hs := hs
  forward hs := (lpuForward_fm ..).trans hs
  hold _ _ _ hs := hs
  join _ hs := hs
  free _ hs := hs
  entry hs := hs
  bookingCounts hs := hs
  holder hs := hs
  queue hs := hs
  read hs := (rwRequest_fm ..).trans hs
  accept hs := (rwAccept_fm ..).trans hs
  push _ hs := hs
  lost hs := hs

theorem fm_firing (x : Fm) : Firing (fun _ => False) (fun s => s.fm = x) := (fm_loose x).placing.booking.toFiring

theorem tbSetState_fm (new : RefState) (s : State) : (tbSetState new s).fm = s.fm := by
  unfold tbSetState
  dsimp only
  split
  · rfl
  · exact raise_fm ..

theorem tbDeadlinePassed_fm (at_ : Nat) (s : State) : (tbDeadlinePassed at_ s).fm = s.fm := by
  unfold tbDeadlinePassed
  split
  · rfl
  · split
    · exact tbSetState_fm ..
    · rfl
  · rfl

theorem passTime_fm (pos n : Nat) (s : State) : (passTime pos n s).fm = s.fm := by
  induction n generalizing s with
  | zero => rfl
  | succ n ih =>
    unfold passTime
    split
    · rfl
    next at_ x _ =>
      split
      · rw [ih]
        cases x with
        | deadline a => exact tbDeadlinePassed_fm ..
        | hold d => exact (fm_firing s.fm).lpuHoldExpire (s := moveTo at_ s) trivial rfl
      · rfl

theorem timeTo_fm (pos : Nat) (s : State) : (timeTo pos s).fm = s.fm := passTime_fm ..

theorem feedRec_congr {s t : State} (h : t.fm = s.fm) (f : Nat) : t.feedRec f = s.feedRec f := by
  rw [State.feedRec, h]
  rfl

theorem feedParams_congr {s t : State} (h : t.fm.params = s.fm.params) (f : Nat) : t.feedParams f = s.feedParams f := by
  rw [State.feedParams, h]
  rfl

/-! ### Changes of one feed -/

/-- Of the FM, `t` is `s` with the record `x` for feed `f`. -/
structure FeedBecomes (f : Nat) (x : FeedRecord) (s t : State) : Prop where
  record : t.feedRec f = some x
  others : ∀ g, g ≠ f → t.feedRec g = s.feedRec g
  params : t.fm.params = s.fm.params

namespace FeedBecomes

variable {f : Nat} {x y : FeedRecord} {s t u : State}

theorem refl (hx : s.feedRec f = some x) : FeedBecomes f x s s := ⟨hx, fun _ _ => rfl, rfl⟩

theorem trans (h : FeedBecomes f x s t) (g : FeedBecomes f y t u) : FeedBecomes f y s u :=
  ⟨g.record, fun i hi => (g.others i hi).trans (h.others i hi), g.params.trans h.params⟩

theorem of_fm_eq (h : FeedBecomes f x s t) (hu : u.fm = t.fm) : FeedBecomes f x s u :=
  ⟨(feedRec_congr hu f).trans h.record, fun i hi => (feedRec_congr hu i).trans (h.others i hi), by rw [hu, h.params]⟩

theorem setFeedRec (f : Nat) (x : FeedRecord) (s : State) : FeedBecomes f x s (s.setFeedRec f (some x)) :=
  ⟨State.feedRec_setFeedRec_self .., fun _ hg => State.feedRec_setFeedRec_of_ne _ _ hg, rfl⟩

theorem feedParams (h : FeedBecomes f x s t) (g : Nat) : t.feedParams g = s.feedParams g := feedParams_congr h.params g

theorem enter {r : FeedRecord} (hr : s.feedRec f = some r) (new : Health) (x : FeedRecord) :
    FeedBecomes f { x with health := new } s (fmEnter f new x s) := by
  unfold fmEnter
  rw [hr]
  exact (setFeedRec f { x with health := new } s).of_fm_eq (raise_fm ..)

theorem healthReport (h : FeedBecomes f x s t) (g : Nat) (old new : Health) :
    FeedBecomes f x s (healthReport g old new t) :=
  h.of_fm_eq ((reading_fm t.fm).healthReport (fun _ => trivial) rfl g old new)

theorem change {r : FeedRecord} (hr : s.feedRec f = some r) {new : Health} {x z : FeedRecord}
    (hz : { x with health := new } = z) : FeedBecomes f z s (fmChange f new x s) := by
  subst hz
  unfold fmChange
  rw [hr]
  exact (enter hr new x).healthReport ..

end FeedBecomes

/-! ### The intervals -/

/-- R82: the record after the test of the state timer. -/
def FeedRecord.retried (p : FeedParams) (r : FeedRecord) : FeedRecord :=
  if p.retryInterval ≤ r.stateTimer then
    match r.health with
    | .retryWait => { r with health := .qualifying, cleanRun := 0 }
    | .failed =>
      if p.attemptLimit ≤ r.attempts then { r with health := .barred } else { r with health := .qualifying, cleanRun := 0 }
    | _ => r
  else r

/-- R84: the record after the test of the loss timeout. -/
def FeedRecord.silenced (p : FeedParams) (r : FeedRecord) : FeedRecord :=
  if p.lossTimeout ≤ r.silence then
    match r.health with
    | .healthy => { r with health := .lost, seqKnown := false }
    | .degraded => { r with health := .lost, seqKnown := false }
    | .qualifying => { r with health := .absent, seqKnown := false }
    | .retryWait => { r with health := .absent, seqKnown := false }
    | _ => r
  else r

/-- R85: the record after the test of the bar release time. -/
def FeedRecord.released (p : FeedParams) (r : FeedRecord) : FeedRecord :=
  if r.health = .barred ∧ p.barRelease ≠ 0 ∧ p.barRelease ≤ r.silence then
    { r with health := .absent, seqKnown := false, attempts := 0 }
  else r

/-- R82 to R85: the record after a local millisecond. -/
def FeedRecord.millisecond (p : FeedParams) (r : FeedRecord) : FeedRecord :=
  if (r.tick.retried p).lateRetry p r.health then r.tick.retried p else ((r.tick.retried p).silenced p).released p

section
variable {s : State} {f : Nat} {x : FeedRecord} (hx : s.feedRec f = some x)
include hx

theorem fmRetryTest_becomes : FeedBecomes f (x.retried (s.feedParams f)) s (fmRetryTest f s) := by
  unfold fmRetryTest FeedRecord.retried
  rw [hx]
  dsimp only
  split
  · cases x.health
    case retryWait => exact .change hx rfl
    case failed =>
      dsimp only
      split
      · exact .change hx rfl
      · exact .change hx rfl
    all_goals exact .refl hx
  · exact .refl hx

theorem fmLossTest_becomes : FeedBecomes f (x.silenced (s.feedParams f)) s (fmLossTest f s) := by
  unfold fmLossTest FeedRecord.silenced
  rw [hx]
  dsimp only
  split
  · cases x.health
    case healthy => exact .change hx rfl
    case degraded => exact .change hx rfl
    case qualifying => exact .change hx rfl
    case retryWait => exact .change hx rfl
    all_goals exact .refl hx
  · exact .refl hx

theorem fmBarTest_becomes : FeedBecomes f (x.released (s.feedParams f)) s (fmBarTest f s) := by
  unfold fmBarTest FeedRecord.released
  rw [hx]
  dsimp only
  by_cases h : x.health = .barred ∧ (s.feedParams f).barRelease ≠ 0 ∧ (s.feedParams f).barRelease ≤ x.silence
  · rw [if_pos h, if_pos (by simp [h])]
    exact .change hx rfl
  · rw [if_neg h, if_neg (by simpa [and_assoc] using h)]
    exact .refl hx

/-- R82 to R85: the millisecond of a feed. -/
theorem fmMillisecond_becomes : FeedBecomes f (x.millisecond (s.feedParams f)) s (fmMillisecond f s) := by
  have htick : modFeed f FeedRecord.tick s = s.setFeedRec f (some x.tick) := by rw [modFeed, hx]
  have hticked : FeedBecomes f x.tick s (modFeed f FeedRecord.tick s) := htick ▸ .setFeedRec f x.tick s
  have hretried := hticked.trans (fmRetryTest_becomes hticked.record)
  rw [hticked.feedParams] at hretried
  have hsilenced := hretried.trans (fmLossTest_becomes hretried.record)
  rw [hretried.feedParams] at hsilenced
  have hreleased := hsilenced.trans (fmBarTest_becomes hsilenced.record)
  rw [hsilenced.feedParams] at hreleased
  unfold fmMillisecond FeedRecord.millisecond
  rw [hx]
  dsimp only
  rw [hretried.record, Option.any_some]
  split
  · exact hretried
  · exact hreleased

end

theorem fmMillisecond_of_no_feed {s : State} {f : Nat} (h : s.feedRec f = none) : fmMillisecond f s = s := by
  rw [fmMillisecond, h]

/-- A record with its parameters, after a local millisecond. -/
def feedTicked (x : Option FeedRecord × FeedParams) : Option FeedRecord × FeedParams := (x.1.map (FeedRecord.millisecond x.2), x.2)

theorem fmMillisecond_own (f : Nat) (s : State) : ((fmMillisecond f s).feedRec f, (fmMillisecond f s).feedParams f) =
    feedTicked (s.feedRec f, s.feedParams f) := by
  cases hx : s.feedRec f with
  | none => rw [fmMillisecond_of_no_feed hx, hx]; rfl
  | some x =>
    have h := fmMillisecond_becomes hx
    rw [h.record, h.feedParams]
    rfl

theorem fmMillisecond_other {f g : Nat} (hg : g ≠ f) (s : State) :
    ((fmMillisecond f s).feedRec g, (fmMillisecond f s).feedParams g) = (s.feedRec g, s.feedParams g) := by
  cases hx : s.feedRec f with
  | none => rw [fmMillisecond_of_no_feed hx]
  | some x =>
    have h := fmMillisecond_becomes hx
    rw [h.others g hg, h.feedParams]

theorem fmMillisecond_params (f : Nat) (s : State) : (fmMillisecond f s).fm.params = s.fm.params := by
  cases hx : s.feedRec f with
  | none => rw [fmMillisecond_of_no_feed hx]
  | some x => exact (fmMillisecond_becomes hx).params

/-- The FM after the tests of the limits and the reports is the FM before them. -/
theorem tbReport_fm (s : State) : (tbReport s).fm = s.fm := by
  unfold tbReport
  split
  · exact (fm_firing s.fm).secondReports rfl _
  · rfl

theorem millisecondEvent_feeds (s : State) : ∃ u, u.fm = s.fm ∧ (millisecondEvent s).fm = (forAll 64 fmMillisecond u).fm := by
  have haccrued := forAll_preserves (P := fun t => t.fm = s.fm) (g := muAccrue)
    (fun e t ht => (fm_firing s.fm).muAccrue ht e) 128 (s := s.withTb s.tb.advance) rfl
  have hdm := forAll_preserves (P := fun t => t.fm = s.fm) (g := dmMillisecond)
    (fun d t ht => (fm_firing s.fm).dmMillisecond trivial ht) 48 haccrued
  have hru := forAll_preserves (P := fun t => t.fm = s.fm) (g := ruMillisecond)
    (fun d t ht => (fm_firing s.fm).ruMillisecond trivial ht) 48 hdm
  refine ⟨_, hru, ?_⟩
  unfold millisecondEvent
  rw [tbReport_fm]
  exact (fm_firing _).btLimits rfl _

/-- R82 to R85: what a local millisecond makes of the record of a feed. -/
theorem tbMillisecond_feed {s : State} {f : Nat} {x : FeedRecord} (hf : f < 64) (hx : s.feedRec f = some x) :
    (tbMillisecond s).feedRec f = some (x.millisecond (s.feedParams f)) ∧ (tbMillisecond s).fm.params = s.fm.params := by
  obtain ⟨u, hu, hevent⟩ := millisecondEvent_feeds ((timeTo 1000 s).withTb ((timeTo 1000 s).tb.newMillisecond 1000))
  have hfm : u.fm = s.fm := hu.trans (timeTo_fm 1000 s)
  have heach : ((forAll 64 fmMillisecond u).feedRec f, (forAll 64 fmMillisecond u).feedParams f) =
      feedTicked (u.feedRec f, u.feedParams f) :=
    (forAll_each (fun t g => (t.feedRec g, t.feedParams g)) (fun _ => feedTicked) fmMillisecond_own
      (fun f g t hg => fmMillisecond_other hg t) 64 u f).trans (if_pos hf)
  have hparams := forAll_keeps (fun t => t.fm.params) fmMillisecond_params 64 u
  rw [feedRec_congr hfm, feedParams_congr (congrArg Fm.params hfm), hx] at heach
  generalize forAll 64 fmMillisecond u = v at hevent heach hparams
  have hrecord : v.feedRec f = some (x.millisecond (s.feedParams f)) := congrArg Prod.fst heach
  rw [tbMillisecond]
  exact ⟨(feedRec_congr hevent f).trans hrecord, by rw [hevent, hparams, hfm]⟩

/-! ### O32 -/

namespace FeedRecord

section
variable {p : FeedParams} {x y : FeedRecord} (htick : x.tick = y)
include htick

theorem retryDue_iff : x.retryDue p = true ↔
    (x.health = .retryWait ∨ x.health = .failed) ∧ p.retryInterval ≤ y.stateTimer := by
  simp [retryDue, htick]

theorem lossDue_iff : x.lossDue p = true ↔
    (x.health = .healthy ∨ x.health = .degraded ∨ x.health = .qualifying ∨ x.health = .retryWait) ∧
        p.lossTimeout ≤ y.silence ∨
      x.health = .failed ∧ p.retryInterval ≤ y.stateTimer ∧ x.attempts < p.attemptLimit ∧ p.lossTimeout = y.silence := by
  unfold lossDue
  rw [htick, Bool.or_eq_true]
  simp only [Bool.and_eq_true, retryDue_iff htick, beq_iff_eq, decide_eq_true_eq, Bool.or_eq_true]
  cases x.health <;> simp [Health.usable, and_assoc]

theorem barDue_iff : x.barDue p = true ↔
    (x.health = .barred ∨ x.health = .failed ∧ p.retryInterval ≤ y.stateTimer ∧ p.attemptLimit ≤ x.attempts) ∧
      p.barRelease ≠ 0 ∧ p.barRelease ≤ y.silence := by
  unfold barDue
  simp only [htick, Bool.and_eq_true, Bool.or_eq_true, retryDue_iff htick, beq_iff_eq, decide_eq_true_eq, bne_iff_ne]
  cases x.health <;> simp [and_assoc]

theorem health_of_tick : y.health = x.health := htick ▸ rfl

theorem attempts_of_tick : y.attempts = x.attempts := htick ▸ rfl

/-- R82: the retry interval takes a feed into QUALIFYING, and no silence test follows or acts. -/
theorem millisecond_of_retried (hh : x.health = .retryWait ∨ x.health = .failed ∧ x.attempts < p.attemptLimit)
    (htimer : p.retryInterval ≤ y.stateTimer)
    (hloss : y.silence < p.lossTimeout ∨ x.health = .failed ∧ y.silence ≠ p.lossTimeout) :
    x.millisecond p = { y with health := .qualifying, cleanRun := 0 } := by
  have hretried : y.retried p = { y with health := .qualifying, cleanRun := 0 } := by
    unfold retried
    rw [if_pos htimer, health_of_tick htick, attempts_of_tick htick]
    obtain h | ⟨h, hlimit⟩ := hh
    · rw [h]
    · rw [h]
      exact if_neg (Nat.not_le.2 hlimit)
  unfold millisecond
  rw [htick, hretried]
  split
  · rfl
  next hlate =>
    have hquiet : ¬p.lossTimeout ≤ y.silence := by
      obtain hloss | ⟨h, hne⟩ := hloss
      · omega
      · simp only [lateRetry, h] at hlate
        have : ¬p.lossTimeout < y.silence := by simpa using hlate
        omega
    rw [silenced, if_neg hquiet, released, if_neg (by simp)]

/-- R82, R84: the retry interval and the loss timeout in one millisecond. -/
theorem millisecond_of_retried_silenced (htimer : p.retryInterval ≤ y.stateTimer)
    (hh : x.health = .retryWait ∧ p.lossTimeout ≤ y.silence ∨
      x.health = .failed ∧ x.attempts < p.attemptLimit ∧ y.silence = p.lossTimeout) :
    x.millisecond p = { y with health := .absent, cleanRun := 0, seqKnown := false } := by
  have hretried : y.retried p = { y with health := .qualifying, cleanRun := 0 } := by
    unfold retried
    rw [if_pos htimer, health_of_tick htick, attempts_of_tick htick]
    obtain ⟨h, -⟩ | ⟨h, hlimit, -⟩ := hh
    · rw [h]
    · rw [h]
      exact if_neg (Nat.not_le.2 hlimit)
  have hnotLate : ({ y with health := .qualifying, cleanRun := 0 } : FeedRecord).lateRetry p x.health = false := by
    obtain ⟨h, -⟩ | ⟨-, -, h⟩ := hh
    · simp [lateRetry, h]
    · simp [lateRetry, h]
  have hloss : p.lossTimeout ≤ y.silence := by
    obtain ⟨-, h⟩ | ⟨-, -, h⟩ := hh
    · exact h
    · exact h.ge
  unfold millisecond
  rw [htick, hretried, hnotLate, if_neg Bool.false_ne_true, silenced, if_pos hloss, released, if_neg (by simp)]

/-- R82: a failed feed at its attempt limit is barred at the retry interval. -/
theorem millisecond_of_barred (hh : x.health = .failed) (htimer : p.retryInterval ≤ y.stateTimer)
    (hlimit : p.attemptLimit ≤ x.attempts) :
    x.millisecond p = ({ y with health := .barred } : FeedRecord).released p := by
  have hretried : y.retried p = { y with health := .barred } := by
    unfold retried
    rw [if_pos htimer, health_of_tick htick, attempts_of_tick htick, hh]
    exact if_pos hlimit
  unfold millisecond
  rw [htick, hretried, if_neg (by simp [lateRetry])]
  congr 1
  unfold silenced
  split <;> rfl

/-- R84, R85: the retry interval does not act. -/
theorem millisecond_of_not_retried (h : ¬((x.health = .retryWait ∨ x.health = .failed) ∧ p.retryInterval ≤ y.stateTimer)) :
    x.millisecond p = (y.silenced p).released p := by
  have hretried : y.retried p = y := by
    unfold retried
    split
    next htimer =>
      have hnot := fun hh => h ⟨hh, htimer⟩
      rw [← health_of_tick htick] at hnot
      cases hy : y.health
      case retryWait => exact absurd (.inl hy) hnot
      case failed => exact absurd (.inr hy) hnot
      all_goals rfl
    · rfl
  have hnotLate : y.lateRetry p x.health = false := by
    unfold lateRetry
    rw [health_of_tick htick]
    cases x.health <;> rfl
  unfold millisecond
  rw [htick, hretried, hnotLate, if_neg Bool.false_ne_true]

end

section
variable {p : FeedParams} {y : FeedRecord}

theorem released_of_not_barred (h : y.health ≠ .barred) : y.released p = y := if_neg fun hy => h hy.1

theorem released_of_not_due (h : ¬(p.barRelease ≠ 0 ∧ p.barRelease ≤ y.silence)) : y.released p = y :=
  if_neg fun hy => h hy.2

theorem released_of_due (hy : y.health = .barred) (h : p.barRelease ≠ 0 ∧ p.barRelease ≤ y.silence) :
    y.released p = { y with health := .absent, seqKnown := false, attempts := 0 } := if_pos ⟨hy, h⟩

theorem silenced_of_usable (hy : y.health = .healthy ∨ y.health = .degraded) (h : p.lossTimeout ≤ y.silence) :
    y.silenced p = { y with health := .lost, seqKnown := false } := by
  rw [silenced, if_pos h]
  obtain hy | hy := hy
  · rw [hy]
  · rw [hy]

theorem silenced_of_trying (hy : y.health = .qualifying ∨ y.health = .retryWait) (h : p.lossTimeout ≤ y.silence) :
    y.silenced p = { y with health := .absent, seqKnown := false } := by
  rw [silenced, if_pos h]
  obtain hy | hy := hy
  · rw [hy]
  · rw [hy]

theorem silenced_of_idle (h : p.lossTimeout ≤ y.silence → y.health ∈ [.absent, .failed, .lost, .barred]) :
    y.silenced p = y := by
  unfold silenced
  split
  next hloss =>
    specialize h hloss
    cases hy : y.health
    case healthy => simp [hy] at h
    case degraded => simp [hy] at h
    case qualifying => simp [hy] at h
    case retryWait => simp [hy] at h
    all_goals rfl
  · rfl

end

end FeedRecord

/-- The row of an interval of feed `f` that the record `x` reaches. -/
def FeedRecord.Reaches (p : FeedParams) (f : Nat) (x : FeedRecord) (row : Instr) : Prop :=
  (row = .retryInterval f ∧ x.retryDue p = true) ∨ (row = .lossTimeout f ∧ x.lossDue p = true) ∨
    (row = .barRelease f ∧ x.barDue p = true)

section
variable {s : State} {f : Nat} {x : FeedRecord}

theorem any_feedRec_timeTo (hx : s.feedRec f = some x) (due : FeedParams → FeedRecord → Bool) :
    ((timeTo 1000 s).feedRec f).any (due ((timeTo 1000 s).feedParams f)) = due (s.feedParams f) x := by
  rw [feedRec_congr (timeTo_fm 1000 s), feedParams_congr (congrArg Fm.params (timeTo_fm 1000 s)), hx]
  rfl

/-- The row of an interval that the record does not reach changes nothing. -/
theorem exec_of_not_reached (hx : s.feedRec f = some x) {row : Instr} {due : FeedParams → FeedRecord → Bool}
    (hrow : exec row s = .next (tbInterval (fun t => (t.feedRec f).any (due (t.feedParams f))) s))
    (h : ¬due (s.feedParams f) x = true) : exec row s = .next s := by
  rw [hrow, tbInterval_of_not_due ((any_feedRec_timeTo hx due).trans (Bool.eq_false_iff.2 h))]

theorem exec_localMillisecond (hr : s.lpu.resetAsserted = false) : exec .localMillisecond s = .next (tbMillisecond s) := by
  change Host.Outcome.next (if s.lpu.resetAsserted then s else tbMillisecond s) = _
  rw [hr, if_neg Bool.false_ne_true]

/-- The row of an interval that the record reaches is the coming local millisecond event. -/
theorem exec_of_reaches (hr : s.lpu.resetAsserted = false) (hx : s.feedRec f = some x) {row : Instr}
    (h : x.Reaches (s.feedParams f) f row) : exec row s = exec .localMillisecond s := by
  obtain ⟨rfl, h⟩ | ⟨rfl, h⟩ | ⟨rfl, h⟩ := h
  · exact tbInterval_of_due hr ((any_feedRec_timeTo hx FeedRecord.retryDue).trans h)
  · exact tbInterval_of_due hr ((any_feedRec_timeTo hx FeedRecord.lossDue).trans h)
  · exact tbInterval_of_due hr ((any_feedRec_timeTo hx FeedRecord.barDue).trans h)

end

/-- Settles O32: the record after the millisecond is `FeedRecord.millisecond`, read off by health state. -/
theorem feedIntervalsMoveHealth : Obligations.FeedIntervalsMoveHealth := by
  intro s f x hr hf hx p y retry loss bar become
  have htick : x.tick = y := by
    unfold FeedRecord.tick
    rw [show (x.health == .retryWait || x.health == .failed) = decide (x.health = .retryWait ∨ x.health = .failed) by
      simp [Bool.decide_or, beq_eq_decide]]
    simp [y, satAdd, max32]
  obtain ⟨hrecord, hparams⟩ := tbMillisecond_feed hf hx
  have hbecome : ∀ {rows : List Instr} {z : FeedRecord}, x.millisecond p = z → (∀ c ∈ rows, x.Reaches p f c) →
      become rows z := by
    intro rows z hz hrows
    refine ⟨tbMillisecond s, exec_localMillisecond hr, hz ▸ hrecord, hparams, fun c hc => ?_⟩
    rw [exec_of_reaches hr hx (hrows c hc), exec_localMillisecond hr]
  have hretryDue : ∀ c, c = Instr.retryInterval f → retry → x.Reaches p f c := fun c hc h =>
    .inl ⟨hc, (FeedRecord.retryDue_iff htick).2 h⟩
  have hlossDue : ∀ c, c = Instr.lossTimeout f → x.lossDue p = true → x.Reaches p f c := fun c hc h => .inr (.inl ⟨hc, h⟩)
  have hbarDue : ∀ c, c = Instr.barRelease f → x.barDue p = true → x.Reaches p f c := fun c hc h => .inr (.inr ⟨hc, h⟩)
  refine ⟨fun hh hret hnot => ?_, fun hh hret hl => ?_, fun hh hret => ⟨fun hlimit hne => ?_, fun hlimit heq => ?_,
    fun hlimit hnot => ?_, fun hlimit hb => ?_⟩, fun hh hl => ?_, fun hh hl => ?_, fun hh hb => ?_,
    fun hnot hl hb => ?_, fun hnot => ?_, fun hnot => ?_, fun hnot => ?_⟩
  · refine hbecome (FeedRecord.millisecond_of_retried htick (.inl hh) hret.2 (.inl (Nat.not_le.1 hnot))) fun c hc => ?_
    exact hretryDue c (List.mem_singleton.1 hc) hret
  · refine hbecome (FeedRecord.millisecond_of_retried_silenced htick hret.2 (.inl ⟨hh, hl⟩)) fun c hc => ?_
    obtain rfl | hc := List.mem_cons.1 hc
    · exact hretryDue _ rfl hret
    · exact hlossDue c (List.mem_singleton.1 hc) ((FeedRecord.lossDue_iff htick).2 (.inl ⟨by simp [hh], hl⟩))
  · refine hbecome (FeedRecord.millisecond_of_retried htick (.inr ⟨hh, hlimit⟩) hret.2 (.inr ⟨hh, hne⟩)) fun c hc => ?_
    exact hretryDue c (List.mem_singleton.1 hc) hret
  · refine hbecome (FeedRecord.millisecond_of_retried_silenced htick hret.2 (.inr ⟨hh, hlimit, heq⟩)) fun c hc => ?_
    obtain rfl | hc := List.mem_cons.1 hc
    · exact hretryDue _ rfl hret
    · exact hlossDue c (List.mem_singleton.1 hc)
        ((FeedRecord.lossDue_iff htick).2 (.inr ⟨hh, hret.2, hlimit, heq.symm⟩))
  · refine hbecome ((FeedRecord.millisecond_of_barred htick hh hret.2 hlimit).trans
      (FeedRecord.released_of_not_due hnot)) fun c hc => ?_
    exact hretryDue c (List.mem_singleton.1 hc) hret
  · refine hbecome ((FeedRecord.millisecond_of_barred htick hh hret.2 hlimit).trans
      (FeedRecord.released_of_due rfl hb)) fun c hc => ?_
    obtain rfl | hc := List.mem_cons.1 hc
    · exact hretryDue _ rfl hret
    · exact hbarDue c (List.mem_singleton.1 hc) ((FeedRecord.barDue_iff htick).2 ⟨.inr ⟨hh, hret.2, hlimit⟩, hb⟩)
  · have hnot : ¬retry := by
      rintro ⟨h | h, -⟩
      · simp [h] at hh
      · simp [h] at hh
    refine hbecome (z := { y with health := .lost, seqKnown := false }) ?_ fun c hc => hlossDue c (List.mem_singleton.1 hc)
      ((FeedRecord.lossDue_iff htick).2 (.inl ⟨hh.imp id .inl, hl⟩))
    rw [FeedRecord.millisecond_of_not_retried htick hnot, FeedRecord.silenced_of_usable (y := y) hh hl]
    exact FeedRecord.released_of_not_barred (by simp)
  · have hnot : ¬retry := by
      rintro ⟨h | h, htimer⟩
      · obtain hh | ⟨-, hh⟩ := hh
        · simp [h] at hh
        · exact hh ⟨.inl h, htimer⟩
      · simp [h] at hh
    have htrying : x.health = .qualifying ∨ x.health = .retryWait := hh.imp id And.left
    refine hbecome (z := { y with health := .absent, seqKnown := false }) ?_ fun c hc => hlossDue c (List.mem_singleton.1 hc)
      ((FeedRecord.lossDue_iff htick).2 (.inl ⟨.inr (.inr htrying), hl⟩))
    rw [FeedRecord.millisecond_of_not_retried htick hnot, FeedRecord.silenced_of_trying (y := y) htrying hl]
    exact FeedRecord.released_of_not_barred (by simp)
  · have hnot : ¬retry := by
      rintro ⟨h | h, -⟩
      · simp [h] at hh
      · simp [h] at hh
    refine hbecome (z := { y with health := .absent, seqKnown := false, attempts := 0 }) ?_ fun c hc =>
      hbarDue c (List.mem_singleton.1 hc) ((FeedRecord.barDue_iff htick).2 ⟨.inl hh, hb⟩)
    have hidle : y.silenced p = y := FeedRecord.silenced_of_idle fun _ => by simp [y, hh]
    rw [FeedRecord.millisecond_of_not_retried htick hnot, hidle]
    exact FeedRecord.released_of_due hh hb
  · refine hbecome ?_ fun c hc => absurd hc List.not_mem_nil
    have hidle : y.silenced p = y := FeedRecord.silenced_of_idle hl
    rw [FeedRecord.millisecond_of_not_retried htick hnot, hidle]
    by_cases hbar : bar
    · exact FeedRecord.released_of_not_barred (hb hbar)
    · exact FeedRecord.released_of_not_due hbar
  · exact exec_of_not_reached hx (due := FeedRecord.retryDue) rfl (mt (FeedRecord.retryDue_iff htick).1 hnot)
  · refine exec_of_not_reached hx (due := FeedRecord.lossDue) rfl fun hdue => ?_
    obtain ⟨hh, hl⟩ | ⟨hh, htimer, hlimit, hl⟩ := (FeedRecord.lossDue_iff htick).1 hdue
    · obtain hnot | hnot | ⟨hnot, -⟩ := hnot
      · exact hnot hl
      · obtain h | h | h | h := hh
        all_goals simp [h] at hnot
      · simp [hnot] at hh
    · obtain hnot | hnot | ⟨-, hnot | hnot | hnot⟩ := hnot
      · exact hnot hl.le
      · simp [hh] at hnot
      · exact hnot ⟨.inr hh, htimer⟩
      · exact absurd hlimit (Nat.not_lt.2 hnot)
      · exact hnot hl.symm
  · refine exec_of_not_reached hx (due := FeedRecord.barDue) rfl fun hdue => ?_
    obtain ⟨hh, hb⟩ := (FeedRecord.barDue_iff htick).1 hdue
    obtain hnot | hnot := hnot
    · exact hnot hb
    · obtain h | ⟨h, -⟩ := hh
      · simp [h] at hnot
      · simp [h] at hnot

end Sys2Proof.Machine
end

section
/-! SUPPORT. The timers of a route and of a delivery, one test at a time (O59, first part). -/

namespace Sys2Proof.Machine

section
variable {s : State} {d e f : Nat} {rt : Route} {tk : Take}

/-! ### The take timer -/

theorem ruTakeCount_of_counting (hrt : s.route d = some rt) (htake : rt.take = some tk)
    (h : tk.state = .arming ∨ tk.state = .waitSource) :
    ruTakeCount d s = s.setRoute d (some { rt with take := some { tk with timer := tk.timer + 1 } }) := by
  rw [ruTakeCount, modRoute_of_route hrt, htake, Option.map_some, if_pos (by simpa using h)]

theorem ruTakeTimeoutTest_of_arming (hmode : s.lpu.mode = .run) (hrt : s.route d = some rt) (htake : rt.take = some tk)
    (hlimit : (s.destParams d).takeTimeout ≤ tk.timer) (harming : tk.state = .arming) :
    ruTakeTimeoutTest d s = s.setRoute d (some { rt with take := (some
      { tk with state := tk.reason.armed, rough := true, slot := some (ruRoughSlot s d tk.target) }) }) := by
  unfold ruTakeTimeoutTest
  rw [hrt]
  dsimp only
  rw [htake]
  dsimp only
  rw [if_pos (by simp [hmode, hlimit]), harming]

theorem ruTakeTimeoutTest_of_waiting (hmode : s.lpu.mode = .run) (hrt : s.route d = some rt) (htake : rt.take = some tk)
    (hlimit : (s.destParams d).takeTimeout ≤ tk.timer) (hwait : tk.state = .waitSource) :
    ruTakeTimeoutTest d s = ruTakeFailed d s := by
  unfold ruTakeTimeoutTest
  rw [hrt]
  dsimp only
  rw [htake]
  dsimp only
  rw [if_pos (by simp [hmode, hlimit]), hwait]

/-- R135: the take timer has not come to its limit, or does not run. -/
theorem ruTakeTimeoutTest_of_idle (hrt : s.route d = some rt)
    (h : ∀ tk, rt.take = some tk → tk.timer < (s.destParams d).takeTimeout ∨ tk.state = .ready ∨ tk.state = .cued) :
    ruTakeTimeoutTest d s = s := by
  unfold ruTakeTimeoutTest
  rw [hrt]
  dsimp only
  cases htake : rt.take with
  | none => rfl
  | some tk =>
    dsimp only
    obtain h | h | h := h tk htake
    · rw [if_neg (by simp [h])]
    · rw [h]
      exact ite_self _
    · rw [h]
      exact ite_self _

/-- R146: no failover is taken up while the wanted feed is unusable. -/
theorem ruDeferredFailover_of_wanted_unusable (hrt : s.route d = some rt)
    (h : ∀ w, rt.wanted = some w → s.usable w = false) : ruDeferredFailover d s = s := by
  unfold ruDeferredFailover
  rw [hrt]
  split
  next r _ hr =>
    obtain rfl := Option.some.inj hr
    split
    next w _ hw => rw [if_neg (by simp [h w hw])]
    · rfl
  · rfl

/-- R136: a take fails, with no usable feed for the tests that follow. -/
theorem ruTakeFailed_of_unusable (hrt : s.route d = some rt) (htake : rt.take = some tk) (hh : s.holder d = some e)
    (htarget : s.usable tk.target = false) (hback : s.usable (s.entry e).selected = false) :
    ruTakeFailed d s = (raise .take 3 d [tk.target, tk.reason.num, (s.entry e).desc.ref, (s.destParams d).takeTimeout]
      s).setRoute d (some { rt with take := none, wanted := some tk.target }) := by
  obtain ⟨v, hv⟩ : ∃ v, v = (raise .take 3 d [tk.target, tk.reason.num, (s.entry e).desc.ref,
      (s.destParams d).takeTimeout] s).setRoute d (some { rt with take := none, wanted := some tk.target }) := ⟨_, rfl⟩
  have hroute : v.route d = some { rt with take := none, wanted := some tk.target } := hv ▸ State.route_setRoute_self ..
  have husable : ∀ g, v.usable g = s.usable g := fun g => by rw [hv]; exact raise_usable ..
  have hholder : v.holder d = some e := by rw [hv]; exact (raise_holder ..).trans hh
  have hentry : v.entry e = s.entry e := by rw [hv]; exact raise_entry ..
  have hwanted : ∀ w, some tk.target = some w → v.usable w = false := by
    rintro w ⟨⟩
    rw [husable, htarget]
  unfold ruTakeFailed
  rw [hrt]
  dsimp only
  rw [htake]
  dsimp only
  rw [holderEntry_of_holder hh, raise_setRoute]
  change ruRestore d (ruDeferredFailover d ((raise .take 3 d [tk.target, tk.reason.num, (s.entry e).desc.ref,
    (s.destParams d).takeTimeout] s).setRoute d (some { rt with take := none, wanted := some tk.target }))) = _
  rw [← hv, ruDeferredFailover_of_wanted_unusable hroute hwanted,
    ruRestore_of_unusable hholder hroute hwanted (by rw [husable, hentry, hback])]

/-! ### The freeze timer -/

/-- R144: the route at the freeze limit, with current feed `f`. -/
def Route.frozen (f : Nat) (r : Route) : Route :=
  { r with change := some .toSlate, wanted := some (r.wanted.getD f), freeze := none }

theorem dmCondition_of_toSlate (hh : s.holder d = some e) (hrt : s.route d = some rt)
    (h : rt.change = some .toSlate) : dmCondition s d = .outage := by
  unfold dmCondition
  rw [holderEntry_of_holder hh, hrt]
  dsimp only
  cases rt.source with
  | slate => rfl
  | feed f => exact if_pos h

theorem ruFreezeTest_of_limit {k : Nat} (hmode : s.lpu.mode = .run) (hrt : s.route d = some rt) (hh : s.holder d = some e)
    (hsource : rt.source = .feed f) (hfreeze : rt.freeze = some k) (hlimit : (s.destParams d).freezeLimit ≤ k) :
    ruFreezeTest d s = (raise .take 7 d [f, (s.destParams d).freezeLimit, rt.wanted.getD f]
      (s.setRoute d (some (rt.frozen f)))).setDelivery d { s.delivery d with condition := .outage } := by
  obtain ⟨v, hv⟩ : ∃ v, v = raise .take 7 d [f, (s.destParams d).freezeLimit, rt.wanted.getD f]
      (s.setRoute d (some (rt.frozen f))) := ⟨_, rfl⟩
  have hroute : v.route d = some (rt.frozen f) := by rw [hv, raise_route]; exact State.route_setRoute_self ..
  have hholder : v.holder d = some e := by rw [hv, raise_holder]; exact hh
  have hdelivery : v.delivery d = s.delivery d := by rw [hv, raise_delivery]; rfl
  have htest : ruFreezeTest d s = dmReclass d v := by
    unfold ruFreezeTest
    rw [hrt]
    dsimp only
    rw [hfreeze, hsource]
    dsimp only
    rw [if_pos (by simp [hmode, hh, hlimit]), ruFrozen, hrt, hv]
    rfl
  rw [htest, dmReclass, modDelivery, dmCondition_of_toSlate hholder hroute rfl, hdelivery, hv]

theorem ruFreezeTest_of_idle (hrt : s.route d = some rt)
    (h : ∀ k, rt.freeze = some k → k < (s.destParams d).freezeLimit) : ruFreezeTest d s = s := by
  unfold ruFreezeTest
  rw [hrt]
  dsimp only
  split
  next k f hk _ => rw [if_neg (by simp [h k hk])]
  · rfl

/-! ### The revert timer -/

theorem ruRevertHolds_of (hh : s.holder d = some e)
    (hhealth : (s.feedRec (s.entry e).selected).map FeedRecord.health = some .healthy)
    (hauto : (s.entry e).desc.autoRevert = true) (hsince : rt.failoverSince = true)
    (hsource : rt.source = .feed (s.entry e).desc.backup) (hne : (s.entry e).desc.backup ≠ (s.entry e).selected) :
    ruRevertHolds s d rt = true := by
  obtain ⟨x, hx, hhealthy⟩ := Option.map_eq_some_iff.1 hhealth
  unfold ruRevertHolds
  rw [holderEntry_of_holder hh]
  simp [hauto, hsince, hsource, hne, hx, hhealthy]

theorem usable_of_healthy {g : Nat} (h : (s.feedRec g).map FeedRecord.health = some .healthy) : s.usable g = true := by
  obtain ⟨x, hx, hhealthy⟩ := Option.map_eq_some_iff.1 h
  rw [State.usable, hx]
  exact congrArg Health.usable hhealthy

theorem ruRevertCount_of_holds (hrt : s.route d = some rt) (h : ruRevertHolds s d rt = true) (htake : rt.take = none) :
    ruRevertCount d s = s.setRoute d (some { rt with revert := rt.revert + 1 }) := by
  rw [ruRevertCount, modRoute_of_route hrt, if_pos h, htake]
  rfl

theorem ruRevertTest_of_holds (hmode : s.lpu.mode = .run) (hrt : s.route d = some rt) (hh : s.holder d = some e)
    (h : ruRevertHolds s d rt = true) (htake : rt.take = none)
    (hlimit : (s.destParams d).revertHold * 1000 ≤ rt.revert) :
    ruRevertTest d s = ruRequestTake d (s.entry e).selected .revert (s.setRoute d (some { rt with revert := 0 })) := by
  unfold ruRevertTest
  rw [holderEntry_of_holder hh, hrt]
  dsimp only
  rw [if_pos (by simp [hmode, h, htake, hlimit])]

/-- R148: no revert take is requested. -/
theorem ruRevertTest_of_idle (hrt : s.route d = some rt) (h : rt.revert < (s.destParams d).revertHold * 1000 ∨
    ruRevertHolds s d rt = false ∨ rt.take ≠ none) : ruRevertTest d s = s := by
  unfold ruRevertTest
  rw [hrt]
  split
  next r _ hr =>
    obtain rfl := Option.some.inj hr
    rw [if_neg]
    obtain h | h | h := h
    · simp [h]
    · simp [h]
    · simp [h]
  · rfl

/-- R131, R148: the revert take as it is requested, armed at `slot`. -/
theorem ruRequestTake_of_found {g slot : Nat} (hmode : s.lpu.mode = .run) (hrt : s.route d = some rt)
    (husable : s.usable g = true) (hsearch : ruSearch s d g = some slot) (reason : TakeReason) :
    ruRequestTake d g reason s = raise .take 1 d [g, reason.num, reason.armed.num, (rt.take.map Take.target).getD 255]
      (s.setRoute d (some { rt with take := some ⟨g, reason, reason.armed, some slot, false, 0⟩ })) := by
  rw [ruRequestTake_of_run hmode hrt, requested_of_found husable hsearch, raise_setRoute]

/-! ### The adaptation period and the impairment hold -/

theorem dmPeriodTest_of_due (hrt : s.route d = some rt) (h : 10000 ≤ (s.delivery d).periodCount) :
    dmPeriodTest d s = dmPeriodEnd d s := by
  rw [dmPeriodTest, hrt, if_pos (by simp [h])]

theorem dmPeriodTest_of_idle (h : (s.delivery d).periodCount < 10000) : dmPeriodTest d s = s := by
  rw [dmPeriodTest, if_neg (by simp [h])]

theorem dmPeriodEnd_of_raised (hrt : s.route d = some rt) (hchange : rt.change = none) (hadapt : (s.delivery d).adapt = true)
    (hrepeats : 3 ≤ (s.delivery d).periodRepeats) (hlag : (s.delivery d).lag < (s.delivery d).lagMax) :
    dmPeriodEnd d s = (raise .slip 4 d [(s.delivery d).lag + 1, (s.delivery d).lagMax, (s.delivery d).periodRepeats, 0]
      ((s.setDelivery d { s.delivery d with lag := (s.delivery d).lag + 1 }).setRoute d
        (some { rt with change := some .lagRepeat }))).setDelivery d
      { s.delivery d with lag := (s.delivery d).lag + 1, periodCount := 0, periodRepeats := 0 } := by
  have hask : dmAskLagRepeat d (s.setDelivery d { s.delivery d with lag := (s.delivery d).lag + 1 }) =
      (s.setDelivery d { s.delivery d with lag := (s.delivery d).lag + 1 }).setRoute d
        (some { rt with change := some .lagRepeat }) := by
    have hroute : (s.setDelivery d { s.delivery d with lag := (s.delivery d).lag + 1 }).route d = some rt := hrt
    rw [dmAskLagRepeat, modRoute_of_route hroute, hchange]
  obtain ⟨v, hv⟩ : ∃ v, v = raise .slip 4 d [(s.delivery d).lag + 1, (s.delivery d).lagMax, (s.delivery d).periodRepeats, 0]
      ((s.setDelivery d { s.delivery d with lag := (s.delivery d).lag + 1 }).setRoute d
        (some { rt with change := some .lagRepeat })) := ⟨_, rfl⟩
  have hdelivery : v.delivery d = { s.delivery d with lag := (s.delivery d).lag + 1 } := by
    rw [hv, raise_delivery]
    exact State.delivery_setDelivery_self ..
  unfold dmPeriodEnd
  dsimp only
  rw [if_pos (by simp [hadapt, hrepeats, hlag]), modDelivery_eq d _ s, hask, ← hv, modDelivery_eq, hdelivery]

theorem dmPeriodEnd_of_kept (h : (s.delivery d).adapt = false ∨ (s.delivery d).periodRepeats < 3 ∨
    (s.delivery d).lagMax ≤ (s.delivery d).lag) :
    dmPeriodEnd d s = s.setDelivery d { s.delivery d with periodCount := 0, periodRepeats := 0 } := by
  unfold dmPeriodEnd
  dsimp only
  rw [if_neg, modDelivery_eq]
  obtain h | h | h := h
  · simp [h]
  · simp [h]
  · simp [h]

theorem dmImpairmentTick_of_zero (h : (s.delivery d).impairment = 0) : dmImpairmentTick d s = s := by
  rw [dmImpairmentTick, if_neg (by simp [h])]

theorem dmImpairmentTick_of_more (h : 1 < (s.delivery d).impairment) : dmImpairmentTick d s =
    s.setDelivery d { s.delivery d with impairment := (s.delivery d).impairment - 1 } := by
  unfold dmImpairmentTick
  rw [if_pos (by omega), modDelivery_eq]
  dsimp only
  rw [State.delivery_setDelivery_self]
  exact if_neg (by dsimp only; omega)

/-- Table 8-6 for a healthy feed after the impairment hold. -/
theorem dmCondition_of_clean {y : FeedRecord} (hh : s.holder d = some e) (hrt : s.route d = some rt)
    (hsource : rt.source = .feed f) (hchange : rt.change ≠ some .toSlate) (hy : s.feedRec f = some y)
    (hhealth : y.health = .healthy) (htest : y.testSignal = false) (hbill : (s.entry e).desc.billBackupDegraded = false)
    (himpair : (s.delivery d).impairment = 0) : dmCondition s d = .clean := by
  unfold dmCondition
  rw [holderEntry_of_holder hh, hrt]
  dsimp only
  rw [hsource]
  dsimp only
  rw [if_neg hchange, hy]
  simp [hhealth, htest, hbill, himpair, Health.usable]

theorem dmImpairmentTick_of_end {y : FeedRecord} (h : (s.delivery d).impairment = 1) (hh : s.holder d = some e)
    (hrt : s.route d = some rt) (hsource : rt.source = .feed f) (hchange : rt.change ≠ some .toSlate)
    (hy : s.feedRec f = some y) (hhealth : y.health = .healthy) (htest : y.testSignal = false)
    (hbill : (s.entry e).desc.billBackupDegraded = false) :
    dmImpairmentTick d s = s.setDelivery d { s.delivery d with impairment := 0, condition := .clean } := by
  have hclean : dmCondition (s.setDelivery d { s.delivery d with impairment := 0 }) d = .clean :=
    dmCondition_of_clean (s := s.setDelivery d { s.delivery d with impairment := 0 }) hh hrt hsource hchange hy hhealth
      htest hbill (by rw [State.delivery_setDelivery_self])
  unfold dmImpairmentTick
  rw [if_pos (by omega), modDelivery_eq, h]
  change (if ((s.setDelivery d { s.delivery d with impairment := 0 }).delivery d).impairment = 0 then
    dmReclass d (s.setDelivery d { s.delivery d with impairment := 0 }) else _) = _
  rw [State.delivery_setDelivery_self, if_pos rfl, dmReclass, hclean, modDelivery_eq, State.delivery_setDelivery_self,
    setDelivery_setDelivery]

end

/-! ### The first two parts of O59 -/

theorem routeTimers (s : State) (d : Nat) (rt : Route) (hmode : s.lpu.mode = .run) (hrt : s.route d = some rt) :
    let par := s.destParams d
    (ruMillisecond d s =
      ruRevertTest d (ruRevertCount d (ruFreezeTest d (ruFreezeCount d (ruTakeTimeoutTest d (ruTakeCount d s)))))) ∧
    (∀ tk, rt.take = some tk → (tk.state = .arming ∨ tk.state = .waitSource) →
      ruTakeCount d s = s.setRoute d (some { rt with take := (some { tk with timer := tk.timer + 1 }) })) ∧
    (∀ tk, rt.take = some tk → par.takeTimeout ≤ tk.timer →
      (tk.state = .arming → ruTakeTimeoutTest d s = s.setRoute d (some { rt with take := (some
        { tk with state := (if tk.reason = .cue then .cued else .ready), rough := true,
                  slot := some (modSub s.ringDepth (s.lastSlot tk.target) (s.delivery d).lag) }) })) ∧
      (∀ e, tk.state = .waitSource → s.holder d = some e → s.usable tk.target = false →
        s.usable (s.entry e).selected = false →
        Raised .take 3 d [tk.target, tk.reason.num, (s.entry e).desc.ref, par.takeTimeout]
          (s.setRoute d (some { rt with take := none, wanted := some tk.target })) (ruTakeTimeoutTest d s))) ∧
    ((∀ tk, rt.take = some tk → tk.timer < par.takeTimeout) → ruTakeTimeoutTest d s = s) ∧
    (∀ k, rt.freeze = some k → ruFreezeCount d s = s.setRoute d (some { rt with freeze := some (k + 1) })) ∧
    (∀ e f k, s.holder d = some e → rt.source = .feed f → rt.freeze = some k → par.freezeLimit ≤ k →
      let wanted := rt.wanted.getD f
      let u := s.setRoute d (some { rt with change := (some .toSlate), wanted := some wanted, freeze := none })
      ∃ v, Raised .take 7 d [f, par.freezeLimit, wanted] u v ∧
        ruFreezeTest d s = v.setDelivery d { s.delivery d with condition := .outage }) ∧
    ((∀ k, rt.freeze = some k → k < par.freezeLimit) → ruFreezeTest d s = s) ∧
    (∀ e slot, s.holder d = some e →
      let x := s.entry e
      (s.feedRec x.selected).map FeedRecord.health = some .healthy → ruSearch s d x.selected = some slot →
      x.desc.autoRevert = true → rt.failoverSince = true → rt.source = .feed x.desc.backup →
      x.desc.backup ≠ x.selected → rt.take = none →
      ruRevertCount d s = s.setRoute d (some { rt with revert := rt.revert + 1 }) ∧
      (par.revertHold * 1000 ≤ rt.revert → Raised .take 1 d [x.selected, 6, 4, 255]
        (s.setRoute d (some
          { rt with revert := 0, take := some ⟨x.selected, .revert, .ready, some slot, false, 0⟩ }))
        (ruRevertTest d s))) ∧
    (rt.revert < par.revertHold * 1000 → ruRevertTest d s = s) := by
  intro par
  refine ⟨?_, fun tk htake hstate => ruTakeCount_of_counting hrt htake hstate, fun tk htake hlimit => ⟨fun hstate => ?_,
    fun e hstate hh htarget hback => ?_⟩, fun h => ruTakeTimeoutTest_of_idle hrt fun tk htake => .inl (h tk htake),
    fun k hfreeze => ?_, fun e f k hh hsource hfreeze hlimit => ?_, fun h => ruFreezeTest_of_idle hrt h,
    fun e slot hh => ?_, fun h => ruRevertTest_of_idle hrt (.inl h)⟩
  · rw [ruMillisecond, if_pos (by simp [hmode])]
  · rw [ruTakeTimeoutTest_of_arming hmode hrt htake hlimit hstate]
    cases tk.reason <;> rfl
  · rw [ruTakeTimeoutTest_of_waiting hmode hrt htake hlimit hstate, ruTakeFailed_of_unusable hrt htake hh htarget hback,
      ← raise_setRoute]
    exact raise_raised ..
  · rw [ruFreezeCount, modRoute_of_route hrt, hfreeze]
    rfl
  · exact ⟨_, raise_raised .., ruFreezeTest_of_limit hmode hrt hh hsource hfreeze hlimit⟩
  · intro x hhealth hsearch hauto hsince hsource hne htake
    have hholds := ruRevertHolds_of hh hhealth hauto hsince hsource hne
    refine ⟨ruRevertCount_of_holds hrt hholds htake, fun hlimit => ?_⟩
    rw [ruRevertTest_of_holds hmode hrt hh hholds htake hlimit,
      ruRequestTake_of_found (s := s.setRoute d (some { rt with revert := 0 })) (rt := { rt with revert := 0 }) hmode
        (State.route_setRoute_self ..) (usable_of_healthy hhealth) hsearch, setRoute_setRoute, htake]
    exact raise_raised ..

theorem deliveryTimers (s : State) (d : Nat) (rt : Route) (hrt : s.route d = some rt) :
    let x := s.delivery d
    (10000 ≤ x.periodCount → x.adapt = true → 3 ≤ x.periodRepeats → x.lag < x.lagMax → rt.change = none →
      ∃ v, Raised .slip 4 d [x.lag + 1, x.lagMax, x.periodRepeats, 0]
          ((s.setDelivery d { x with lag := x.lag + 1 }).setRoute d (some { rt with change := (some .lagRepeat) })) v ∧
        dmPeriodTest d s = v.setDelivery d { x with lag := x.lag + 1, periodCount := 0, periodRepeats := 0 }) ∧
    (10000 ≤ x.periodCount → x.adapt = false ∨ x.periodRepeats < 3 ∨ x.lagMax ≤ x.lag →
      dmPeriodTest d s = s.setDelivery d { x with periodCount := 0, periodRepeats := 0 }) ∧
    (x.periodCount < 10000 → dmPeriodTest d s = s) ∧
    (∀ e f y, x.impairment = 1 → s.holder d = some e → rt.source = .feed f → rt.change ≠ some .toSlate →
      s.feedRec f = some y → y.health = .healthy → y.testSignal = false → (s.entry e).desc.billBackupDegraded = false →
      dmImpairmentTick d s = s.setDelivery d { x with impairment := 0, condition := .clean }) ∧
    (1 < x.impairment → dmImpairmentTick d s = s.setDelivery d { x with impairment := x.impairment - 1 }) ∧
    (x.impairment = 0 → dmImpairmentTick d s = s) := by
  intro x
  refine ⟨fun hdue hadapt hrepeats hlag hchange => ⟨_, raise_raised .., ?_⟩, fun hdue h => ?_, dmPeriodTest_of_idle,
    fun e f y himpair hh hsource hchange hy hhealth htest hbill =>
      dmImpairmentTick_of_end himpair hh hrt hsource hchange hy hhealth htest hbill,
    dmImpairmentTick_of_more, dmImpairmentTick_of_zero⟩
  · rw [dmPeriodTest_of_due hrt hdue]
    exact dmPeriodEnd_of_raised hrt hchange hadapt hrepeats hlag
  · rw [dmPeriodTest_of_due hrt hdue]
    exact dmPeriodEnd_of_kept h

end Sys2Proof.Machine
end

section
/-! SUPPORT. The local millisecond event seen from one destination, where no limit, no feed and no second is due (O59). -/

namespace Sys2Proof.Machine

/-! ### The surroundings of a destination -/

/-- The bookings of `t` have the descriptors and selected feeds of those of `s`. -/
def SeenSame (s t : State) : Prop := ∀ e, (t.entry e).desc = (s.entry e).desc ∧ (t.entry e).selected = (s.entry e).selected

theorem SeenSame.trans {s t u : State} (h : SeenSame s t) (k : SeenSame t u) : SeenSame s u :=
  fun e => ⟨(k e).1.trans (h e).1, (k e).2.trans (h e).2⟩

theorem SeenSame.of_bt {s t : State} (h : t.bt = s.bt) : SeenSame s t := fun e => by
  rw [State.entry, h]
  exact ⟨rfl, rfl⟩

/-- What the timers of `d` look at, its route and delivery apart, is in `t` as in `s`. -/
structure SameEnv (d : Nat) (s t : State) : Prop where
  params : t.destParams d = s.destParams d
  ga : t.ga = s.ga
  mode : t.lpu.mode = s.lpu.mode
  depth : t.lpu.depth = s.lpu.depth
  fm : t.fm = s.fm

/-- The route and the delivery of `d` are in `t` as in `s`. -/
structure SameOwn (d : Nat) (s t : State) : Prop where
  route : t.route d = s.route d
  delivery : t.delivery d = s.delivery d

/-- All that the timers of `d` look at is in `t` as in `s`. -/
structure SameAt (d : Nat) (s t : State) : Prop where
  env : SameEnv d s t
  own : SameOwn d s t
  seen : SeenSame s t

theorem SameEnv.refl (d : Nat) (s : State) : SameEnv d s s := ⟨rfl, rfl, rfl, rfl, rfl⟩

theorem SameEnv.trans {d : Nat} {s t u : State} (h : SameEnv d s t) (k : SameEnv d t u) : SameEnv d s u :=
  ⟨k.params.trans h.params, k.ga.trans h.ga, k.mode.trans h.mode, k.depth.trans h.depth, k.fm.trans h.fm⟩

theorem SameOwn.refl (d : Nat) (s : State) : SameOwn d s s := ⟨rfl, rfl⟩

theorem SameOwn.trans {d : Nat} {s t u : State} (h : SameOwn d s t) (k : SameOwn d t u) : SameOwn d s u :=
  ⟨k.route.trans h.route, k.delivery.trans h.delivery⟩

theorem SameAt.refl (d : Nat) (s : State) : SameAt d s s := ⟨.refl d s, .refl d s, .of_bt rfl⟩

theorem SameAt.trans {d : Nat} {s t u : State} (h : SameAt d s t) (k : SameAt d t u) : SameAt d s u :=
  ⟨h.env.trans k.env, h.own.trans k.own, h.seen.trans k.seen⟩

/-- No act of a route or a delivery changes the surroundings. -/
theorem sameEnv_routing (d : Nat) (s : State) : Routing (fun _ => True) (fun _ => False) (SameEnv d s) where
  raise h := h.trans ⟨raise_destParams .., raise_ga .., raise_lpu_mode .., raise_lpu_depth .., raise_fm ..⟩
  route _ h := h.trans ⟨rfl, rfl, rfl, rfl, rfl⟩
  delivery _ h := h.trans ⟨rfl, rfl, rfl, rfl, rfl⟩
  feed hf _ := hf.elim
  counts _ h := h.trans ⟨rfl, rfl, rfl, rfl, rfl⟩

/-- An act of another destination does not change the route and the delivery of `d`. -/
theorem sameOwn_routing (d : Nat) (s : State) : Routing (fun i => i ≠ d) (fun _ => False) (SameOwn d s) where
  raise h := h.trans ⟨raise_route .., raise_delivery ..⟩
  route hi h := h.trans ⟨State.route_setRoute_of_ne _ _ (Ne.symm hi), rfl⟩
  delivery hi h := h.trans ⟨rfl, State.delivery_setDelivery_of_ne _ _ (Ne.symm hi)⟩
  feed hf _ := hf.elim
  counts _ h := h.trans ⟨rfl, rfl⟩

/-! ### The bookings under the timers -/

theorem ruDeferredFailover_seen (d : Nat) (s : State) : SeenSame s (ruDeferredFailover d s) := by
  have hfailover : ∀ e target, SeenSame s (ruFailoverTake d e target s) := by
    intro e target i
    unfold ruFailoverTake
    by_cases hi : i = e
    · subst hi
      rw [entry_modEntry_self, ruRequestTake_entry]
      exact ⟨rfl, rfl⟩
    · rw [modEntry_entry_of_ne hi, ruRequestTake_entry]
      exact ⟨rfl, rfl⟩
  unfold ruDeferredFailover
  split
  · split
    · split
      · exact hfailover _ _
      · exact .of_bt rfl
    · exact .of_bt rfl
  · exact .of_bt rfl

theorem ruTakeTimeoutTest_seen (d : Nat) (s : State) : SeenSame s (ruTakeTimeoutTest d s) := by
  unfold ruTakeTimeoutTest
  split
  · exact .of_bt rfl
  next r hr =>
    split
    · exact .of_bt rfl
    next t ht =>
      split
      · split
        · exact .of_bt rfl
        · unfold ruTakeFailed
          rw [hr]
          dsimp only
          rw [ht]
          refine SeenSame.trans ?_ ((ruDeferredFailover_seen d _).trans (.of_bt (ruRestore_bt ..)))
          exact .of_bt (raise_bt ..)
        · exact .of_bt rfl
      · exact .of_bt rfl

theorem ruRevertTest_bt (d : Nat) (s : State) : (ruRevertTest d s).bt = s.bt := by
  unfold ruRevertTest
  split
  · split
    · exact ruRequestTake_bt ..
    · rfl
  · rfl

/-- The state in which the revert timer is tested (R150). -/
def ruBeforeRevert (d : Nat) (s : State) : State :=
  ruRevertCount d (ruFreezeTest d (ruFreezeCount d (ruTakeTimeoutTest d (ruTakeCount d s))))

theorem ruMillisecond_eq {s : State} (h : s.lpu.mode = .run) (d : Nat) :
    ruMillisecond d s = ruRevertTest d (ruBeforeRevert d s) := by
  rw [ruMillisecond, if_pos (by simp [h])]
  rfl

theorem ruBeforeRevert_seen (d : Nat) (s : State) : SeenSame s (ruBeforeRevert d s) := by
  have hcount : SeenSame s (ruTakeCount d s) := .of_bt (modRoute_bt ..)
  have htimeout := hcount.trans (ruTakeTimeoutTest_seen d _)
  have hfreeze := htimeout.trans (.of_bt (modRoute_bt d _ _) : SeenSame _ (ruFreezeCount d _))
  have htest := hfreeze.trans (.of_bt (ruFreezeTest_bt d _))
  exact htest.trans (.of_bt (modRoute_bt ..))

theorem ruMillisecond_seen (d : Nat) (s : State) : SeenSame s (ruMillisecond d s) := by
  by_cases h : s.lpu.mode = .run
  · rw [ruMillisecond_eq h]
    exact (ruBeforeRevert_seen d s).trans (.of_bt (ruRevertTest_bt ..))
  · rw [ruMillisecond, if_neg (by simpa using h)]
    exact .of_bt rfl

theorem dmImpairmentTick_bt (d : Nat) (s : State) : (dmImpairmentTick d s).bt = s.bt := by
  unfold dmImpairmentTick
  split
  · dsimp only
    split <;> rfl
  · rfl

theorem dmPeriodEnd_bt (d : Nat) (s : State) : (dmPeriodEnd d s).bt = s.bt := by
  unfold dmPeriodEnd
  dsimp only
  split
  · exact (raise_bt ..).trans (dmAskLagRepeat_bt ..)
  · rfl

theorem dmMillisecond_bt (d : Nat) (s : State) : (dmMillisecond d s).bt = s.bt := by
  unfold dmMillisecond dmPeriodTest
  split
  · dsimp only
    split
    · exact (dmPeriodEnd_bt ..).trans (dmImpairmentTick_bt d s)
    · exact dmImpairmentTick_bt d s
  · rfl

theorem dmMillisecond_sameAt {d i : Nat} (hi : i ≠ d) (s : State) : SameAt d s (dmMillisecond i s) :=
  ⟨(sameEnv_routing d s).dmMillisecond trivial (.refl d s), (sameOwn_routing d s).dmMillisecond hi (.refl d s),
    .of_bt (dmMillisecond_bt i s)⟩

theorem ruMillisecond_sameAt {d i : Nat} (hi : i ≠ d) (s : State) : SameAt d s (ruMillisecond i s) :=
  ⟨(sameEnv_routing d s).ruMillisecond trivial (.refl d s), (sameOwn_routing d s).ruMillisecond hi (.refl d s),
    ruMillisecond_seen i s⟩

/-! ### A treatment of every destination, seen from one -/

theorem forAll_sameAt {d : Nat} {g : Nat → State → State} (hother : ∀ i s, i ≠ d → SameAt d s (g i s)) {n : Nat}
    (hn : n ≤ d) (s : State) : SameAt d s (forAll n g s) := by
  induction n with
  | zero => exact .refl d s
  | succ n ih =>
    rw [forAll_succ]
    exact (ih (by omega)).trans (hother n _ (by omega))

theorem forAll_at {d : Nat} {g : Nat → State → State} (hother : ∀ i s, i ≠ d → SameAt d s (g i s)) {n : Nat}
    (hn : d < n) (s : State) : ∃ u, SameAt d s u ∧ SameAt d (g d u) (forAll n g s) := by
  induction n with
  | zero => omega
  | succ n ih =>
    rw [forAll_succ]
    obtain rfl | hlt := Nat.eq_or_lt_of_le (Nat.le_of_lt_succ hn)
    · exact ⟨_, forAll_sameAt hother le_rfl s, .refl ..⟩
    · obtain ⟨u, hu, hall⟩ := ih hlt
      exact ⟨u, hu, hall.trans (hother n _ (by omega))⟩

/-! ### The rest of the event -/

/-- R105: the totals of every booking are those of `x`, one for each entry. -/
def Totals (x : Nat → Entry) (s : State) : Prop := ∀ e, (x e).Counted (s.entry e)

theorem totals_reading (x : Nat → Entry) : Reading (fun _ => True) (fun _ => True) (Totals x) where
  raise h e := (raise_entry ..).symm ▸ h e
  route _ h e := h e
  delivery _ h e := h e
  feed _ h e := h e
  counts {i y s} hy h e := by
    by_cases hi : e = i
    · subst hi
      rw [State.entry_setEntry_self]
      exact (h e).trans hy
    · rw [State.entry_setEntry_of_ne _ _ hi]
      exact h e
  latch _ h e := h e
  forward h e := (lpuForward_entry ..).symm ▸ h e
  hold _ _ _ h e := h e
  join _ h e := h e
  free _ h e := h e

theorem Entry.Counted.limit {x y : Entry} (h : x.Counted y) (st : BookingState) : y.limit st = x.limit st := by
  rw [h]
  rfl

/-- R105: no booking reaches a limit. -/
theorem btLimits_of_idle {taken : List (Nat × BookingState)} {s : State}
    (h : ∀ p ∈ taken, (s.entry p.1).limit p.2 = none) : btLimits taken s = s := by
  unfold btLimits
  induction taken with
  | nil => rfl
  | cons p l ih =>
    have htest : btLimitTest p.1 p.2 s = s := by
      unfold btLimitTest
      rw [h p List.mem_cons_self]
      exact ite_self _
    rw [List.foldl_cons, htest]
    exact ih fun q hq => h q (List.mem_cons_of_mem _ hq)

/-- R82 to R85: a millisecond of a feed that reaches no interval only counts. -/
theorem fmMillisecond_of_idle {s : State} {f : Nat}
    (h : ∀ r, s.feedRec f = some r → r.retryDue (s.feedParams f) = false ∧ r.lossDue (s.feedParams f) = false ∧
      r.barDue (s.feedParams f) = false) : (fmMillisecond f s).ru = s.ru ∧ (fmMillisecond f s).dm = s.dm := by
  cases hx : s.feedRec f with
  | none =>
    rw [fmMillisecond_of_no_feed hx]
    exact ⟨rfl, rfl⟩
  | some x =>
    obtain ⟨hretry, hloss, hbar⟩ := h x hx
    obtain ⟨v, hv⟩ : ∃ v, v = s.setFeedRec f (some x.tick) := ⟨_, rfl⟩
    have hvx : v.feedRec f = some x.tick := hv ▸ State.feedRec_setFeedRec_self ..
    have hvp : v.feedParams f = s.feedParams f := by rw [hv]; rfl
    have htick : modFeed f FeedRecord.tick s = v := by rw [modFeed, hx, hv]
    have hretried : fmRetryTest f v = v := by
      unfold fmRetryTest
      rw [hvx]
      dsimp only
      rw [hvp]
      split
      next htimer =>
        have hnot : ¬((x.health = .retryWait ∨ x.health = .failed) ∧ (s.feedParams f).retryInterval ≤ x.tick.stateTimer) :=
          mt (FeedRecord.retryDue_iff (y := x.tick) rfl).2 (by simp [hretry])
        change (match x.health with
          | .retryWait => _
          | .failed => _
          | _ => v) = v
        cases hh : x.health
        case retryWait => exact absurd ⟨.inl hh, htimer⟩ hnot
        case failed => exact absurd ⟨.inr hh, htimer⟩ hnot
        all_goals rfl
      · rfl
    have hlossed : fmLossTest f v = v := by
      unfold fmLossTest
      rw [hvx]
      dsimp only
      rw [hvp]
      split
      next hsilence =>
        have hnot := mt (FeedRecord.lossDue_iff (p := s.feedParams f) (y := x.tick) rfl).2 (by simp [hloss])
        change (match x.health with
          | .healthy => _
          | .degraded => _
          | .qualifying => _
          | .retryWait => _
          | _ => v) = v
        cases hh : x.health
        case healthy => exact absurd (.inl ⟨by simp [hh], hsilence⟩) hnot
        case degraded => exact absurd (.inl ⟨by simp [hh], hsilence⟩) hnot
        case qualifying => exact absurd (.inl ⟨by simp [hh], hsilence⟩) hnot
        case retryWait => exact absurd (.inl ⟨by simp [hh], hsilence⟩) hnot
        all_goals rfl
      · rfl
    have hbarred : fmBarTest f v = v := by
      have hnot := mt (FeedRecord.barDue_iff (p := s.feedParams f) (y := x.tick) rfl).2 (by simp [hbar])
      unfold fmBarTest
      rw [hvx]
      dsimp only
      rw [hvp, if_neg]
      intro hdue
      simp only [Bool.and_eq_true, beq_iff_eq, bne_iff_ne, decide_eq_true_eq] at hdue
      exact hnot ⟨.inl hdue.1.1, hdue.1.2, hdue.2⟩
    have hall : fmMillisecond f s = v := by
      unfold fmMillisecond
      rw [hx]
      dsimp only
      rw [htick, hretried, hlossed, hbarred]
      exact ite_self _
    rw [hall, hv]
    exact ⟨rfl, rfl⟩

theorem forAll_fmMillisecond_of_idle {s : State} {n : Nat}
    (h : ∀ f < n, ∀ r, s.feedRec f = some r → r.retryDue (s.feedParams f) = false ∧
      r.lossDue (s.feedParams f) = false ∧ r.barDue (s.feedParams f) = false) :
    (forAll n fmMillisecond s).ru = s.ru ∧ (forAll n fmMillisecond s).dm = s.dm := by
  have hlater : ∀ k, (∀ g, k ≤ g → (forAll k fmMillisecond s).feedRec g = s.feedRec g) ∧
      (forAll k fmMillisecond s).fm.params = s.fm.params := by
    intro k
    refine ⟨fun g hg => ?_, forAll_keeps (fun t => t.fm.params) fmMillisecond_params k s⟩
    have heach : ((forAll k fmMillisecond s).feedRec g, (forAll k fmMillisecond s).feedParams g) =
        (s.feedRec g, s.feedParams g) :=
      (forAll_each (fun t g => (t.feedRec g, t.feedParams g)) (fun _ => feedTicked) fmMillisecond_own
        (fun f g t hg => fmMillisecond_other hg t) k s g).trans (if_neg (by omega))
    exact congrArg Prod.fst heach
  induction n with
  | zero => exact ⟨rfl, rfl⟩
  | succ n ih =>
    obtain ⟨hru, hdm⟩ := ih fun f hf => h f (by omega)
    obtain ⟨hrecord, hparams⟩ := hlater n
    have hidle := fmMillisecond_of_idle (s := forAll n fmMillisecond s) (f := n) (by
      rw [hrecord n le_rfl, feedParams_congr hparams]
      exact h n (by omega))
    rw [forAll_succ]
    exact ⟨hidle.1.trans hru, hidle.2.trans hdm⟩

/-! ### The event -/

/-- R105: a millisecond that brings no total to its limit. -/
theorem limit_accrued_of_idle {x : Entry} {c : Condition}
    (h : (x.state = .live → x.meters.window + 1 < 86400000) ∧
      (x.state = .overrun → x.meters.over + 1 < x.desc.allowance * 60000) ∧
      (x.state = .suspended → x.meters.su + 1 < 86400000)) :
    ({ x with meters := x.meters.accrue x.state c } : Entry).limit x.state = none := by
  obtain ⟨hlive, hover, hsuspended⟩ := h
  obtain ⟨hwindow, hoverrun, hsu⟩ := x.meters.accrue_le x.state c
  unfold Entry.limit
  split
  next hst =>
    have := hlive hst
    exact if_neg (by dsimp only; omega)
  next hst =>
    have := hover hst
    exact if_neg (by dsimp only; omega)
  next hst =>
    have := hsuspended hst
    exact if_neg (by dsimp only; omega)
  · rfl

/-- R105, R49: where only timers are due, the event ends with the timers of the routes and the counts of the feeds. -/
theorem millisecondEvent_of_onlyTimers {s : State} (h : OnlyTimersDue s) :
    (millisecondEvent s).ru = (forAll 48 ruMillisecond (forAll 48 dmMillisecond
        (forAll 128 muAccrue (s.withTb s.tb.advance)))).ru ∧
      (millisecondEvent s).dm = (forAll 48 ruMillisecond (forAll 48 dmMillisecond
        (forAll 128 muAccrue (s.withTb s.tb.advance)))).dm := by
  obtain ⟨hmillis, hseconds, hmeters, hfeeds⟩ := h
  obtain ⟨u, hu⟩ : ∃ u, u = forAll 48 ruMillisecond (forAll 48 dmMillisecond
    (forAll 128 muAccrue (s.withTb s.tb.advance))) := ⟨_, rfl⟩
  let x : Nat → Entry := (forAll 128 muAccrue (s.withTb s.tb.advance)).entry
  have haccrued : Totals x (forAll 128 muAccrue (s.withTb s.tb.advance)) := fun e => .refl _
  have hdm := forAll_preserves (P := Totals x) (g := dmMillisecond)
    (fun d t ht => (totals_reading x).dmMillisecond trivial ht) 48 haccrued
  have hru := forAll_preserves (P := Totals x) (g := ruMillisecond)
    (fun d t ht => (totals_reading x).ruMillisecond trivial ht) 48 hdm
  have hfm := forAll_preserves (P := Totals x) (g := fmMillisecond)
    (fun f t ht => (totals_reading x).fmMillisecond (fun _ => trivial) ht trivial) 64 hru
  rw [← hu] at hfm
  have hlimits : ∀ p ∈ entryStates s, ((forAll 64 fmMillisecond u).entry p.1).limit p.2 = none := by
    intro p hp
    obtain ⟨e, he, rfl⟩ := List.mem_map.1 hp
    have he : e < 128 := List.mem_range.1 he
    have hx : x e = { s.entry e with
        meters := (s.entry e).meters.accrue (s.entry e).state (s.delivery (s.entry e).desc.dest).condition } :=
      accrued_entry (s.withTb s.tb.advance) he
    have hcounted : (x e).Counted ((forAll 64 fmMillisecond u).entry e) := hfm e
    change ((forAll 64 fmMillisecond u).entry e).limit (s.entry e).state = none
    rw [hcounted.limit, hx]
    exact limit_accrued_of_idle (hmeters e he)
  have htb : (forAll 64 fmMillisecond u).tb = s.tb.advance := by
    have haccrued := forAll_preserves (P := fun t => t.tb = s.tb.advance) (g := muAccrue)
      (fun e t ht => (tb_firing _).muAccrue ht e) 128 (s := s.withTb s.tb.advance) rfl
    have hdm := forAll_preserves (P := fun t => t.tb = s.tb.advance) (g := dmMillisecond)
      (fun d t ht => (tb_firing _).dmMillisecond trivial ht) 48 haccrued
    have hru := forAll_preserves (P := fun t => t.tb = s.tb.advance) (g := ruMillisecond)
      (fun d t ht => (tb_firing _).ruMillisecond trivial ht) 48 hdm
    rw [← hu] at hru
    exact forAll_preserves (P := fun t => t.tb = s.tb.advance) (g := fmMillisecond)
      (fun f t ht => (tb_firing _).fmMillisecond (fun _ => trivial) ht trivial) 64 hru
  have hfmu : u.fm = s.fm := by
    have haccrued := forAll_preserves (P := fun t => t.fm = s.fm) (g := muAccrue)
      (fun e t ht => (fm_firing _).muAccrue ht e) 128 (s := s.withTb s.tb.advance) rfl
    have hdm := forAll_preserves (P := fun t => t.fm = s.fm) (g := dmMillisecond)
      (fun d t ht => (fm_firing _).dmMillisecond trivial ht) 48 haccrued
    rw [hu]
    exact forAll_preserves (P := fun t => t.fm = s.fm) (g := ruMillisecond)
      (fun d t ht => (fm_firing _).ruMillisecond trivial ht) 48 hdm
  have hidle := forAll_fmMillisecond_of_idle (s := u) (n := 64) (by
    intro f hf r hr
    rw [feedParams_congr (congrArg Fm.params hfmu)]
    rw [feedRec_congr hfmu] at hr
    exact hfeeds f hf r hr)
  have hevent : millisecondEvent s = forAll 64 fmMillisecond u := by
    unfold millisecondEvent tbReport
    dsimp only
    rw [← hu, btLimits_of_idle hlimits, htb, Tb.advance, if_pos hmillis]
    exact if_neg (Nat.not_lt.2 hseconds)
  rw [hevent, ← hu]
  exact hidle

/-- The event seen from destination `d`: its delivery's millisecond, then its route's. -/
theorem millisecondEvent_at {s : State} (h : OnlyTimersDue s) {d : Nat} (hd : d < 48) :
    ∃ u v, SameAt d s u ∧ SameAt d (dmMillisecond d u) v ∧
      (millisecondEvent s).route d = (ruMillisecond d v).route d ∧
      (millisecondEvent s).delivery d = (ruMillisecond d v).delivery d := by
  obtain ⟨hru, hdm⟩ := millisecondEvent_of_onlyTimers h
  have haccrue : ∀ i t, SameAt d t (muAccrue i t) := by
    intro i t
    refine ⟨⟨rfl, rfl, rfl, rfl, rfl⟩, ⟨rfl, rfl⟩, fun e => ?_⟩
    by_cases he : e = i
    · subst he
      rw [muAccrue, entry_modEntry_self]
      exact ⟨rfl, rfl⟩
    · rw [muAccrue, modEntry_entry_of_ne he]
      exact ⟨rfl, rfl⟩
  have haccrued := forAll_preserves (P := SameAt d s) (g := muAccrue) (fun i t ht => ht.trans (haccrue i t)) 128
    (s := s.withTb s.tb.advance) ⟨⟨rfl, rfl, rfl, rfl, rfl⟩, ⟨rfl, rfl⟩, .of_bt rfl⟩
  obtain ⟨w, hw⟩ : ∃ w, w = forAll 128 muAccrue (s.withTb s.tb.advance) := ⟨_, rfl⟩
  rw [← hw] at haccrued hru hdm
  obtain ⟨u, hu, hdeliveries⟩ := forAll_at (fun i t hi => dmMillisecond_sameAt hi t) hd w
  obtain ⟨x, hx⟩ : ∃ x, x = forAll 48 dmMillisecond w := ⟨_, rfl⟩
  rw [← hx] at hdeliveries hru hdm
  obtain ⟨v, hv, hroutes⟩ := forAll_at (fun i t hi => ruMillisecond_sameAt hi t) hd x
  refine ⟨u, v, haccrued.trans hu, hdeliveries.trans hv, ?_, ?_⟩
  · rw [← hroutes.own.route, State.route, hru]
    rfl
  · rw [← hroutes.own.delivery, State.delivery, hdm]
    rfl

end Sys2Proof.Machine
end

section
/-! SUPPORT. The timers of one destination at the local millisecond, and their rows (O59). -/

namespace Sys2Proof.Machine

section
variable {d e f : Nat} {s t : State} {rt r : Route} {tk : Take}

/-! ### What the surroundings decide -/

theorem SameEnv.usable (h : SameEnv d s t) (g : Nat) : t.usable g = s.usable g := by
  rw [State.usable, feedRec_congr h.fm]
  rfl

theorem SameEnv.lastSlot (h : SameEnv d s t) (g : Nat) : t.lastSlot g = s.lastSlot g := by
  rw [State.lastSlot, feedRec_congr h.fm]
  rfl

theorem SameEnv.holder (h : SameEnv d s t) : t.holder d = s.holder d := by
  rw [State.holder, h.ga]
  rfl

theorem SameEnv.ringDepth (h : SameEnv d s t) : t.ringDepth = s.ringDepth := by
  rw [State.ringDepth, h.depth]
  rfl

theorem SameEnv.ruSearch (h : SameEnv d s t) (hlag : (t.delivery d).lag = (s.delivery d).lag) (g : Nat) :
    ruSearch t d g = ruSearch s d g := by
  unfold Machine.ruSearch
  rw [feedRec_congr h.fm, h.ringDepth, hlag]

theorem SameEnv.ruRevertHolds (h : SameEnv d s t) (hseen : SeenSame s t) (hsince : r.failoverSince = rt.failoverSince)
    (hsource : r.source = rt.source) : ruRevertHolds t d r = ruRevertHolds s d rt := by
  unfold Machine.ruRevertHolds State.holderEntry
  rw [h.holder]
  cases s.holder d with
  | none => rfl
  | some e =>
    obtain ⟨hdesc, hselected⟩ := hseen e
    dsimp only [Option.map_some]
    rw [hdesc, hselected, hsince, hsource, feedRec_congr h.fm]

theorem ruRevertHolds_of_unusable (hh : s.holder d = some e) (h : s.usable (s.entry e).selected = false) (r : Route) :
    ruRevertHolds s d r = false := by
  unfold ruRevertHolds
  rw [holderEntry_of_holder hh]
  dsimp only
  cases hx : s.feedRec (s.entry e).selected with
  | none => simp
  | some x =>
    rw [State.usable, hx] at h
    have hnot : x.health ≠ .healthy := fun hhealthy => by
      have h' : x.health.usable = false := h
      rw [hhealthy] at h'
      cases h'
    simp [hnot]

/-! ### The stages of the route's millisecond -/

/-- Of the route and the delivery of `d`, `t` is `s` but for the take and the wanted feed. -/
def TakeOnly (d : Nat) (s t : State) : Prop :=
  t.delivery d = s.delivery d ∧ ∀ r, s.route d = some r → ∃ k w, t.route d = some { r with take := k, wanted := w }

theorem TakeOnly.refl (d : Nat) (s : State) : TakeOnly d s s := ⟨rfl, fun r hr => ⟨r.take, r.wanted, hr⟩⟩

theorem TakeOnly.trans {u : State} (h : TakeOnly d s t) (k : TakeOnly d t u) : TakeOnly d s u := by
  refine ⟨k.1.trans h.1, fun r hr => ?_⟩
  obtain ⟨k1, w1, h1⟩ := h.2 r hr
  obtain ⟨k2, w2, h2⟩ := k.2 _ h1
  exact ⟨k2, w2, h2⟩

theorem TakeOnly.of_same (hroute : t.route d = s.route d) (hdelivery : t.delivery d = s.delivery d) : TakeOnly d s t :=
  ⟨hdelivery, fun r hr => ⟨r.take, r.wanted, hroute.trans hr⟩⟩

theorem ruRequestTake_route (hrt : s.route d = some rt) (g : Nat) (reason : TakeReason) :
    ∃ k, (ruRequestTake d g reason s).route d = some { rt with take := k } := by
  by_cases hmode : s.lpu.mode = .run
  · rw [ruRequestTake_of_run hmode hrt, State.route_setRoute_self]
    exact ⟨_, rfl⟩
  · rw [ruRequestTake_of_not_run hmode]
    exact ⟨rt.take, hrt⟩

theorem ruRequestTake_takeOnly (d g : Nat) (reason : TakeReason) (s : State) :
    TakeOnly d s (ruRequestTake d g reason s) := by
  refine ⟨ruRequestTake_delivery .., fun r hr => ?_⟩
  obtain ⟨k, hk⟩ := ruRequestTake_route hr g reason
  exact ⟨k, r.wanted, hk⟩

theorem ruRestore_takeOnly (d : Nat) (s : State) : TakeOnly d s (ruRestore d s) := by
  unfold ruRestore
  split
  · split
    · split
      · exact ruRequestTake_takeOnly ..
      · split
        · exact ruRequestTake_takeOnly ..
        · exact .refl d s
    · exact .refl d s
  · exact .refl d s

theorem ruDeferredFailover_takeOnly (d : Nat) (s : State) : TakeOnly d s (ruDeferredFailover d s) := by
  unfold ruDeferredFailover
  split
  · split
    · split
      · exact (ruRequestTake_takeOnly ..).trans (.of_same rfl rfl)
      · exact .refl d s
    · exact .refl d s
  · exact .refl d s

theorem ruTakeTimeoutTest_takeOnly (d : Nat) (s : State) : TakeOnly d s (ruTakeTimeoutTest d s) := by
  unfold ruTakeTimeoutTest
  split
  · exact .refl d s
  next r hr =>
    split
    · exact .refl d s
    next t ht =>
      have hset : ∀ k w, TakeOnly d s (s.setRoute d (some { r with take := k, wanted := w })) := by
        intro k w
        refine ⟨rfl, fun x hx => ?_⟩
        rw [hr] at hx
        obtain rfl := Option.some.inj hx
        exact ⟨k, w, State.route_setRoute_self ..⟩
      split
      · split
        · exact hset _ r.wanted
        · unfold ruTakeFailed
          rw [hr]
          dsimp only
          rw [ht]
          refine TakeOnly.trans ?_ ((ruDeferredFailover_takeOnly d _).trans (ruRestore_takeOnly d _))
          exact (hset none (some t.target)).trans (.of_same (raise_route ..) (raise_delivery ..))
        · exact .refl d s
      · exact .refl d s

/-- R144: the freeze test leaves the state, or freezes the route and reclasses the delivery. -/
theorem ruFreezeTest_cases (hrt : s.route d = some rt) : ruFreezeTest d s = s ∨
    rt.freeze ≠ none ∧ ∃ f c, (ruFreezeTest d s).route d = some (rt.frozen f) ∧
      (ruFreezeTest d s).delivery d = { s.delivery d with condition := c } := by
  unfold ruFreezeTest
  rw [hrt]
  dsimp only
  split
  next k f hk _ =>
    split
    · refine .inr ⟨by simp [hk], f, ?_⟩
      unfold ruFrozen
      rw [hrt]
      dsimp only
      obtain ⟨v, hv⟩ : ∃ v, v = raise .take 7 d [f, (s.destParams d).freezeLimit, rt.wanted.getD f]
        (s.setRoute d (some (rt.frozen f))) := ⟨_, rfl⟩
      have hroute : v.route d = some (rt.frozen f) := by
        rw [hv, raise_route]
        exact State.route_setRoute_self ..
      have hdelivery : v.delivery d = s.delivery d := by
        rw [hv, raise_delivery]
        rfl
      refine ⟨dmCondition v d, ?_, ?_⟩
      · exact (dmReclass_route ..).trans (hv ▸ hroute)
      · rw [← hdelivery, hv]
        exact State.delivery_setDelivery_self ..
    · exact .inl rfl
  · exact .inl rfl

/-- What the freeze timer and the revert count make of the route `rt` of `d`: `r`. -/
structure FreezePassed (d : Nat) (s : State) (rt : Route) (t : State) (r : Route) : Prop where
  route : t.route d = some r
  take : r.take = rt.take
  wanted : ∀ w, rt.wanted = some w → r.wanted = some w
  revert : r.revert ≤ rt.revert + 1
  counted : ruRevertHolds s d rt = true → rt.take = none → r.revert = rt.revert + 1
  since : r.failoverSince = rt.failoverSince
  source : r.source = rt.source
  idle : rt.freeze = none → r.change = rt.change ∧ t.delivery d = s.delivery d
  lag : (t.delivery d).lag = (s.delivery d).lag
  env : SameEnv d s t
  seen : SeenSame s t

/-- The freeze timer and the revert count of `d` (R150). -/
def ruFreezeAndCount (d : Nat) (s : State) : State := ruRevertCount d (ruFreezeTest d (ruFreezeCount d s))

theorem ruFreezeAndCount_spec (hrt : s.route d = some rt) : ∃ r, FreezePassed d s rt (ruFreezeAndCount d s) r := by
  let rt3 : Route := { rt with freeze := rt.freeze.map (· + 1) }
  have hcount : ruFreezeCount d s = s.setRoute d (some rt3) := modRoute_of_route hrt _
  obtain ⟨a, ha⟩ : ∃ a, a = s.setRoute d (some rt3) := ⟨_, rfl⟩
  have haroute : a.route d = some rt3 := ha ▸ State.route_setRoute_self ..
  have hadelivery : a.delivery d = s.delivery d := by rw [ha]; rfl
  obtain ⟨b, hb⟩ : ∃ b, b = ruFreezeTest d a := ⟨_, rfl⟩
  have hcases : ∃ rt4, b.route d = some rt4 ∧ (rt4 = rt3 ∧ b.delivery d = s.delivery d ∨
      rt.freeze ≠ none ∧ (∃ f, rt4 = rt3.frozen f) ∧ ∃ c, b.delivery d = { s.delivery d with condition := c }) := by
    obtain h | ⟨hfreeze, f, c, hroute, hdelivery⟩ := ruFreezeTest_cases haroute
    · rw [hb, h]
      exact ⟨rt3, haroute, .inl ⟨rfl, hadelivery⟩⟩
    · rw [hb, ← hadelivery]
      refine ⟨_, hroute, .inr ⟨fun hnone => hfreeze ?_, ⟨f, rfl⟩, c, hdelivery⟩⟩
      exact Option.map_eq_none_iff.2 hnone
  obtain ⟨rt4, hbroute, hbcases⟩ := hcases
  have henvb : SameEnv d s b := by
    have h := (sameEnv_routing d s).ruFreezeTest (d := d) trivial
      ((sameEnv_routing d s).ruFreezeCount (d := d) trivial (.refl d s))
    rw [hcount, ← ha, ← hb] at h
    exact h
  have hseenb : SeenSame s b := by
    have h1 : SeenSame s a := .of_bt (by rw [ha]; rfl)
    exact h1.trans (.of_bt (by rw [hb, ruFreezeTest_bt]))
  have hfields : rt4.take = rt.take ∧ rt4.failoverSince = rt.failoverSince ∧ rt4.source = rt.source ∧
      rt4.revert = rt.revert ∧ (∀ w, rt.wanted = some w → rt4.wanted = some w) := by
    obtain ⟨rfl, -⟩ | ⟨-, ⟨f, rfl⟩, -⟩ := hbcases
    · exact ⟨rfl, rfl, rfl, rfl, fun w hw => hw⟩
    · exact ⟨rfl, rfl, rfl, rfl, fun w hw => congrArg (fun o : Option Nat => some (o.getD f)) hw⟩
  obtain ⟨htake, hsince, hsource, hrevert, hwanted⟩ := hfields
  have hholds : ruRevertHolds b d rt4 = ruRevertHolds s d rt := henvb.ruRevertHolds hseenb hsince hsource
  have hend : ruFreezeAndCount d s = ruRevertCount d b := by
    rw [ruFreezeAndCount, hcount, ← ha, ← hb]
  let n := if ruRevertHolds s d rt = true then (if rt4.take.isNone = true then rt4.revert + 1 else rt4.revert) else 0
  have hrevertCount : ruRevertCount d b = b.setRoute d (some { rt4 with revert := n }) := by
    rw [ruRevertCount, modRoute_of_route hbroute, hholds]
    congr 2
    simp only [n]
    split
    · split <;> rfl
    · rfl
  have hdelivery : (ruRevertCount d b).delivery d = b.delivery d := by rw [hrevertCount]; rfl
  rw [hend]
  refine ⟨{ rt4 with revert := n }, ?_, htake, hwanted, ?_, fun hholds hnone => ?_, hsince, hsource, fun hfreeze => ?_, ?_,
    ?_, ?_⟩
  · rw [hrevertCount]
    exact State.route_setRoute_self ..
  · change n ≤ _
    simp only [n]
    split
    · split <;> omega
    · omega
  · change n = _
    simp only [n]
    rw [if_pos hholds, htake, hnone, hrevert]
    rfl
  · obtain ⟨rfl, hsame⟩ | ⟨hne, -⟩ := hbcases
    · exact ⟨rfl, hdelivery.trans hsame⟩
    · exact absurd hfreeze hne
  · rw [hdelivery]
    obtain ⟨-, hsame⟩ | ⟨-, -, c, hsame⟩ := hbcases
    · rw [hsame]
    · rw [hsame]
  · rw [hrevertCount]
    exact henvb.trans ⟨rfl, rfl, rfl, rfl, rfl⟩
  · rw [hrevertCount]
    exact hseenb.trans (.of_bt rfl)

theorem ruBeforeRevert_eq (d : Nat) (s : State) :
    ruBeforeRevert d s = ruFreezeAndCount d (ruTakeTimeoutTest d (ruTakeCount d s)) := rfl

/-- The revert test leaves the route but for its take and its revert count. -/
theorem ruRevertTest_route (hrt : s.route d = some rt) :
    ∃ k n, (ruRevertTest d s).route d = some { rt with take := k, revert := n } ∧
      (ruRevertTest d s).delivery d = s.delivery d := by
  unfold ruRevertTest
  split
  next e r _ hr =>
    rw [hrt] at hr
    obtain rfl := Option.some.inj hr
    split
    · obtain ⟨k, hk⟩ := ruRequestTake_route (s := s.setRoute d (some { rt with revert := 0 })) (d := d)
        (State.route_setRoute_self ..) e.selected .revert
      exact ⟨k, 0, hk, ruRequestTake_delivery ..⟩
    · exact ⟨rt.take, rt.revert, hrt, rfl⟩
  · exact ⟨rt.take, rt.revert, hrt, rfl⟩

end

end Sys2Proof.Machine
end

section
/-! SUPPORT. What each timer makes of a destination at the local millisecond: O59. -/

namespace Sys2Proof.Machine

section
variable {d e f : Nat} {s : State} {rt : Route} {tk : Take}

/-! ### The route's millisecond, timer by timer -/

theorem ruTakeCount_of_stopped (hrt : s.route d = some rt) (h : ∀ tk, rt.take = some tk → tk.state = .ready ∨ tk.state = .cued) :
    ruTakeCount d s = s.setRoute d (some rt) := by
  rw [ruTakeCount, modRoute_of_route hrt]
  congr 2
  cases htake : rt.take with
  | none =>
    rw [Option.map_none, ← htake]
  | some tk =>
    rw [Option.map_some, if_neg (by
      obtain h | h := h tk htake
      · simp [h]
      · simp [h]), ← htake]

/-- R150: the take timer, then the freeze timer and the revert count. -/
theorem ruBeforeRevert_spec (hrt : s.route d = some rt) : ∃ b k w r,
    FreezePassed d b { rt with take := k, wanted := w } (ruBeforeRevert d s) r ∧ b.delivery d = s.delivery d := by
  have hcount : TakeOnly d s (ruTakeCount d s) := by
    refine ⟨by rw [ruTakeCount, modRoute_of_route hrt]; rfl, fun r hr => ?_⟩
    rw [ruTakeCount, modRoute_of_route hr]
    exact ⟨_, r.wanted, State.route_setRoute_self ..⟩
  obtain ⟨hdelivery, hroute⟩ := hcount.trans (ruTakeTimeoutTest_takeOnly d _)
  obtain ⟨k, w, hb⟩ := hroute rt hrt
  obtain ⟨r, hr⟩ := ruFreezeAndCount_spec hb
  exact ⟨_, k, w, r, hr, hdelivery⟩

/-- R135: a take in ARMING at the take timeout. -/
theorem ruMillisecond_armed (hmode : s.lpu.mode = .run) (hrt : s.route d = some rt) (htake : rt.take = some tk)
    (harming : tk.state = .arming) (hlimit : (s.destParams d).takeTimeout ≤ tk.timer + 1) :
    ((ruMillisecond d s).route d).bind Route.take = some { tk with
      state := tk.reason.armed, rough := true, timer := tk.timer + 1, slot := some (ruRoughSlot s d tk.target) } := by
  let rt1 : Route := { rt with take := some { tk with timer := tk.timer + 1 } }
  let armed : Take := { tk with
    state := tk.reason.armed, rough := true, timer := tk.timer + 1, slot := some (ruRoughSlot s d tk.target) }
  have htest : ruTakeTimeoutTest d (ruTakeCount d s) = s.setRoute d (some { rt with take := some armed }) := by
    rw [ruTakeCount_of_counting hrt htake (.inl harming), ruTakeTimeoutTest_of_arming (s := s.setRoute d (some rt1)) hmode
      (State.route_setRoute_self ..) rfl hlimit harming, setRoute_setRoute]
    rfl
  obtain ⟨r, hr⟩ := ruFreezeAndCount_spec (s := s.setRoute d (some { rt with take := some armed })) (d := d)
    (State.route_setRoute_self ..)
  rw [ruMillisecond_eq hmode, ruBeforeRevert_eq, htest,
    ruRevertTest_of_idle hr.route (.inr (.inr (by rw [hr.take]; exact Option.some_ne_none _))), hr.route]
  exact hr.take

/-- R136: a take in WAIT_SOURCE at the take timeout, with no usable feed for the tests that follow. -/
theorem ruMillisecond_failed (hmode : s.lpu.mode = .run) (hrt : s.route d = some rt) (htake : rt.take = some tk)
    (hwait : tk.state = .waitSource) (hlimit : (s.destParams d).takeTimeout ≤ tk.timer + 1) (hh : s.holder d = some e)
    (htarget : s.usable tk.target = false) (hback : s.usable (s.entry e).selected = false) :
    ∃ rt2, (ruMillisecond d s).route d = some rt2 ∧ rt2.take = none ∧ rt2.wanted = some tk.target := by
  let rt1 : Route := { rt with take := some { tk with timer := tk.timer + 1 } }
  let failed : Route := { rt with take := none, wanted := some tk.target }
  obtain ⟨v, hv⟩ : ∃ v, v = (raise .take 3 d [tk.target, tk.reason.num, (s.entry e).desc.ref, (s.destParams d).takeTimeout]
    (s.setRoute d (some rt1))).setRoute d (some failed) := ⟨_, rfl⟩
  have hvroute : v.route d = some failed := hv ▸ State.route_setRoute_self ..
  have hvholder : v.holder d = some e := by rw [hv]; exact (raise_holder ..).trans hh
  have hvback : v.usable (v.entry e).selected = false := by
    have hentry : v.entry e = s.entry e := by rw [hv]; exact raise_entry ..
    rw [hentry, hv]
    exact (raise_usable ..).trans hback
  have htest : ruTakeTimeoutTest d (ruTakeCount d s) = v := by
    have hroute : (s.setRoute d (some rt1)).route d = some rt1 := State.route_setRoute_self ..
    rw [ruTakeCount_of_counting hrt htake (.inr hwait), ruTakeTimeoutTest_of_waiting (s := s.setRoute d (some rt1)) hmode
      hroute rfl hlimit hwait, ruTakeFailed_of_unusable (s := s.setRoute d (some rt1)) hroute rfl hh htarget hback, hv]
    rfl
  obtain ⟨r, hr⟩ := ruFreezeAndCount_spec hvroute
  have hnot : ruRevertHolds (ruFreezeAndCount d v) d r = false :=
    (hr.env.ruRevertHolds hr.seen hr.since hr.source).trans (ruRevertHolds_of_unusable hvholder hvback failed)
  rw [ruMillisecond_eq hmode, ruBeforeRevert_eq, htest, ruRevertTest_of_idle hr.route (.inr (.inl hnot))]
  exact ⟨r, hr.route, hr.take, hr.wanted _ rfl⟩

/-- R144: the freeze limit, with no take pending. -/
theorem ruMillisecond_frozen {k : Nat} (hmode : s.lpu.mode = .run) (hrt : s.route d = some rt) (hh : s.holder d = some e)
    (hsource : rt.source = .feed f) (htake : rt.take = none) (hfreeze : rt.freeze = some k)
    (hlimit : (s.destParams d).freezeLimit ≤ k + 1) :
    ((ruMillisecond d s).delivery d).condition = .outage ∧ ∃ rt2, (ruMillisecond d s).route d = some rt2 ∧
      rt2.change = some .toSlate ∧ rt2.wanted = some (rt.wanted.getD f) ∧ rt2.freeze = none := by
  let rt3 : Route := { rt with freeze := some (k + 1) }
  have hstopped : ∀ tk, rt.take = some tk → tk.state = .ready ∨ tk.state = .cued := fun tk h => by simp [htake] at h
  have htest : ruTakeTimeoutTest d (ruTakeCount d s) = s.setRoute d (some rt) := by
    rw [ruTakeCount_of_stopped hrt hstopped, ruTakeTimeoutTest_of_idle (s := s.setRoute d (some rt))
      (State.route_setRoute_self ..) fun tk h => .inr (hstopped tk h)]
  have hcount : ruFreezeCount d (s.setRoute d (some rt)) = s.setRoute d (some rt3) := by
    rw [ruFreezeCount, modRoute_of_route (State.route_setRoute_self ..), setRoute_setRoute, hfreeze]
    rfl
  have hroute3 : (s.setRoute d (some rt3)).route d = some rt3 := State.route_setRoute_self ..
  obtain ⟨v, hv⟩ : ∃ v, v = ruFreezeTest d (s.setRoute d (some rt3)) := ⟨_, rfl⟩
  have hfrozen := ruFreezeTest_of_limit (s := s.setRoute d (some rt3)) hmode hroute3 hh hsource rfl hlimit
  have hvroute : v.route d = some (rt3.frozen f) := by
    rw [hv, hfrozen]
    exact (raise_route ..).trans (State.route_setRoute_self ..)
  have hvcondition : (v.delivery d).condition = .outage := by
    rw [hv, hfrozen, State.delivery_setDelivery_self]
  have hbefore : ruBeforeRevert d s = ruRevertCount d v := by
    rw [ruBeforeRevert_eq, htest, ruFreezeAndCount, hcount, hv]
  have hrevert := modRoute_of_route hvroute fun r => if ruRevertHolds v d r then
    (if r.take.isNone then { r with revert := r.revert + 1 } else r) else { r with revert := 0 }
  obtain ⟨n, hn⟩ : ∃ n, (if ruRevertHolds v d (rt3.frozen f) then
      (if (rt3.frozen f).take.isNone then { rt3.frozen f with revert := (rt3.frozen f).revert + 1 } else rt3.frozen f)
      else { rt3.frozen f with revert := 0 }) = { rt3.frozen f with revert := n } := by
    split
    · split
      · exact ⟨_, rfl⟩
      · exact ⟨(rt3.frozen f).revert, rfl⟩
    · exact ⟨0, rfl⟩
  have hcounted : ruRevertCount d v = v.setRoute d (some { rt3.frozen f with revert := n }) := hn ▸ hrevert
  obtain ⟨take, m, hroute, hdelivery⟩ := ruRevertTest_route (s := v.setRoute d (some { rt3.frozen f with revert := n }))
    (d := d) (State.route_setRoute_self ..)
  rw [ruMillisecond_eq hmode, hbefore, hcounted, hdelivery, hroute]
  exact ⟨hvcondition, _, rfl, rfl, rfl, rfl⟩

/-- R148: the revert conditions hold at the revert hold: the test comes about, and requests the take. -/
theorem ruMillisecond_reverted {slot : Nat} (hmode : s.lpu.mode = .run) (hrt : s.route d = some rt) (hh : s.holder d = some e)
    (hholds : ruRevertHolds s d rt = true) (htake : rt.take = none) (husable : s.usable (s.entry e).selected = true)
    (hsearch : ruSearch s d (s.entry e).selected = some slot)
    (hlimit : (s.destParams d).revertHold * 1000 ≤ rt.revert + 1) :
    ruRevertDue d s = true ∧ ∃ rt2, (ruMillisecond d s).route d = some rt2 ∧ rt2.revert = 0 ∧
      rt2.take = some ⟨(s.entry e).selected, .revert, .ready, some slot, false, 0⟩ := by
  have hstopped : ∀ tk, rt.take = some tk → tk.state = .ready ∨ tk.state = .cued := fun tk h => by simp [htake] at h
  have htest : ruTakeTimeoutTest d (ruTakeCount d s) = s.setRoute d (some rt) := by
    rw [ruTakeCount_of_stopped hrt hstopped, ruTakeTimeoutTest_of_idle (s := s.setRoute d (some rt))
      (State.route_setRoute_self ..) fun tk h => .inr (hstopped tk h)]
  obtain ⟨r, hr⟩ := ruFreezeAndCount_spec (s := s.setRoute d (some rt)) (d := d) (State.route_setRoute_self ..)
  obtain ⟨v, hv⟩ : ∃ v, v = ruFreezeAndCount d (s.setRoute d (some rt)) := ⟨_, rfl⟩
  rw [← hv] at hr
  have hbefore : ruBeforeRevert d s = v := by rw [ruBeforeRevert_eq, htest, hv]
  have henv : SameEnv d s v := (⟨rfl, rfl, rfl, rfl, rfl⟩ : SameEnv d s (s.setRoute d (some rt))).trans hr.env
  have hseen : SeenSame s v := (.of_bt rfl : SeenSame s (s.setRoute d (some rt))).trans hr.seen
  have hvholds : ruRevertHolds v d r = true := (henv.ruRevertHolds hseen hr.since hr.source).trans hholds
  have hrevert : r.revert = rt.revert + 1 := hr.counted hholds htake
  have hselected : (v.entry e).selected = (s.entry e).selected := (hseen e).2
  have hlag : (v.delivery d).lag = (s.delivery d).lag := hr.lag
  have hvlimit : (v.destParams d).revertHold * 1000 ≤ r.revert := by rw [henv.params, hrevert]; exact hlimit
  have hvtake : r.take = none := hr.take.trans htake
  constructor
  · have hdue : ruRevertDue d s = (s.lpu.mode == .run && ((ruBeforeRevert d s).route d).any (fun r =>
        ruRevertHolds (ruBeforeRevert d s) d r && r.take.isNone &&
          decide ((s.destParams d).revertHold * 1000 ≤ r.revert))) := rfl
    rw [hdue, hbefore, hr.route, Option.any_some, hvholds, hvtake, hmode, ← henv.params, decide_eq_true hvlimit]
    rfl
  · have hrequest := ruRequestTake_of_found (s := v.setRoute d (some { r with revert := 0 })) (d := d)
      (g := (s.entry e).selected) (slot := slot) (henv.mode.trans hmode) (State.route_setRoute_self ..)
      ((henv.usable _).trans husable) ((henv.ruSearch hlag _).trans hsearch) .revert
    rw [ruMillisecond_eq hmode, hbefore, ruRevertTest_of_holds (henv.mode.trans hmode) hr.route (henv.holder.trans hh)
      hvholds hvtake hvlimit, hselected, hrequest, raise_route, State.route_setRoute_self]
    exact ⟨_, rfl, rfl, rfl⟩

/-- The route's millisecond with the freeze timer stopped leaves the delivery and the pending change. -/
theorem ruMillisecond_kept (hmode : s.lpu.mode = .run) (hrt : s.route d = some rt) (hfreeze : rt.freeze = none) :
    (ruMillisecond d s).delivery d = s.delivery d ∧
      ((ruMillisecond d s).route d).map Route.change = some rt.change := by
  obtain ⟨b, k, w, r, hr, hdelivery⟩ := ruBeforeRevert_spec hrt
  obtain ⟨hchange, hsame⟩ := hr.idle hfreeze
  obtain ⟨take, n, hroute, hkept⟩ := ruRevertTest_route hr.route
  rw [ruMillisecond_eq hmode, hkept, hroute]
  exact ⟨hsame.trans hdelivery, congrArg some hchange⟩

/-! ### The delivery's millisecond -/

theorem dmMillisecond_of_route (hrt : s.route d = some rt) : dmMillisecond d s =
    dmPeriodTest d (modDelivery d (fun x => { x with periodCount := x.periodCount + 1 }) (dmImpairmentTick d s)) := by
  rw [dmMillisecond, hrt]
  rfl

/-- R164: the impairment count changes nothing else of the delivery but its condition. -/
theorem dmImpairmentTick_own (d : Nat) (s : State) : ∃ i c, (dmImpairmentTick d s).delivery d =
      { s.delivery d with impairment := i, condition := c } ∧ (dmImpairmentTick d s).route d = s.route d := by
  unfold dmImpairmentTick
  split
  · dsimp only
    split
    · refine ⟨(s.delivery d).impairment - 1,
        dmCondition (modDelivery d (fun x => { x with impairment := x.impairment - 1 }) s) d, ?_, rfl⟩
      rw [dmReclass, modDelivery_eq, State.delivery_setDelivery_self, modDelivery_eq, State.delivery_setDelivery_self]
    · exact ⟨(s.delivery d).impairment - 1, (s.delivery d).condition, State.delivery_setDelivery_self .., rfl⟩
  · exact ⟨(s.delivery d).impairment, (s.delivery d).condition, rfl, rfl⟩

theorem Route.with_change {c : Option Change} (h : rt.change = c) : { rt with change := c } = rt := by
  subst h
  rfl

/-- R167: the test of the period leaves the impairment hold, the condition, and the route but for its pending change. -/
theorem dmPeriodTest_own (hrt : s.route d = some rt) : ∃ c, (dmPeriodTest d s).route d = some { rt with change := c } ∧
    ((dmPeriodTest d s).delivery d).impairment = (s.delivery d).impairment ∧
    ((dmPeriodTest d s).delivery d).condition = (s.delivery d).condition := by
  have hask : ∃ c, ∀ y : Delivery, dmAskLagRepeat d (s.setDelivery d y) =
      (s.setDelivery d y).setRoute d (some { rt with change := c }) := by
    cases hchange : rt.change with
    | none =>
      refine ⟨some .lagRepeat, fun y => ?_⟩
      rw [dmAskLagRepeat, modRoute_of_route (s := s.setDelivery d y) hrt, hchange]
    | some change =>
      cases change
      case lagRepeat =>
        refine ⟨some .lagReset, fun y => ?_⟩
        rw [dmAskLagRepeat, modRoute_of_route (s := s.setDelivery d y) hrt, hchange]
      case lagReset =>
        refine ⟨some .lagReset, fun y => ?_⟩
        rw [dmAskLagRepeat, modRoute_of_route (s := s.setDelivery d y) hrt, Route.with_change hchange, hchange]
      case toSlate =>
        refine ⟨some .toSlate, fun y => ?_⟩
        rw [dmAskLagRepeat, modRoute_of_route (s := s.setDelivery d y) hrt, Route.with_change hchange, hchange]
  obtain ⟨c, hask⟩ := hask
  unfold dmPeriodTest
  split
  · unfold dmPeriodEnd
    dsimp only
    split
    · refine ⟨c, ?_, ?_, ?_⟩
      · rw [modDelivery_eq d _ s, hask]
        exact (raise_route ..).trans (State.route_setRoute_self ..)
      · rw [modDelivery_eq d _ s, hask, modDelivery_eq, State.delivery_setDelivery_self, raise_delivery]
        change ((s.setDelivery d _).delivery d).impairment = _
        rw [State.delivery_setDelivery_self]
      · rw [modDelivery_eq d _ s, hask, modDelivery_eq, State.delivery_setDelivery_self, raise_delivery]
        change ((s.setDelivery d _).delivery d).condition = _
        rw [State.delivery_setDelivery_self]
    · refine ⟨rt.change, hrt, ?_, ?_⟩
      · rw [modDelivery_eq, State.delivery_setDelivery_self]
      · rw [modDelivery_eq, State.delivery_setDelivery_self]
  · exact ⟨rt.change, hrt, rfl, rfl⟩

/-- What the delivery's millisecond leaves, in general: the route but for its pending change. -/
theorem dmMillisecond_route (hrt : s.route d = some rt) : ∃ c, (dmMillisecond d s).route d = some { rt with change := c } := by
  obtain ⟨i, c, -, hroute⟩ := dmImpairmentTick_own d s
  obtain ⟨change, h, -⟩ := dmPeriodTest_own
    (s := modDelivery d (fun x => { x with periodCount := x.periodCount + 1 }) (dmImpairmentTick d s)) (hroute.trans hrt)
  rw [dmMillisecond_of_route hrt]
  exact ⟨change, h⟩

/-- R167: a millisecond that does not end the period. -/
theorem dmMillisecond_of_period (hrt : s.route d = some rt) (h : (s.delivery d).periodCount + 1 < 10000) :
    (dmMillisecond d s).route d = some rt ∧ ((dmMillisecond d s).delivery d).lag = (s.delivery d).lag := by
  obtain ⟨i, c, hdelivery, hroute⟩ := dmImpairmentTick_own d s
  obtain ⟨v, hv⟩ : ∃ v, v = modDelivery d (fun x => { x with periodCount := x.periodCount + 1 }) (dmImpairmentTick d s) :=
    ⟨_, rfl⟩
  have hvdelivery : v.delivery d =
      { s.delivery d with impairment := i, condition := c, periodCount := (s.delivery d).periodCount + 1 } := by
    rw [hv, modDelivery_eq, hdelivery]
    exact State.delivery_setDelivery_self ..
  rw [dmMillisecond_of_route hrt, ← hv, dmPeriodTest_of_idle (by rw [hvdelivery]; exact h)]
  constructor
  · rw [hv]
    exact hroute.trans hrt
  · rw [hvdelivery]

/-- R167: the millisecond that ends the period, with no change pending. -/
theorem dmMillisecond_of_period_end (hrt : s.route d = some rt) (hchange : rt.change = none)
    (h : 10000 ≤ (s.delivery d).periodCount + 1) :
    let x := s.delivery d
    let raised := x.adapt = true ∧ 3 ≤ x.periodRepeats ∧ x.lag < x.lagMax
    let y := (dmMillisecond d s).delivery d
    y.periodCount = 0 ∧ y.periodRepeats = 0 ∧ y.lag = (if raised then x.lag + 1 else x.lag) ∧
      (dmMillisecond d s).route d = some { rt with change := if raised then some .lagRepeat else none } := by
  intro x raised
  obtain ⟨i, c, hdelivery, hroute⟩ := dmImpairmentTick_own d s
  obtain ⟨v, hv⟩ : ∃ v, v = modDelivery d (fun x => { x with periodCount := x.periodCount + 1 }) (dmImpairmentTick d s) :=
    ⟨_, rfl⟩
  have hvdelivery : v.delivery d =
      { x with impairment := i, condition := c, periodCount := x.periodCount + 1 } := by
    rw [hv, modDelivery_eq, hdelivery]
    exact State.delivery_setDelivery_self ..
  have hvroute : v.route d = some rt := by
    rw [hv]
    exact hroute.trans hrt
  have htest := dmPeriodTest_of_due hvroute (by rw [hvdelivery]; exact h)
  rw [dmMillisecond_of_route hrt, ← hv, htest]
  by_cases hraised : raised
  · have ⟨hadapt, hrepeats, hlag⟩ := hraised
    rw [if_pos hraised, if_pos hraised, dmPeriodEnd_of_raised hvroute hchange (by rw [hvdelivery]; exact hadapt)
      (by rw [hvdelivery]; exact hrepeats) (by rw [hvdelivery]; exact hlag), State.delivery_setDelivery_self]
    refine ⟨rfl, rfl, ?_, ?_⟩
    · rw [hvdelivery]
    · exact (raise_route ..).trans (State.route_setRoute_self ..)
  · have hkept : x.adapt = false ∨ x.periodRepeats < 3 ∨ x.lagMax ≤ x.lag := by
      by_contra hnot
      simp only [not_or, Bool.not_eq_false, Nat.not_lt, Nat.not_le] at hnot
      exact hraised hnot
    rw [if_neg hraised, if_neg hraised, dmPeriodEnd_of_kept (by rw [hvdelivery]; exact hkept), State.delivery_setDelivery_self,
      Route.with_change hchange]
    refine ⟨rfl, rfl, ?_, hvroute⟩
    rw [hvdelivery]

/-- R164, R169: the millisecond that ends the impairment hold, with a clean feed. -/
theorem dmMillisecond_of_impairment_end {y : FeedRecord} (himpair : (s.delivery d).impairment = 1) (hh : s.holder d = some e)
    (hrt : s.route d = some rt) (hsource : rt.source = .feed f) (hchange : rt.change ≠ some .toSlate)
    (hy : s.feedRec f = some y) (hhealth : y.health = .healthy) (htest : y.testSignal = false)
    (hbill : (s.entry e).desc.billBackupDegraded = false) :
    ((dmMillisecond d s).delivery d).impairment = 0 ∧ ((dmMillisecond d s).delivery d).condition = .clean := by
  have htick := dmImpairmentTick_of_end himpair hh hrt hsource hchange hy hhealth htest hbill
  obtain ⟨v, hv⟩ : ∃ v, v = modDelivery d (fun x => { x with periodCount := x.periodCount + 1 }) (dmImpairmentTick d s) :=
    ⟨_, rfl⟩
  have hvdelivery : v.delivery d =
      { s.delivery d with impairment := 0, condition := .clean, periodCount := (s.delivery d).periodCount + 1 } := by
    rw [hv, htick, modDelivery_eq, State.delivery_setDelivery_self, State.delivery_setDelivery_self]
  have hvroute : v.route d = some rt := by
    rw [hv, modDelivery_eq, htick]
    exact hrt
  obtain ⟨-, -, himp, hcond⟩ := dmPeriodTest_own hvroute
  rw [dmMillisecond_of_route hrt, ← hv, himp, hcond, hvdelivery]
  exact ⟨rfl, rfl⟩

end

/-! ### O59 -/

section
variable {s : State} {d : Nat} {rt : Route}

/-- The row of an interval of `d` that the coming local millisecond reaches, where only timers are due: what the route's
millisecond makes of the state `v`, in which `d` stands after its delivery's millisecond. -/
theorem timerRow {row : Instr} {due : State → Bool} {claim : State → Prop} (hr : s.lpu.resetAsserted = false)
    (h : NothingDue s) (honly : OnlyTimersDue s) (hd : d < 48) (hrow : exec row s = .next (tbInterval due s))
    (hdue : due (s.withTb { s.tb with subMicros := max s.tb.subMicros 1000 }) = true)
    (hclaim : ∀ u v t, SameAt d s u → SameAt d (dmMillisecond d u) v → t.route d = (ruMillisecond d v).route d →
      t.delivery d = (ruMillisecond d v).delivery d → claim t) :
    ∃ t, exec row s = .next t ∧ exec .localMillisecond s = .next t ∧ claim t := by
  have hevent := localMillisecond_of_nothingDue hr h
  obtain ⟨u, v, hu, hv, hroute, hdelivery⟩ := millisecondEvent_at (s := s.withTb s.tb.atMillisecond) honly hd
  have hsu : SameAt d s u :=
    (⟨⟨rfl, rfl, rfl, rfl, rfl⟩, ⟨rfl, rfl⟩, .of_bt rfl⟩ : SameAt d s (s.withTb s.tb.atMillisecond)).trans hu
  refine ⟨_, ?_, hevent, hclaim u v _ hsu hv hroute hdelivery⟩
  rw [hrow, tbInterval_of_due hr (by rw [timeTo_end h]; exact hdue), hevent]

/-- The row of an interval that is not reached. -/
theorem timerRow_idle {row : Instr} {due : State → Bool} (h : NothingDue s)
    (hrow : exec row s = .next (tbInterval due s))
    (hnot : due (s.withTb { s.tb with subMicros := max s.tb.subMicros 1000 }) = false) : exec row s = .next s := by
  rw [hrow, tbInterval_of_not_due (by rw [timeTo_end h]; exact hnot)]

/-- What `d` looks at after its delivery's millisecond. -/
theorem sameEnv_afterDelivery {u v : State} (hu : SameAt d s u) (hv : SameAt d (dmMillisecond d u) v) :
    SameEnv d s v ∧ SeenSame s v :=
  ⟨hu.env.trans (((sameEnv_routing d u).dmMillisecond trivial (.refl d u)).trans hv.env),
    hu.seen.trans ((SeenSame.of_bt (dmMillisecond_bt d u)).trans hv.seen)⟩

/-- The route and the lag of `d` after a millisecond of its delivery that does not end the period. -/
theorem afterDelivery_of_period {u v : State} (hrt : s.route d = some rt) (hperiod : (s.delivery d).periodCount + 1 < 10000)
    (hu : SameAt d s u) (hv : SameAt d (dmMillisecond d u) v) :
    v.route d = some rt ∧ (v.delivery d).lag = (s.delivery d).lag := by
  obtain ⟨hroute, hlag⟩ := dmMillisecond_of_period (s := u) (hu.own.route.trans hrt) (by rw [hu.own.delivery]; exact hperiod)
  exact ⟨hv.own.route.trans hroute, by rw [hv.own.delivery, hlag, hu.own.delivery]⟩

end

theorem ruTakeDue_of_counting {s : State} {d : Nat} {rt : Route} {tk : Take} (hmode : s.lpu.mode = .run)
    (hrt : s.route d = some rt) (htake : rt.take = some tk) (hstate : tk.state = .arming ∨ tk.state = .waitSource)
    (hlimit : (s.destParams d).takeTimeout ≤ tk.timer + 1) : ruTakeDue d s = true := by
  simp [ruTakeDue, hmode, hrt, htake, hstate, hlimit]

theorem ruFreezeDue_of_running {s : State} {d e f k : Nat} {rt : Route} (hmode : s.lpu.mode = .run)
    (hrt : s.route d = some rt) (hh : s.holder d = some e) (hsource : rt.source = .feed f) (hfreeze : rt.freeze = some k)
    (hlimit : (s.destParams d).freezeLimit ≤ k + 1) : ruFreezeDue d s = true := by
  simp [ruFreezeDue, hmode, hrt, hh, hsource, hfreeze, hlimit]

/-- The third part of O59: the rows of the five intervals. -/
theorem timerRows (s : State) (d : Nat) (rt : Route) (hr : s.lpu.resetAsserted = false) (hd : d < 48)
    (hmode : s.lpu.mode = .run) (h : NothingDue s) (hrt : s.route d = some rt) (honly : OnlyTimersDue s) :
    let par := s.destParams d
    let x := s.delivery d
    let become := fun (row : Instr) (claim : State → Prop) => ∃ t, exec row s = .next t ∧
      exec .localMillisecond s = .next t ∧ claim t
    (∀ tk, rt.take = some tk → par.takeTimeout ≤ tk.timer + 1 → x.periodCount + 1 < 10000 →
      (tk.state = .arming → become (.takeTimeout d) (fun t => (t.route d).bind Route.take = some
        { tk with state := (if tk.reason = .cue then .cued else .ready), rough := true, timer := tk.timer + 1,
                  slot := some (modSub s.ringDepth (s.lastSlot tk.target) x.lag) })) ∧
      (∀ e, tk.state = .waitSource → s.holder d = some e → s.usable tk.target = false →
        s.usable (s.entry e).selected = false → become (.takeTimeout d) (fun t => ∃ rt2, t.route d = some rt2 ∧
          rt2.take = none ∧ rt2.wanted = some tk.target))) ∧
    (∀ e f k, s.holder d = some e → rt.source = .feed f → rt.take = none → rt.freeze = some k →
      par.freezeLimit ≤ k + 1 → become (.freezeLimit d) (fun t => (t.delivery d).condition = .outage ∧
        ∃ rt2, t.route d = some rt2 ∧ rt2.change = some .toSlate ∧ rt2.wanted = some (rt.wanted.getD f) ∧
          rt2.freeze = none)) ∧
    (∀ e slot, s.holder d = some e → (s.feedRec (s.entry e).selected).map FeedRecord.health = some .healthy →
      ruSearch s d (s.entry e).selected = some slot → (s.entry e).desc.autoRevert = true → rt.failoverSince = true →
      rt.source = .feed (s.entry e).desc.backup → (s.entry e).desc.backup ≠ (s.entry e).selected → rt.take = none →
      x.periodCount + 1 < 10000 → par.revertHold * 1000 ≤ rt.revert + 1 →
      become (.revertHold d) (fun t => ∃ rt2, t.route d = some rt2 ∧ rt2.revert = 0 ∧
        rt2.take = some ⟨(s.entry e).selected, .revert, .ready, some slot, false, 0⟩)) ∧
    (10000 ≤ x.periodCount + 1 → rt.freeze = none → rt.change = none →
      let raised := x.adapt = true ∧ 3 ≤ x.periodRepeats ∧ x.lag < x.lagMax
      become (.adaptationPeriodEnd d) (fun t => (t.delivery d).periodCount = 0 ∧ (t.delivery d).periodRepeats = 0 ∧
        (t.delivery d).lag = (if raised then x.lag + 1 else x.lag) ∧
        (t.route d).map Route.change = some (if raised then some .lagRepeat else none))) ∧
    (∀ e f y, x.impairment = 1 → s.holder d = some e → rt.source = .feed f → rt.change ≠ some .toSlate →
      rt.freeze = none → s.feedRec f = some y → y.health = .healthy → y.testSignal = false →
      (s.entry e).desc.billBackupDegraded = false →
      become (.impairmentHoldEnd d) (fun t => (t.delivery d).impairment = 0 ∧ (t.delivery d).condition = .clean)) := by
  intro par x become
  refine ⟨fun tk htake hlimit hperiod => ⟨fun harming => ?_, fun e hwait hh htarget hback => ?_⟩,
    fun e f k hh hsource htake hfreeze hlimit => ?_,
    fun e slot hh hhealth hsearch hauto hsince hsource hne htake hperiod hlimit => ?_,
    fun hperiod hfreeze hchange => ?_,
    fun e f y himpair hh hsource hchange hfreeze hy hhealth htest hbill => ?_⟩
  · refine timerRow (due := ruTakeDue d) hr h honly hd rfl ?_ fun u v t hu hv hroute hdelivery => ?_
    · exact ruTakeDue_of_counting (s := s.withTb { s.tb with subMicros := max s.tb.subMicros 1000 }) hmode hrt htake
        (.inl harming) hlimit
    · obtain ⟨henv, hseen⟩ := sameEnv_afterDelivery hu hv
      obtain ⟨hvroute, hlag⟩ := afterDelivery_of_period hrt hperiod hu hv
      have harmed := ruMillisecond_armed (henv.mode.trans hmode) hvroute htake harming (by rw [henv.params]; exact hlimit)
      rw [hroute, harmed, ruRoughSlot, henv.ringDepth, henv.lastSlot, hlag]
      cases tk.reason <;> rfl
  · refine timerRow (due := ruTakeDue d) hr h honly hd rfl ?_ fun u v t hu hv hroute hdelivery => ?_
    · exact ruTakeDue_of_counting (s := s.withTb { s.tb with subMicros := max s.tb.subMicros 1000 }) hmode hrt htake
        (.inr hwait) hlimit
    · obtain ⟨henv, hseen⟩ := sameEnv_afterDelivery hu hv
      obtain ⟨hvroute, -⟩ := afterDelivery_of_period hrt hperiod hu hv
      have hfailed := ruMillisecond_failed (henv.mode.trans hmode) hvroute htake hwait (by rw [henv.params]; exact hlimit)
        (henv.holder.trans hh) ((henv.usable _).trans htarget) (by rw [(hseen e).2, henv.usable]; exact hback)
      rw [hroute]
      exact hfailed
  · refine timerRow (due := ruFreezeDue d) hr h honly hd rfl ?_ fun u v t hu hv hroute hdelivery => ?_
    · exact ruFreezeDue_of_running (s := s.withTb { s.tb with subMicros := max s.tb.subMicros 1000 }) hmode hrt hh hsource
        hfreeze hlimit
    · obtain ⟨henv, hseen⟩ := sameEnv_afterDelivery hu hv
      obtain ⟨c, hc⟩ := dmMillisecond_route (s := u) (hu.own.route.trans hrt)
      have hfrozen := ruMillisecond_frozen (henv.mode.trans hmode) (hv.own.route.trans hc) (henv.holder.trans hh) hsource
        htake hfreeze (by rw [henv.params]; exact hlimit)
      rw [hroute, hdelivery]
      exact hfrozen
  · have hholds := ruRevertHolds_of hh hhealth hauto hsince hsource hne
    refine timerRow (due := ruRevertDue d) hr h honly hd rfl ?_ fun u v t hu hv hroute hdelivery => ?_
    · exact (ruMillisecond_reverted (s := s.withTb { s.tb with subMicros := max s.tb.subMicros 1000 }) hmode hrt hh hholds
        htake (usable_of_healthy hhealth) hsearch hlimit).1
    · obtain ⟨henv, hseen⟩ := sameEnv_afterDelivery hu hv
      obtain ⟨hvroute, hlag⟩ := afterDelivery_of_period hrt hperiod hu hv
      have hselected : (v.entry e).selected = (s.entry e).selected := (hseen e).2
      have hreverted := ruMillisecond_reverted (slot := slot) (henv.mode.trans hmode) hvroute (henv.holder.trans hh)
        ((henv.ruRevertHolds hseen rfl rfl).trans hholds) htake
        (by rw [hselected, henv.usable]; exact usable_of_healthy hhealth)
        (by rw [hselected, henv.ruSearch hlag]; exact hsearch) (by rw [henv.params]; exact hlimit)
      rw [hselected] at hreverted
      rw [hroute]
      exact hreverted.2
  · intro raised
    refine timerRow (due := dmPeriodDue d) hr h honly hd rfl ?_ fun u v t hu hv hroute hdelivery => ?_
    · change ((s.route d).isSome && decide (10000 ≤ x.periodCount + 1)) = true
      rw [hrt, decide_eq_true hperiod]
      rfl
    · obtain ⟨henv, hseen⟩ := sameEnv_afterDelivery hu hv
      obtain ⟨hcount, hrepeats, hlag, hend⟩ := dmMillisecond_of_period_end (s := u) (hu.own.route.trans hrt) hchange
        (by rw [hu.own.delivery]; exact hperiod)
      obtain ⟨hkept, hkeptChange⟩ := ruMillisecond_kept (henv.mode.trans hmode) (hv.own.route.trans hend) hfreeze
      rw [hroute, hdelivery, hkept, hkeptChange, hv.own.delivery, hcount, hrepeats, hlag, hu.own.delivery]
      exact ⟨rfl, rfl, rfl, rfl⟩
  · refine timerRow (due := dmImpairmentDue d) hr h honly hd rfl ?_ fun u v t hu hv hroute hdelivery => ?_
    · change ((s.route d).isSome && x.impairment == 1) = true
      rw [hrt, himpair]
      rfl
    · obtain ⟨henv, hseen⟩ := sameEnv_afterDelivery hu hv
      obtain ⟨c, hc⟩ := dmMillisecond_route (s := u) (hu.own.route.trans hrt)
      have hend := dmMillisecond_of_impairment_end (s := u) (by rw [hu.own.delivery]; exact himpair)
        (hu.env.holder.trans hh) (hu.own.route.trans hrt) hsource hchange ((feedRec_congr hu.env.fm f).trans hy) hhealth
        htest (by rw [(hu.seen e).1]; exact hbill)
      obtain ⟨hkept, -⟩ := ruMillisecond_kept (henv.mode.trans hmode) (hv.own.route.trans hc) hfreeze
      rw [hdelivery, hkept, hv.own.delivery]
      exact hend

/-- R150: the revert timer does not reach the hold. -/
theorem ruRevertDue_of_short {s : State} {d : Nat} {rt : Route} (hrt : s.route d = some rt)
    (h : rt.revert + 1 < (s.destParams d).revertHold * 1000) : ruRevertDue d s = false := by
  obtain ⟨b, k, w, r, hr, -⟩ := ruBeforeRevert_spec hrt
  have hdue : ruRevertDue d s = (s.lpu.mode == .run && ((ruBeforeRevert d s).route d).any (fun r =>
      ruRevertHolds (ruBeforeRevert d s) d r && r.take.isNone &&
        decide ((s.destParams d).revertHold * 1000 ≤ r.revert))) := rfl
  have hrevert : r.revert ≤ rt.revert + 1 := hr.revert
  rw [hdue, hr.route, Option.any_some, decide_eq_false (by omega)]
  simp

/-- Settles O59. -/
theorem timersActAtTheirLimits : Obligations.TimersActAtTheirLimits := by
  refine ⟨routeTimers, deliveryTimers, ?_⟩
  intro s d rt hr hd hmode h hrt par x become
  refine ⟨timerRows s d rt hr hd hmode h hrt, fun hnot => ?_, fun hnot => ?_, fun hnot => ?_, fun hnot => ?_, fun hnot => ?_⟩
  · refine timerRow_idle (due := ruTakeDue d) h rfl ?_
    change (s.lpu.mode == .run && ((s.route d).bind Route.take).any _) = false
    rw [hrt]
    change (s.lpu.mode == .run && rt.take.any _) = false
    cases htake : rt.take with
    | none => simp
    | some tk =>
      rw [Option.any_some]
      obtain hstate | hstate | hlimit := hnot tk htake
      · simp [hstate]
      · simp [hstate]
      · have hlimit' : ¬(s.destParams d).takeTimeout ≤ tk.timer + 1 := Nat.not_le.2 hlimit
        change (_ && (_ && decide ((s.destParams d).takeTimeout ≤ tk.timer + 1))) = false
        simp [hlimit']
  · refine timerRow_idle (due := ruFreezeDue d) h rfl ?_
    change (s.lpu.mode == .run && (s.holder d).isSome && (s.route d).any (fun r =>
      r.source != .slate && r.freeze.any (fun n => decide (par.freezeLimit ≤ n + 1)))) = false
    rw [hrt, Option.any_some]
    cases hfreeze : rt.freeze with
    | none => simp
    | some k => simp [hnot k hfreeze]
  · exact timerRow_idle (due := ruRevertDue d) h rfl
      (ruRevertDue_of_short (s := s.withTb { s.tb with subMicros := max s.tb.subMicros 1000 }) hrt hnot)
  · refine timerRow_idle (due := dmPeriodDue d) h rfl ?_
    change ((s.route d).isSome && decide (10000 ≤ x.periodCount + 1)) = false
    rw [decide_eq_false (Nat.not_le.2 hnot), Bool.and_false]
  · refine timerRow_idle (due := dmImpairmentDue d) h rfl ?_
    change ((s.route d).isSome && x.impairment == 1) = false
    simp [hnot]

end Sys2Proof.Machine
end

section
/-! SUPPORT. The first writes and completions of units, and the scored errors of a feed: O30. -/

namespace Sys2Proof.Machine

/-! ### The record of a feed -/

theorem modFeed_of_feedRec {f : Nat} {s : State} {x : FeedRecord} (hx : s.feedRec f = some x)
    (g : FeedRecord → FeedRecord) : modFeed f g s = s.setFeedRec f (some (g x)) := by
  rw [modFeed, hx]

theorem modFeed_setFeedRec (f : Nat) (g : FeedRecord → FeedRecord) (x : FeedRecord) (s : State) :
    modFeed f g (s.setFeedRec f (some x)) = s.setFeedRec f (some (g x)) := by
  rw [modFeed_of_feedRec (State.feedRec_setFeedRec_self ..), State.setFeedRec_setFeedRec]

/-! ### Scored errors -/

/-- R83: the record after the test of the thresholds. -/
def FeedRecord.thresholded (p : FeedParams) (r : FeedRecord) : FeedRecord :=
  let failed : FeedRecord := { r with health := .failed, attempts := min 15 (r.attempts + 1), stateTimer := 0 }
  match r.health with
  | .healthy =>
    if p.degradeThreshold ≤ r.score then (if p.failThreshold ≤ r.score then failed else { r with health := .degraded })
    else r
  | .degraded =>
    if p.failThreshold ≤ r.score then failed
    else if r.score ≤ p.recoverThreshold then { r with health := .healthy }
    else r
  | _ => r

/-- R76, R81, R83: the record after a scored error of `k`. -/
def FeedRecord.scored (p : FeedParams) (k : Nat) (x : FeedRecord) : FeedRecord :=
  let y : FeedRecord := { x with score := min 1023 (x.score + k) }
  let more := min 15 (x.attempts + 1)
  match x.health with
  | .qualifying =>
    if p.attemptLimit ≤ more then { y with health := .barred, attempts := more }
    else { y with health := .retryWait, attempts := more, stateTimer := 0 }
  | _ => y.thresholded p

theorem FeedRecord.thresholded_openUnit (p : FeedParams) (x : FeedRecord) : (x.thresholded p).openUnit = x.openUnit := by
  unfold thresholded
  dsimp only
  split
  · split
    · split <;> rfl
    · rfl
  · split
    · rfl
    · split <;> rfl
  · rfl

theorem FeedRecord.scored_openUnit (p : FeedParams) (k : Nat) (x : FeedRecord) : (x.scored p k).openUnit = x.openUnit := by
  unfold scored
  dsimp only
  split
  · split <;> rfl
  · exact thresholded_openUnit ..

section
variable {s t : State} {f : Nat} {x : FeedRecord}

theorem FeedBecomes.fmReport (h : FeedBecomes f x s t) (g : Nat) (changes : List (Health × Health)) :
    FeedBecomes f x s (fmReport g changes t) :=
  h.of_fm_eq ((reading_fm t.fm).fmReport (fun _ => trivial) rfl g changes)

theorem FeedBecomes.entered {r z : FeedRecord} (hr : s.feedRec f = some r) {new : Health}
    (hz : { x with health := new } = z) : FeedBecomes f z s (fmEnter f new x s) := hz ▸ .enter hr new x

theorem fmThresholds_becomes (hx : s.feedRec f = some x) :
    FeedBecomes f (x.thresholded (s.feedParams f)) s (fmThresholds f s).1 := by
  unfold fmThresholds FeedRecord.thresholded
  rw [hx]
  dsimp only
  cases x.health
  case healthy =>
    dsimp only
    split
    · split
      · have hdegraded := FeedBecomes.enter hx .degraded x
        exact hdegraded.trans (.entered hdegraded.record (by rfl))
      · exact .entered hx (by rfl)
    · exact .refl hx
  case degraded =>
    dsimp only
    split
    · exact .entered hx (by rfl)
    · split
      · exact .entered hx (by rfl)
      · exact .refl hx
  all_goals exact .refl hx

theorem FeedRecord.scored_of_qualifying (h : x.health = .qualifying) (p : FeedParams) (k : Nat) :
    x.scored p k = if p.attemptLimit ≤ min 15 (x.attempts + 1) then
        { x with score := min 1023 (x.score + k), health := .barred, attempts := min 15 (x.attempts + 1) }
      else { x with
        score := min 1023 (x.score + k), health := .retryWait, attempts := min 15 (x.attempts + 1), stateTimer := 0 } := by
  rw [scored, h]

theorem fmScored_of_qualifying (hx : s.feedRec f = some x) (h : x.health = .qualifying) (k : Nat) :
    fmScored f k s = if (s.feedParams f).attemptLimit ≤ min 15 (x.attempts + 1) then
        fmChange f .barred { x with score := min 1023 (x.score + k), attempts := min 15 (x.attempts + 1) } s
      else fmChange f .retryWait
        { x with score := min 1023 (x.score + k), attempts := min 15 (x.attempts + 1), stateTimer := 0 } s := by
  unfold fmScored
  rw [hx]
  dsimp only
  rw [h]
  rfl

theorem FeedRecord.scored_of_not_qualifying (h : x.health ≠ .qualifying) (p : FeedParams) (k : Nat) :
    x.scored p k = ({ x with score := min 1023 (x.score + k) } : FeedRecord).thresholded p := by
  unfold scored
  split
  next hq => exact absurd hq h
  · rfl

theorem fmScored_of_not_qualifying (hx : s.feedRec f = some x) (h : x.health ≠ .qualifying) (k : Nat) :
    fmScored f k s =
      let y := fmThresholds f (s.setFeedRec f (some { x with score := min 1023 (x.score + k) }))
      Machine.fmReport f y.2 y.1 := by
  unfold fmScored
  rw [hx]
  dsimp only
  split
  next hq => exact absurd hq h
  · rfl

/-- R76, R81, R83: what a scored error makes of the FM. -/
theorem fmScored_becomes (hx : s.feedRec f = some x) (k : Nat) :
    FeedBecomes f (x.scored (s.feedParams f) k) s (fmScored f k s) := by
  let y : FeedRecord := { x with score := min 1023 (x.score + k) }
  have hy := FeedBecomes.setFeedRec f y s
  have htested : FeedBecomes f (y.thresholded (s.feedParams f)) s (fmThresholds f (s.setFeedRec f (some y))).1 :=
    hy.trans (fmThresholds_becomes hy.record)
  by_cases hh : x.health = .qualifying
  · rw [fmScored_of_qualifying hx hh, FeedRecord.scored_of_qualifying hh]
    split
    · exact .change hx rfl
    · exact .change hx rfl
  · rw [FeedRecord.scored_of_not_qualifying hh, fmScored_of_not_qualifying hx hh]
    exact htested.fmReport ..

end

/-- The first part of O30. -/
theorem scoredErrors (s : State) (f k : Nat) (x : FeedRecord) (hx : s.feedRec f = some x) :
    let p := s.feedParams f
    let t := fmScored f k s
    let y : FeedRecord := { x with score := min 1023 (x.score + k) }
    let more := min 15 (x.attempts + 1)
    let failed : FeedRecord := { y with health := .failed, attempts := more, stateTimer := 0 }
    (∀ g, g ≠ f → t.feedRec g = s.feedRec g) ∧ t.fm.params = s.fm.params ∧
    (x.health = .qualifying → t.feedRec f = some (if p.attemptLimit ≤ more then
      { y with health := .barred, attempts := more }
      else { y with health := .retryWait, attempts := more, stateTimer := 0 })) ∧
    (x.health = .healthy → t.feedRec f = some (
      if y.score < p.degradeThreshold then y else if y.score < p.failThreshold then { y with health := .degraded }
      else failed)) ∧
    (x.health = .degraded → t.feedRec f = some (
      if p.failThreshold ≤ y.score then failed else if y.score ≤ p.recoverThreshold then { y with health := .healthy }
      else y)) ∧
    (x.health ∈ [.absent, .retryWait, .failed, .lost, .barred] → t.feedRec f = some y) := by
  intro p t y more failed
  have h := fmScored_becomes hx k
  have hscored : ∀ z, x.scored p k = z → t.feedRec f = some z := fun z hz => hz ▸ h.record
  refine ⟨h.others, h.params, fun hh => hscored _ ?_, fun hh => hscored _ ?_, fun hh => hscored _ ?_, fun hh => hscored _ ?_⟩
  · exact FeedRecord.scored_of_qualifying hh p k
  · have hy : y.health = .healthy := hh
    have hthresholds : x.scored p k = y.thresholded p := FeedRecord.scored_of_not_qualifying (by simp [hh]) p k
    rw [hthresholds, FeedRecord.thresholded, hy]
    simp only [← Nat.not_lt, ite_not]
    rfl
  · have hy : y.health = .degraded := hh
    have hthresholds : x.scored p k = y.thresholded p := FeedRecord.scored_of_not_qualifying (by simp [hh]) p k
    rw [hthresholds, FeedRecord.thresholded, hy]
  · have hkept : y.thresholded p = y := by
      unfold FeedRecord.thresholded
      have hy : y.health = x.health := rfl
      rw [hy]
      cases hx : x.health
      case healthy => simp [hx] at hh
      case degraded => simp [hx] at hh
      all_goals rfl
    have hnot : x.health ≠ .qualifying := fun hq => by simp [hq] at hh
    exact (FeedRecord.scored_of_not_qualifying hnot p k).trans hkept

/-! ### First writes and completions -/

/-- R68: the record with slot `w` overwritten. -/
theorem FeedRecord.overwrite_eq (n w : Nat) (z : FeedRecord) : z.overwrite n w =
    if 1 ≤ z.complete ∧ modSub n z.lastSlot w < z.complete then
      { z with complete := modSub n z.lastSlot w,
               pictureStarts := z.pictureStarts.filter (fun p => modSub n z.lastSlot p < modSub n z.lastSlot w) }
    else z := by
  unfold overwrite
  by_cases h : 1 ≤ z.complete ∧ modSub n z.lastSlot w < z.complete
  · rw [if_pos h, if_pos (by simp [h])]
  · rw [if_neg h, if_neg (by simpa using h)]

section
variable {s v : State} {f w : Nat} {x z : FeedRecord}

/-- The record of a feed whose open unit is torn. -/
def FeedRecord.torn (x : FeedRecord) : FeedRecord :=
  { x with
    openUnit := none,
    counters := { x.counters with
      malformed := min 4294967295 (x.counters.malformed + 1), torn := min 4294967295 (x.counters.torn + 1) } }

theorem fmTear_eq (hx : s.feedRec f = some x) :
    fmTear f s = if x.openUnit = none then s else fmScored f 8 (s.setFeedRec f (some x.torn)) := by
  unfold fmTear
  rw [hx]
  dsimp only
  cases h : x.openUnit with
  | none => rfl
  | some u => rfl

theorem fmPartialWrite_eq (hz : (fmTear f s).feedRec f = some z) : fmPartialWrite f w s =
    (fmTear f s).setFeedRec f (some { z.overwrite s.ringDepth w with openUnit := some ⟨w, none⟩ }) := by
  rw [fmPartialWrite, modFeed_of_feedRec hz, modFeed_setFeedRec]

theorem fmHeaderWrite_eq (hz : (fmTear f s).feedRec f = some z) (bytes : List Byte) :
    let y := checkHeader f bytes (z.overwrite s.ringDepth w)
    let u := (fmTear f s).setFeedRec f (some y.1)
    fmHeaderWrite f w bytes s = modFeed f (fun x => { x with openUnit := some ⟨w, some y.2.1⟩ })
      (if 0 < y.2.2 then fmScored f y.2.2 u else u) := by
  unfold fmHeaderWrite
  rw [modFeed_of_feedRec hz]
  dsimp only
  rw [State.feedRec_setFeedRec_self]
  dsimp only
  rw [State.setFeedRec_setFeedRec]

theorem fmCompletion_of_headerless (hx : s.feedRec f = some x) (h : ∀ head, x.openUnit ≠ some ⟨w, some head⟩) :
    fmCompletion f w s = fmHeaderlessCompletion f w s := by
  unfold fmCompletion
  rw [hx]
  dsimp only
  split
  next k head hopen =>
    refine if_neg ?_
    rintro rfl
    exact h head hopen
  · rfl

/-- R71: what remains of the open unit after a completion without a header at `w`. -/
def FeedRecord.staysOpen (w : Nat) (x : FeedRecord) : Option OpenUnit :=
  if x.openUnit = some ⟨w, none⟩ then none else x.openUnit

theorem FeedRecord.staysOpen_eq (w : Nat) (x : FeedRecord) :
    (if x.openUnit.any (fun u => u.slot == w && u.head.isNone) then { x with openUnit := none } else x) =
      { x with openUnit := x.staysOpen w } := by
  unfold staysOpen
  cases h : x.openUnit with
  | none =>
    rw [Option.any_none, if_neg Bool.false_ne_true, ite_self, ← h]
  | some u =>
    obtain ⟨k, head⟩ := u
    by_cases hk : k = w ∧ head = none
    · obtain ⟨rfl, rfl⟩ := hk
      simp
    · have hne : (some ⟨k, head⟩ : Option OpenUnit) ≠ some ⟨w, none⟩ := by
        simpa using hk
      rw [if_neg hne, if_neg (by simpa using hk), ← h]

theorem fmHeaderlessCompletion_of_absent (hx : s.feedRec f = some x) (h : x.health = .absent ∨ x.health = .lost) :
    fmHeaderlessCompletion f w s = s.setFeedRec f (some { x with silence := 0, openUnit := x.staysOpen w }) := by
  unfold fmHeaderlessCompletion
  rw [hx]
  dsimp only
  rw [if_pos (by simpa using h), modFeed_setFeedRec, FeedRecord.staysOpen_eq]
  rfl

theorem fmHeaderlessCompletion_of_present (hx : s.feedRec f = some x) (ha : x.health ≠ .absent) (hl : x.health ≠ .lost) :
    let v := fmScored f 8 (s.setFeedRec f (some { x with silence := 0 }))
    ∃ z, v.feedRec f = some z ∧ fmHeaderlessCompletion f w s = v.setFeedRec f (some { z.overwrite s.ringDepth w with
      openUnit := x.staysOpen w,
      counters := { z.counters with malformed := min 4294967295 (z.counters.malformed + 1) } }) := by
  intro v
  let y : FeedRecord := { x with silence := 0 }
  have hz := (fmScored_becomes (FeedBecomes.setFeedRec f y s).record 8).record
  refine ⟨_, hz, ?_⟩
  obtain ⟨z, hzdef⟩ : ∃ z, z = y.scored ((s.setFeedRec f (some y)).feedParams f) 8 := ⟨_, rfl⟩
  have hopen : z.openUnit = x.openUnit := by
    rw [hzdef]
    exact FeedRecord.scored_openUnit ..
  rw [← hzdef] at hz ⊢
  have hvz : v.feedRec f = some z := hz
  unfold fmHeaderlessCompletion
  rw [hx]
  dsimp only
  rw [if_neg (by simp [ha, hl])]
  change modFeed f _ (modFeed f _ v) = _
  rw [modFeed_of_feedRec hvz, modFeed_setFeedRec, FeedRecord.staysOpen_eq]
  have hstays : ∀ y : FeedRecord, y.openUnit = x.openUnit → y.staysOpen w = x.staysOpen w := fun y hy => by
    rw [FeedRecord.staysOpen, FeedRecord.staysOpen, hy]
  have hkept : ∀ y : FeedRecord, (y.overwrite s.ringDepth w).openUnit = y.openUnit := fun y => by
    unfold FeedRecord.overwrite
    dsimp only
    split <;> rfl
  rw [hstays _ ((hkept { z with counters :=
    { z.counters with malformed := satAdd max32 z.counters.malformed 1 } }).trans hopen)]
  congr 2
  unfold FeedRecord.overwrite
  dsimp only
  split <;> rfl

end

/-- Settles O30. -/
theorem scoredErrorsMoveHealth : Obligations.ScoredErrorsMoveHealth := by
  refine ⟨scoredErrors, ?_⟩
  intro s f w o r x h hx n cut count torn
  have hx' : (s.passed r).feedRec f = some x := hx
  have hcut : ∀ z : FeedRecord, z.overwrite (s.passed r).ringDepth w = cut z := FeedRecord.overwrite_eq n w
  refine ⟨fun v z ho hv hz => ?_, fun ho hlen hopen => ?_⟩
  · have htear : fmTear f (s.passed r) = v := (fmTear_eq hx').trans hv.symm
    have hz' : (fmTear f (s.passed r)).feedRec f = some z := htear ▸ hz
    refine ⟨fun hlen => ?_, fun hlen => ?_⟩
    · rw [exec_ringWrite, h.lpuReceive_eq, if_pos ho, if_neg (Nat.not_le.2 hlen), fmPartialWrite_eq hz', htear, hcut]
    · intro y u
      have hwrite := fmHeaderWrite_eq (w := w) hz' (r.data.take 16)
      rw [htear, hcut] at hwrite
      rw [exec_ringWrite, h.lpuReceive_eq, if_pos ho, if_pos hlen, hwrite]
      refine ⟨fun hzero => ?_, fun hpos => ?_⟩
      · rw [if_neg (by rw [hzero]; exact Nat.lt_irrefl 0), modFeed_of_feedRec (State.feedRec_setFeedRec_self ..)]
      · have hz2 := (fmScored_becomes (FeedBecomes.setFeedRec f y.1 v).record y.2.2).record
        refine ⟨_, hz2, ?_⟩
        rw [if_pos hpos, modFeed_of_feedRec hz2]
  · rw [exec_ringWrite, h.lpuReceive_eq, if_neg ho, if_pos hlen, fmCompletion_of_headerless hx' hopen]
    intro stays
    refine ⟨fun hh => ?_, fun ha hl => ?_⟩
    · rw [fmHeaderlessCompletion_of_absent hx' hh]
      rfl
    · intro v
      obtain ⟨z, hz, heq⟩ := fmHeaderlessCompletion_of_present (w := w) hx' ha hl
      refine ⟨z, hz, ?_⟩
      rw [heq, hcut]
      rfl

end Sys2Proof.Machine
end

section
/-! SUPPORT. The completion of a headed unit (O31). -/

namespace Sys2Proof.Machine

/-! ### The record after the seven steps of R69 -/

/-- R69, steps 1 and 2: the silence ends, and an absent or lost feed enters QUALIFYING. -/
def FeedRecord.woken (x : FeedRecord) : FeedRecord :=
  if x.health = .absent ∨ x.health = .lost then
    { x with silence := 0, complete := 0, pictureStarts := [], cleanRun := 0, health := .qualifying }
  else { x with silence := 0 }

/-- R69, steps 3 to 6, of slot `w`, whose unit has `head`. -/
def FeedRecord.completed (n w : Nat) (head : UnitHead) (x : FeedRecord) : FeedRecord :=
  let listed := (x.completeSlot n w).listPictureStart n
    (head.pictureStart && (head.result == .inOrder || head.result == .gap))
  ({ listed with testSignal := head.testSignal } : FeedRecord).countClean (head.result == .inOrder)

/-- R69, step 7, after a clean completion where `clean` says so. -/
def FeedRecord.evaluated (p : FeedParams) (clean : Bool) (x : FeedRecord) : FeedRecord :=
  if clean then
    if x.health = .qualifying then
      if p.qualLength ≤ x.cleanRun then { x with health := .healthy, score := 0, attempts := 0 } else x
    else x.thresholded p
  else x

section
variable {s t : State} {f : Nat} {x : FeedRecord}

theorem FeedBecomes.modFeed (h : FeedBecomes f x s t) (g : FeedRecord → FeedRecord) :
    FeedBecomes f (g x) s (modFeed f g t) := by
  rw [modFeed_of_feedRec h.record]
  exact h.trans (.setFeedRec f (g x) t)

theorem FeedRecord.with_testSignal {b : Bool} (h : x.testSignal = b) : { x with testSignal := b } = x := by
  subst h
  rfl

theorem fmTestSignal_becomes (hx : s.feedRec f = some x) (b : Bool) :
    FeedBecomes f { x with testSignal := b } s (fmTestSignal f b s) := by
  unfold fmTestSignal
  rw [hx]
  dsimp only
  split
  next h =>
    rw [FeedRecord.with_testSignal h]
    exact .refl hx
  · have hset := FeedBecomes.setFeedRec f { x with testSignal := b } s
    have hraised := hset.of_fm_eq (raise_fm .feed 2 f [flag b, x.lastSlot, x.health.num, x.score] _)
    exact hraised.of_fm_eq ((reading_fm _).dmReclassFeed (fun _ => trivial) rfl f)

theorem fmEvaluate_of_qualifying (hx : s.feedRec f = some x) (hh : x.health = .qualifying) : fmEvaluate f true s =
    if (s.feedParams f).qualLength ≤ x.cleanRun then
      (fmEnter f .healthy { x with score := 0, attempts := 0 } s, [(.qualifying, .healthy)])
    else (s, []) := by
  simp [fmEvaluate, hx, hh]

theorem fmEvaluate_of_not_qualifying (hx : s.feedRec f = some x) (hh : x.health ≠ .qualifying) :
    fmEvaluate f true s = fmThresholds f s := by
  simp [fmEvaluate, hx, hh]

theorem fmEvaluate_becomes (hx : s.feedRec f = some x) (clean : Bool) :
    FeedBecomes f (x.evaluated (s.feedParams f) clean) s (fmEvaluate f clean s).1 := by
  cases clean with
  | false =>
    have hidle : fmEvaluate f false s = (s, []) := by simp [fmEvaluate, hx]
    rw [hidle]
    exact .refl hx
  | true =>
    unfold FeedRecord.evaluated
    rw [if_pos rfl]
    by_cases hh : x.health = .qualifying
    · rw [if_pos hh, fmEvaluate_of_qualifying hx hh]
      split
      · exact .entered hx rfl
      · exact .refl hx
    · rw [if_neg hh, fmEvaluate_of_not_qualifying hx hh]
      exact fmThresholds_becomes hx

/-- R69: what the completion of a headed unit makes of the FM. -/
theorem fmUnitCompletion_becomes (s : State) (f : Nat) (x : FeedRecord) (w : Nat) (head : UnitHead) :
    FeedBecomes f ((x.woken.completed s.ringDepth w head).evaluated (s.feedParams f) (head.result == .inOrder)) s
      (fmUnitCompletion f w head x s) := by
  let y : FeedRecord := { x with silence := 0 }
  obtain ⟨s1, h1⟩ : ∃ t, t = s.setFeedRec f (some y) := ⟨_, rfl⟩
  have hy : FeedBecomes f y s s1 := h1 ▸ .setFeedRec f y s
  obtain ⟨s2, h2⟩ : ∃ t, t = if x.health == .absent || x.health == .lost then fmEnter f .qualifying y.startAfresh s1
    else s1 := ⟨_, rfl⟩
  have hwoken : FeedBecomes f x.woken s s2 := by
    rw [h2]
    unfold FeedRecord.woken
    by_cases h : x.health = .absent ∨ x.health = .lost
    · rw [if_pos h, if_pos (by simpa using h)]
      exact hy.trans (.entered hy.record rfl)
    · rw [if_neg h, if_neg (by simpa using h)]
      exact hy
  have hlisted := hwoken.modFeed fun x => (x.completeSlot s.ringDepth w).listPictureStart s.ringDepth
    (head.pictureStart && (head.result == .inOrder || head.result == .gap))
  have htested := hlisted.trans (fmTestSignal_becomes hlisted.record head.testSignal)
  have hcounted := htested.modFeed (FeedRecord.countClean (head.result == .inOrder))
  have hevaluated := hcounted.trans (fmEvaluate_becomes hcounted.record (head.result == .inOrder))
  rw [hcounted.feedParams] at hevaluated
  unfold fmUnitCompletion
  dsimp only
  rw [← h1, ← h2]
  exact FeedBecomes.of_fm_eq (hevaluated.fmReport f _)
    (forAll_keeps State.fm (fun d u => (reading_fm u.fm).ruSlotCompletion trivial rfl f) 48 _)

end

/-! ### The fields of the record -/

section
variable {n w : Nat} {head : UnitHead} {p : FeedParams} {clean : Bool} {x : FeedRecord}

/-- R83: the thresholds move the health, with the attempts and the state timer of a failure. -/
theorem FeedRecord.thresholded_eq (p : FeedParams) (x : FeedRecord) : x.thresholded p = { x with
    health := (x.thresholded p).health, attempts := (x.thresholded p).attempts,
    stateTimer := (x.thresholded p).stateTimer } := by
  unfold thresholded
  dsimp only
  split
  · split
    · split <;> rfl
    · rfl
  · split
    · rfl
    · split <;> rfl
  · rfl

theorem FeedRecord.evaluated_eq (p : FeedParams) (clean : Bool) (x : FeedRecord) : x.evaluated p clean = { x with
    health := (x.evaluated p clean).health, score := (x.evaluated p clean).score,
    attempts := (x.evaluated p clean).attempts, stateTimer := (x.evaluated p clean).stateTimer } := by
  unfold evaluated
  split
  · split
    · split <;> rfl
    · rw [thresholded_eq]
  · rfl

theorem FeedRecord.completed_eq (n w : Nat) (head : UnitHead) (x : FeedRecord) :
    let clean := head.result = .inOrder
    let complete := if x.complete = 0 then 1 else if w = (x.lastSlot + 1) % n then min n (x.complete + 1) else 1
    let pushed :=
      if head.pictureStart = true ∧ (head.result = .inOrder ∨ head.result = .gap) then
        (w :: x.pictureStarts.filter (fun q => q ≠ w)).take 8
      else x.pictureStarts
    x.completed n w head = { x with
      openUnit := none, complete := complete, lastSlot := w,
      counters := { x.counters with completions := min 4294967295 (x.counters.completions + 1) },
      pictureStarts := pushed.filter (fun q => modSub n w q ≤ n / 2 ∧ modSub n w q < complete),
      testSignal := head.testSignal,
      score := if clean then x.score - 1 else x.score,
      cleanRun := if clean then min 255 (x.cleanRun + 1) else 0 } := by
  intro clean complete pushed
  have hpush : (head.pictureStart && (head.result == .inOrder || head.result == .gap)) =
      decide (head.pictureStart = true ∧ (head.result = .inOrder ∨ head.result = .gap)) := by
    simp [Bool.decide_and, Bool.decide_or, beq_eq_decide]
  have hwithin : ∀ k, (fun q => decide (modSub n w q ≤ n / 2) && decide (modSub n w q < k)) =
      fun q => decide (modSub n w q ≤ n / 2 ∧ modSub n w q < k) := fun k => funext fun q => (Bool.decide_and ..).symm
  have hothers : (fun q => q != w) = fun q => decide (q ≠ w) := funext fun q => by simp [bne, beq_eq_decide]
  unfold completed completeSlot listPictureStart countClean completeAfter
  rw [hpush]
  dsimp only
  rw [hothers, hwithin]
  by_cases hc : head.result = .inOrder
  · simp [hc, clean, complete, pushed, satAdd, max32]
  · simp [hc, clean, complete, pushed, satAdd, max32]

/-- R81, R83: what the evaluation makes of the health, the score and the attempts of a clean unit. -/
theorem FeedRecord.evaluated_of_clean (p : FeedParams) (x : FeedRecord) :
    let y := x.evaluated p true
    (x.health = .qualifying → (p.qualLength ≤ x.cleanRun → y.health = .healthy ∧ y.score = 0 ∧ y.attempts = 0) ∧
      (x.cleanRun < p.qualLength → y = x)) ∧
    (x.health = .healthy → x.score < p.degradeThreshold → y = x) ∧
    (x.health = .degraded → x.score < p.failThreshold → y = if x.score ≤ p.recoverThreshold then
      { x with health := .healthy } else x) ∧
    (x.health ∈ [.retryWait, .failed, .barred] → y = x) := by
  intro y
  have hy : y = if x.health = .qualifying then
      if p.qualLength ≤ x.cleanRun then { x with health := .healthy, score := 0, attempts := 0 } else x
    else x.thresholded p := if_pos rfl
  refine ⟨fun hh => ⟨fun hrun => ?_, fun hrun => ?_⟩, fun hh hscore => ?_, fun hh hscore => ?_, fun hh => ?_⟩
  · rw [hy, if_pos hh, if_pos hrun]
    exact ⟨rfl, rfl, rfl⟩
  · rw [hy, if_pos hh, if_neg (Nat.not_le.2 hrun)]
  · rw [hy, if_neg (by simp [hh]), thresholded, hh]
    exact if_neg (Nat.not_le.2 hscore)
  · rw [hy, if_neg (by simp [hh]), thresholded, hh]
    exact if_neg (Nat.not_le.2 hscore)
  · rw [hy, if_neg (fun hq => by simp [hq] at hh), thresholded]
    split
    next h => simp [h] at hh
    next h => simp [h] at hh
    · rfl

end

/-- Settles O31: the record after the completion is `FeedRecord.evaluated` of `FeedRecord.completed` of `FeedRecord.woken`. -/
theorem completionMovesTheLastSlot : Obligations.CompletionMovesTheLastSlot := by
  intro s f w o r x head h ho hlen hx hopen n p awake k complete listed pushed score run
  obtain ⟨z, hz⟩ : ∃ z, z = x.woken.completed n w head := ⟨_, rfl⟩
  obtain ⟨y, hy⟩ : ∃ y, y = z.evaluated p (head.result == .inOrder) := ⟨_, rfl⟩
  obtain ⟨t, ht⟩ : ∃ t, t = fmUnitCompletion f w head x (s.passed r) := ⟨_, rfl⟩
  have hexec : exec (.ringWrite r) s = .next t := by
    have hx' : (s.passed r).feedRec f = some x := hx
    rw [exec_ringWrite, h.lpuReceive_eq, if_neg ho, if_pos hlen, fmCompletion, hx']
    dsimp only
    rw [hopen, ht]
    exact congrArg _ (if_pos rfl)
  have hbecomes : FeedBecomes f y (s.passed r) t := by
    have hdepth : (s.passed r).ringDepth = n := rfl
    have hparams : (s.passed r).feedParams f = p := rfl
    have h := fmUnitCompletion_becomes (s.passed r) f x w head
    rw [hdepth, hparams, ← hz, ← hy, ← ht] at h
    exact h
  have hwrites : t.lpu.foreignWrites = s.lpu.foreignWrites := by
    rw [ht]
    exact (reading_foreignWrites _).fmUnitCompletion (fun _ => trivial) rfl trivial w head x
  have hwoken : x.woken = { x with
      silence := 0, complete := k, pictureStarts := listed, cleanRun := if awake then 0 else x.cleanRun,
      health := if awake then .qualifying else x.health } := by
    by_cases ha : awake
    · rw [FeedRecord.woken, if_pos ha]
      simp [k, listed, ha]
    · rw [FeedRecord.woken, if_neg ha]
      simp [k, listed, ha]
  have hcompleted := FeedRecord.completed_eq n w head x.woken
  rw [← hz, hwoken] at hcompleted
  have hyz := FeedRecord.evaluated_eq p (head.result == .inOrder) z
  rw [← hy] at hyz
  have hfields : ∀ {z' : FeedRecord}, z = z' → y = { z' with
      health := y.health, score := y.score, attempts := y.attempts, stateTimer := y.stateTimer } := fun h => h ▸ hyz
  have hkept := hfields hcompleted
  refine ⟨t, y, hexec, hbecomes.record, ?_, ?_, ?_, ?_, ?_, ?_, ?_, hwrites, hbecomes.others, fun hr => ?_, fun hr => ?_⟩
  · rw [hkept]
  · rw [hkept]
  · rw [hkept]
  · rw [hkept]
  · rw [hkept]
  · rw [hkept]
  · rw [hkept]
  · have hsame : y = z := by
      rw [hy, beq_false_of_ne hr]
      rfl
    rw [hsame, hcompleted]
    exact ⟨if_neg hr, if_neg hr, rfl, rfl⟩
  · have hclean : y = z.evaluated p true := by rw [hy, hr]; rfl
    have hhealth : z.health = if awake then .qualifying else x.health := by rw [hcompleted]
    have hrun : z.cleanRun = run := by rw [hcompleted]; exact if_pos hr
    have hscore : z.score = score := by rw [hcompleted]; exact if_pos hr
    have hattempts : z.attempts = x.attempts := by rw [hcompleted]
    have hasleep : x.health ∉ [.absent, .lost] → z.health = x.health := fun hnot => by
      rw [hhealth, if_neg]
      rintro (ha | hl)
      · simp [ha] at hnot
      · simp [hl] at hnot
    obtain ⟨hqualifying, hhealthy, hdegraded, hothers⟩ := FeedRecord.evaluated_of_clean p z
    rw [← hclean, hrun] at hqualifying
    rw [← hclean, hscore] at hhealthy hdegraded
    rw [← hclean] at hothers
    refine ⟨?_, fun hh => ?_, fun hh hlow => ?_, fun hh hlow => ?_, fun hh => ?_⟩
    · rw [hkept]
      exact if_pos hr
    · have hq : z.health = .qualifying := by
        rw [hhealth]
        split
        · rfl
        next hnot => exact hh.resolve_left hnot
      obtain ⟨hdone, hmore⟩ := hqualifying hq
      refine ⟨hdone, fun hlow => ?_⟩
      rw [hmore hlow]
      exact ⟨hq, hscore, hattempts⟩
    · have hz := hasleep (by simp [hh])
      rw [hhealthy (hz.trans hh) hlow]
      exact ⟨hz.trans hh, hscore, hattempts⟩
    · have hz := (hasleep (by simp [hh])).trans hh
      rw [hdegraded hz hlow]
      split
      · exact ⟨rfl, hattempts, rfl⟩
      · exact ⟨hscore, hattempts, hz⟩
    · have hz := hasleep (by
        simp only [List.mem_cons, List.not_mem_nil, or_false] at hh
        obtain hh | hh | hh := hh <;> simp [hh])
      rw [hothers (by rw [hz]; exact hh)]
      exact ⟨hz, hscore, hattempts⟩

end Sys2Proof.Machine
end

section
/-! SUPPORT. The slot completion reports, and where the reports of the FM come from (O58, second and third part). -/

namespace Sys2Proof.Machine

section
variable {s : State} {d f : Nat} {rt : Route} {tk : Take} {x : FeedRecord}

/-! ### The slot completion report -/

theorem lpuHoldCompletion_of_no_hold (h : s.hold d = none) (f : Nat) : lpuHoldCompletion d f s = s := by
  rw [lpuHoldCompletion, h]

theorem ruSlotCompletion_of_take (hrt : s.route d = some rt) (htake : rt.take = some tk) (hhold : s.hold d = none) (f : Nat) :
    ruSlotCompletion f d s = s.setRoute d (some { rt with take :=
      (some (if tk.target = f then ruCompletionTake s d tk else tk)) }) := by
  have hcompletion : ruCompletion d f s = s.setRoute d (some { rt with take :=
      (some (if tk.target = f then ruCompletionTake s d tk else tk)) }) := by
    rw [ruCompletion, modRoute_of_route hrt, htake]
    rfl
  rw [ruSlotCompletion, hcompletion, lpuHoldCompletion_of_no_hold]
  exact hhold

theorem Take.with_state {st : TakeState} {k : Option Nat} {b : Bool} (hs : tk.state = st) (hk : tk.slot = k)
    (hb : tk.rough = b) : ({ tk with state := st, slot := k, rough := b } : Take) = tk := by
  subst hs hk hb
  rfl

/-- R132, R134: what a slot completion report of its target makes of a take. -/
theorem ruCompletionTake_of_ready_exact {p : Nat} (hstate : tk.state = .ready) (hp : tk.slot = some p)
    (hrough : tk.rough = false) : ruCompletionTake s d tk =
      if s.ringDepth / 2 < slotDistance s tk.target p then ruArm s d { tk with timer := 0 } else tk := by
  unfold ruCompletionTake
  rw [hstate, hp]
  dsimp only
  rw [hrough]
  simp

theorem ruCompletionTake_of_ready_rough {p : Nat} (hstate : tk.state = .ready) (hp : tk.slot = some p)
    (hrough : tk.rough = true) :
    (∀ q, ruSearch s d tk.target = some q → ruCompletionTake s d tk = { tk with slot := some q, rough := false }) ∧
    (ruSearch s d tk.target = none → ruCompletionTake s d tk =
      if s.ringDepth / 2 < slotDistance s tk.target p then { tk with state := .arming, slot := none, rough := false, timer := 0 }
      else tk) := by
  refine ⟨fun q hq => ?_, fun hq => ?_⟩
  · unfold ruCompletionTake
    rw [hstate, hp]
    dsimp only
    rw [hrough, if_pos rfl, hq]
  · unfold ruCompletionTake
    rw [hstate, hp]
    dsimp only
    rw [hrough, if_pos rfl, hq]
    simp

theorem ruCompletionTake_of_cued {p : Nat} (hstate : tk.state = .cued) (hp : tk.slot = some p) :
    (∀ q, ruSearch s d tk.target = some q → ruCompletionTake s d tk = { tk with slot := some q, rough := false }) ∧
    (ruSearch s d tk.target = none → ruCompletionTake s d tk =
      if s.ringDepth / 2 < slotDistance s tk.target p then
        { tk with slot := some (ruRoughSlot s d tk.target), rough := true }
      else tk) := by
  refine ⟨fun q hq => ?_, fun hq => ?_⟩
  · unfold ruCompletionTake
    rw [hstate, hp]
    dsimp only
    rw [hq]
  · unfold ruCompletionTake
    rw [hstate, hp]
    dsimp only
    rw [hq]
    simp

/-- R132, R134: the second part of O58. -/
theorem completionReportsReachTakes (s : State) (d f : Nat) (rt : Route) (tk : Take) (x : FeedRecord)
    (hrt : s.route d = some rt) (htake : rt.take = some tk) (hhold : s.hold d = none) (hx : s.feedRec f = some x) :
    let t := ruSlotCompletion f d s
    let n := s.ringDepth
    let ends := fun (k : Take) => t.route d = some { rt with take := (some k) } ∧ (∀ g, g ≠ d → t.route g = s.route g) ∧
      t.bt = s.bt ∧ t.rw = s.rw ∧ t.lpu = s.lpu ∧ t.dm = s.dm
    let far := fun p => n / 2 < modSub n x.lastSlot p
    let armed : TakeState := if tk.reason = .cue then .cued else .ready
    let again : Take := { tk with state := .arming, slot := none, rough := false, timer := 0 }
    (tk.target ≠ f ∨ tk.state = .waitSource → ends tk) ∧
    (tk.target = f →
      (tk.state = .arming →
        (∀ q, ruSearch s d f = some q → ends { tk with state := armed, slot := some q, rough := false }) ∧
        (ruSearch s d f = none → tk.slot = none → tk.rough = false → ends tk)) ∧
      ∀ p, tk.slot = some p →
        (tk.state = .ready → tk.rough = false →
          (¬far p → ends tk) ∧ (far p → ruSearch s d f = none → ends again) ∧
          ∀ q, far p → ruSearch s d f = some q → ends { tk with state := armed, slot := some q, timer := 0 }) ∧
        (tk.state = .ready → tk.rough = true →
          (∀ q, ruSearch s d f = some q → ends { tk with slot := some q, rough := false }) ∧
          (ruSearch s d f = none → (far p → ends again) ∧ (¬far p → ends tk))) ∧
        (tk.state = .cued →
          (∀ q, ruSearch s d f = some q → ends { tk with slot := some q, rough := false }) ∧
          (ruSearch s d f = none → ¬far p → ends tk) ∧
          (ruSearch s d f = none → far p →
            ends { tk with slot := some (modSub n x.lastSlot (s.delivery d).lag), rough := true }))) := by
  intro t n ends far armed again
  have ht : t = s.setRoute d (some { rt with take := some (if tk.target = f then ruCompletionTake s d tk else tk) }) :=
    ruSlotCompletion_of_take hrt htake hhold f
  have hends : ∀ k, (if tk.target = f then ruCompletionTake s d tk else tk) = k → ends k := by
    intro k hk
    rw [hk] at ht
    refine ⟨?_, fun g hg => ?_, ?_, ?_, ?_, ?_⟩
    · rw [ht, State.route_setRoute_self]
    · rw [ht, State.route_setRoute_of_ne _ _ hg]
    · rw [ht]; rfl
    · rw [ht]; rfl
    · rw [ht]; rfl
    · rw [ht]; rfl
  have hfar : ∀ p, tk.target = f → slotDistance s tk.target p = modSub n x.lastSlot p := fun p htarget => by
    rw [slotDistance, htarget, lastSlot_of_feedRec hx]
  refine ⟨fun h => hends _ ?_, fun htarget => ⟨fun hstate => ⟨fun q hq => hends _ ?_, fun hq hslot hrough => hends _ ?_⟩,
    fun p hp => ⟨fun hstate hrough => ⟨fun hnear => hends _ ?_, fun hfp hq => hends _ ?_, fun q hfp hq => hends _ ?_⟩,
      fun hstate hrough => ⟨fun q hq => hends _ ?_, fun hq => ⟨fun hfp => hends _ ?_, fun hnear => hends _ ?_⟩⟩,
      fun hstate => ⟨fun q hq => hends _ ?_, fun hq hnear => hends _ ?_, fun hq hfp => hends _ ?_⟩⟩⟩⟩
  · obtain h | h := h
    · exact if_neg h
    · split
      · unfold ruCompletionTake
        rw [h]
      · rfl
  all_goals rw [if_pos htarget]
  · have harm : ruCompletionTake s d tk = ruArm s d tk := by
      unfold ruCompletionTake
      rw [hstate]
    rw [harm]
    exact ruArm_of_found (htarget.symm ▸ hq)
  · have harm : ruCompletionTake s d tk = ruArm s d tk := by
      unfold ruCompletionTake
      rw [hstate]
    rw [harm, ruArm_of_not_found (htarget.symm ▸ hq)]
    exact Take.with_state hstate hslot hrough
  · rw [ruCompletionTake_of_ready_exact hstate hp hrough, hfar p htarget]
    exact if_neg hnear
  · rw [ruCompletionTake_of_ready_exact hstate hp hrough, hfar p htarget]
    exact (if_pos hfp).trans (ruArm_of_not_found (tk := { tk with timer := 0 }) (htarget.symm ▸ hq))
  · rw [ruCompletionTake_of_ready_exact hstate hp hrough, hfar p htarget]
    refine (if_pos hfp).trans ((ruArm_of_found (tk := { tk with timer := 0 }) (htarget.symm ▸ hq)).trans ?_)
    rw [← hrough]
  · exact (ruCompletionTake_of_ready_rough hstate hp hrough).1 q (htarget.symm ▸ hq)
  · rw [(ruCompletionTake_of_ready_rough hstate hp hrough).2 (htarget.symm ▸ hq), hfar p htarget]
    exact if_pos hfp
  · rw [(ruCompletionTake_of_ready_rough hstate hp hrough).2 (htarget.symm ▸ hq), hfar p htarget]
    exact if_neg hnear
  · exact (ruCompletionTake_of_cued hstate hp).1 q (htarget.symm ▸ hq)
  · rw [(ruCompletionTake_of_cued hstate hp).2 (htarget.symm ▸ hq), hfar p htarget]
    exact if_neg hnear
  · rw [(ruCompletionTake_of_cued hstate hp).2 (htarget.symm ▸ hq), hfar p htarget, htarget, ruRoughSlot_of_feedRec hx]
    exact if_pos hfp

end

/-! ### Where the reports come from -/

/-- A treatment of `n` objects that acts on one alone. -/
theorem forAll_of_single {g : Nat → State → State} {P : State → Prop} {n d : Nat} (hd : d < n)
    (hother : ∀ i s, i < n → i ≠ d → P s → g i s = s) (hself : ∀ s, P s → P (g d s)) {s : State} (hs : P s) :
    forAll n g s = g d s ∧ P (g d s) := by
  have hbefore : ∀ k, k ≤ d → k ≤ n → forAll k g s = s := by
    intro k
    induction k with
    | zero => exact fun _ _ => rfl
    | succ k ih =>
      intro hk hn
      rw [forAll_succ, ih (by omega) (by omega), hother k s (by omega) (by omega) hs]
  have hafter : ∀ k, d < k → k ≤ n → forAll k g s = g d s := by
    intro k
    induction k with
    | zero => exact fun hk => absurd hk (Nat.not_lt_zero d)
    | succ k ih =>
      intro hk hn
      rw [forAll_succ]
      obtain rfl | hlt := Nat.eq_or_lt_of_le (Nat.le_of_lt_succ hk)
      · rw [hbefore d le_rfl (by omega)]
      · rw [ih hlt (by omega), hother k _ (by omega) (by omega) (hself s hs)]
  exact ⟨hafter n hd le_rfl, hself s hs⟩

/-- The acts of destination `d` leave every other route. -/
theorem otherRoutes_reading (d : Nat) (s : State) :
    Reading (fun i => i = d) (fun _ => True) (fun t => ∀ g, g ≠ d → t.route g = s.route g) where
  raise h g hg := (raise_route ..).trans (h g hg)
  route hi h g hg := by
    subst hi
    exact (State.route_setRoute_of_ne _ _ hg).trans (h g hg)
  delivery _ h := h
  feed _ h := h
  counts _ h := h
  latch _ h := h
  forward h g hg := by
    rw [State.route, lpuForward_ru]
    exact h g hg
  hold _ _ _ h := h
  join _ h := h
  free _ h := h

theorem ruHealthReport_of_no_route {d : Nat} {s : State} (h : s.route d = none) (f : Nat) (was is : Bool) :
    ruHealthReport f was is d s = s := by
  rw [ruHealthReport, h]
  rfl

theorem ruSlotCompletion_of_no_route {d : Nat} {s : State} (h : s.route d = none) (hhold : s.hold d = none) (f : Nat) :
    ruSlotCompletion f d s = s := by
  rw [ruSlotCompletion, ruCompletion, modRoute_of_no_route h, lpuHoldCompletion_of_no_hold hhold]

section
variable {s : State} {d f : Nat} {x : FeedRecord}

/-- R83, R86: a scored error that fails a DEGRADED feed. -/
theorem fmScored_of_failing (hx : s.feedRec f = some x) (hh : x.health = .degraded) {k : Nat}
    (hfail : (s.feedParams f).failThreshold ≤ min 1023 (x.score + k)) :
    let failed : FeedRecord := { x with
      score := min 1023 (x.score + k), health := .failed, attempts := min 15 (x.attempts + 1), stateTimer := 0 }
    fmScored f k s = healthReport f .degraded .failed
      (raise .feed 1 f [4, 5, failed.score, failed.attempts] (s.setFeedRec f (some failed))) := by
  intro failed
  let y : FeedRecord := { x with score := min 1023 (x.score + k) }
  have hy : (s.setFeedRec f (some y)).feedRec f = some y := State.feedRec_setFeedRec_self ..
  have hthresholds : fmThresholds f (s.setFeedRec f (some y)) =
      (raise .feed 1 f [4, 5, failed.score, failed.attempts] (s.setFeedRec f (some failed)), [(.degraded, .failed)]) := by
    have hyh : y.health = .degraded := hh
    have hfail' : ((s.setFeedRec f (some y)).feedParams f).failThreshold ≤ y.score := hfail
    unfold fmThresholds
    rw [hy]
    dsimp only
    rw [hyh]
    dsimp only
    rw [if_pos hfail', fmEnter, hy]
    dsimp only
    rw [State.setFeedRec_setFeedRec, hyh]
    rfl
  rw [fmScored_of_not_qualifying hx (by simp [hh])]
  dsimp only
  rw [hthresholds, fmReport, List.foldl_cons, List.foldl_nil]

/-- R86: a health report reaches the one destination that has a route record. -/
theorem healthReport_of_single (hd : d < 48) (hroutes : ∀ g < 48, g ≠ d → s.route g = none) (f : Nat) (old new : Health) :
    healthReport f old new s = dmReclassFeed f (ruHealthReport f old.usable new.usable d s) := by
  have hself : ∀ t : State, (∀ g < 48, g ≠ d → t.route g = none) →
      ∀ g < 48, g ≠ d → (ruHealthReport f old.usable new.usable d t).route g = none := by
    intro t ht g hg hne
    have hkept := (otherRoutes_reading d t).ruHealthReport rfl (fun _ _ => rfl) f old.usable new.usable
    exact (hkept g hne).trans (ht g hg hne)
  rw [healthReport, (forAll_of_single (P := fun t => ∀ g < 48, g ≠ d → t.route g = none) hd
    (fun i t hi hne ht => ruHealthReport_of_no_route (ht i hi hne) ..) hself hroutes).1]

/-- R69: the clean completion of a HEALTHY feed whose score stays below the degrade threshold. -/
theorem fmUnitCompletion_of_clean (hh : x.health = .healthy) {w : Nat} {head : UnitHead} (hresult : head.result = .inOrder)
    (htest : head.testSignal = x.testSignal) (hscore : x.score - 1 < (s.feedParams f).degradeThreshold) :
    fmUnitCompletion f w head x s = forAll 48 (ruSlotCompletion f)
      (s.setFeedRec f (some (({ x with silence := 0 } : FeedRecord).completed s.ringDepth w head))) := by
  obtain ⟨listed, hlisted⟩ : ∃ l, l = (({ x with silence := 0 } : FeedRecord).completeSlot s.ringDepth w).listPictureStart
      s.ringDepth (head.pictureStart && (head.result == .inOrder || head.result == .gap)) := ⟨_, rfl⟩
  have hlistedTest : listed.testSignal = head.testSignal := by
    rw [hlisted, htest]
    rfl
  have hcompleted : ({ x with silence := 0 } : FeedRecord).completed s.ringDepth w head = listed.countClean true := by
    unfold FeedRecord.completed
    dsimp only
    rw [← hlisted, FeedRecord.with_testSignal hlistedTest, hresult]
    rfl
  obtain ⟨z, hz⟩ : ∃ z, z = listed.countClean true := ⟨_, rfl⟩
  have hzhealth : z.health = .healthy := by
    rw [hz, hlisted]
    exact hh
  have hzscore : z.score = x.score - 1 := by
    rw [hz, hlisted]
    rfl
  have htested : fmTestSignal f head.testSignal (s.setFeedRec f (some listed)) = s.setFeedRec f (some listed) := by
    unfold fmTestSignal
    rw [State.feedRec_setFeedRec_self]
    exact if_pos hlistedTest
  have hevaluated : fmEvaluate f true (s.setFeedRec f (some z)) = (s.setFeedRec f (some z), []) := by
    have hrecord : (s.setFeedRec f (some z)).feedRec f = some z := State.feedRec_setFeedRec_self ..
    have hlow : ¬((s.setFeedRec f (some z)).feedParams f).degradeThreshold ≤ z.score := by
      rw [hzscore]
      exact Nat.not_le.2 hscore
    rw [fmEvaluate_of_not_qualifying hrecord (by simp [hzhealth]), fmThresholds, hrecord]
    dsimp only
    rw [hzhealth]
    exact if_neg hlow
  have hawake : (x.health == .absent || x.health == .lost) = false := by simp [hh]
  unfold fmUnitCompletion
  dsimp only
  rw [hawake, if_neg Bool.false_ne_true, if_neg Bool.false_ne_true, List.nil_append, modFeed_setFeedRec, ← hlisted, htested,
    modFeed_setFeedRec, hresult]
  change forAll 48 (ruSlotCompletion f) (fmReport f (fmEvaluate f true (s.setFeedRec f (some (listed.countClean true)))).2
    (fmEvaluate f true (s.setFeedRec f (some (listed.countClean true)))).1) = _
  rw [← hz, hevaluated, hcompleted, ← hz, fmReport, List.foldl_nil]

end

/-- R69: a completion in the ring of `f` that closes the headed unit open there. -/
theorem WriterAt.exec_completion {s : State} {f w o : Nat} {r : Request} {x : FeedRecord} {head : UnitHead}
    (h : WriterAt s f w o r) (ho : o ≠ 0) (hlen : o + r.len = 2048) (hx : s.feedRec f = some x)
    (hopen : x.openUnit = some ⟨w, some head⟩) :
    exec (.ringWrite r) s = .next (fmUnitCompletion f w head x (s.passed r)) := by
  have hx' : (s.passed r).feedRec f = some x := hx
  rw [exec_ringWrite, h.lpuReceive_eq, if_neg ho, if_pos hlen, fmCompletion, hx']
  dsimp only
  rw [hopen]
  exact congrArg _ (if_pos rfl)

theorem State.hold_of_holds_nil {s : State} (h : s.lpu.holds = []) (d : Nat) : s.hold d = none := by
  rw [State.hold, h]
  rfl

/-- A slot completion report without a hold is the RU's. -/
theorem ruSlotCompletion_of_holds_nil {s : State} (h : s.lpu.holds = []) (f d : Nat) :
    ruSlotCompletion f d s = ruCompletion d f s := by
  have hlpu : (ruCompletion d f s).lpu = s.lpu := modRoute_lpu ..
  rw [ruSlotCompletion, lpuHoldCompletion_of_no_hold (State.hold_of_holds_nil (by rw [hlpu, h]) d)]

/-- A slot completion report reaches the one destination that has a route record. -/
theorem completion_of_single {s : State} {d f : Nat} (hd : d < 48) (hroutes : ∀ g < 48, g ≠ d → s.route g = none)
    (hholds : s.lpu.holds = []) : forAll 48 (ruSlotCompletion f) s = ruSlotCompletion f d s := by
  have hself : ∀ t : State, (∀ g < 48, g ≠ d → t.route g = none) ∧ t.lpu.holds = [] →
      (∀ g < 48, g ≠ d → (ruSlotCompletion f d t).route g = none) ∧ (ruSlotCompletion f d t).lpu.holds = [] := by
    intro t ht
    have hlpu : (ruCompletion d f t).lpu = t.lpu := modRoute_lpu ..
    have hkept : ∀ g, g ≠ d → (ruCompletion d f t).route g = t.route g :=
      (otherRoutes_reading d t).ruCompletion rfl (fun _ _ => rfl) f
    rw [ruSlotCompletion_of_holds_nil ht.2, hlpu]
    exact ⟨fun g hg hne => (hkept g hne).trans (ht.1 g hg hne), ht.2⟩
  exact (forAll_of_single (P := fun t => (∀ g < 48, g ≠ d → t.route g = none) ∧ t.lpu.holds = []) hd
    (fun i t hi hne ht => ruSlotCompletion_of_no_route (ht.1 i hi hne) (State.hold_of_holds_nil ht.2 i) f)
    hself ⟨hroutes, hholds⟩).1

/-- The third part of O58. -/
theorem reportsOfTheMonitor (s : State) (d f : Nat) (x : FeedRecord) (hd : d < 48)
    (hroutes : ∀ g < 48, g ≠ d → s.route g = none) (hx : s.feedRec f = some x) :
    (∀ k, x.health = .degraded → (s.feedParams f).failThreshold ≤ min 1023 (x.score + k) →
      let failed : FeedRecord := { x with
        score := min 1023 (x.score + k), health := .failed, attempts := min 15 (x.attempts + 1), stateTimer := 0 }
      ∃ u, Raised .feed 1 f [4, 5, failed.score, failed.attempts] (s.setFeedRec f (some failed)) u ∧
        fmScored f k s = dmReclassFeed f (ruHealthReport f true false d u)) ∧
    (∀ (w o : Nat) (r : Request) (head : UnitHead), WriterAt s f w o r → o ≠ 0 → o + r.len = 2048 →
      x.openUnit = some ⟨w, some head⟩ → head.result = .inOrder → head.testSignal = x.testSignal →
      x.health = .healthy → x.score - 1 < (s.feedParams f).degradeThreshold → s.lpu.holds = [] →
      ∃ y, exec (.ringWrite r) s = .next (ruSlotCompletion f d ((s.passed r).setFeedRec f (some y)))) := by
  refine ⟨fun k hh hfail => ?_, fun w o r head h ho hlen hopen hresult htest hh hscore hholds => ?_⟩
  · intro failed
    obtain ⟨u, hu⟩ : ∃ u, u = raise .feed 1 f [4, 5, failed.score, failed.attempts] (s.setFeedRec f (some failed)) :=
      ⟨_, rfl⟩
    have hraised : Raised .feed 1 f [4, 5, failed.score, failed.attempts] (s.setFeedRec f (some failed)) u :=
      hu ▸ raise_raised ..
    have hclear : ∀ g < 48, g ≠ d → u.route g = none := fun g hg hne => by
      rw [hu, raise_route]
      exact hroutes g hg hne
    have hreport : healthReport f .degraded .failed u = dmReclassFeed f (ruHealthReport f true false d u) :=
      healthReport_of_single hd hclear f .degraded .failed
    refine ⟨u, hraised, ?_⟩
    rw [fmScored_of_failing hx hh hfail, ← hreport, hu]
  · obtain ⟨y, hy⟩ : ∃ y, fmUnitCompletion f w head x (s.passed r) =
        forAll 48 (ruSlotCompletion f) ((s.passed r).setFeedRec f (some y)) :=
      ⟨_, fmUnitCompletion_of_clean (s := s.passed r) hh hresult htest hscore⟩
    refine ⟨y, ?_⟩
    have hstart : ((s.passed r).setFeedRec f (some y)).lpu.holds = [] := hholds
    have hclear : ∀ g < 48, g ≠ d → ((s.passed r).setFeedRec f (some y)).route g = none := hroutes
    rw [h.exec_completion ho hlen hx hopen, hy, completion_of_single hd hclear hstart]

end Sys2Proof.Machine
end

section
/-! SUPPORT. What the RU does with a health report (O58, first part). -/

namespace Sys2Proof.Machine

section
variable {s u : State} {d e f g p kept : Nat} {was is : Bool} {rt r : Route} {tk : Take}

/-! ### The stages of a report -/

/-- R133: the pending take `t` of `d` after a health report of `f`. -/
def State.reportedTake (s : State) (d f : Nat) (was is : Bool) (t : Take) : Take :=
  if t.target != f then t
  else if was && !is then
    match t.state with
    | .waitSource => t
    | .arming => { t with state := .waitSource, slot := none, rough := false }
    | _ => t.toWait
  else if !was && is && t.state == .waitSource then ruArm s d t
  else t

/-- The route `r` of `d` after the first step of R149. -/
def State.reportedRoute (s : State) (d f : Nat) (was is : Bool) (r : Route) : Route :=
  { r with take := r.take.map (s.reportedTake d f was is) }

theorem ruHealthTake_of_route (hrt : s.route d = some rt) (f : Nat) (was is : Bool) :
    ruHealthTake d f was is s = s.setRoute d (some (s.reportedRoute d f was is rt)) :=
  modRoute_of_route hrt _

/-- R149: the steps of a report to a destination without a held read. -/
theorem ruHealthReport_of_route (hrt : s.route d = some rt) (hhold : s.hold d = none) :
    ruHealthReport f was is d s = ruRevertCheck d (ruHealthTests d f was is (rt.source == .feed f)
      (if rt.source == .feed f then
        ruHealthCurrent d f was is (s.setRoute d (some (s.reportedRoute d f was is rt)))
      else s.setRoute d (some (s.reportedRoute d f was is rt)))) := by
  obtain ⟨v, hv⟩ : ∃ v, v = s.setRoute d (some (s.reportedRoute d f was is rt)) := ⟨_, rfl⟩
  have hroute : v.route d = some (s.reportedRoute d f was is rt) := hv ▸ State.route_setRoute_self ..
  have hfreeze : lpuHoldFreeze d f v = v := by
    have hnone : v.hold d = none := hv ▸ hhold
    rw [lpuHoldFreeze, hnone]
  have hcurrent : (v.route d).any (fun x => x.source == .feed f) = (rt.source == .feed f) := by
    rw [hroute]
    rfl
  rw [ruHealthReport, hrt, ruHealthTake_of_route hrt, ← hv]
  dsimp only
  rw [hfreeze, ite_self, hcurrent]
  rfl

theorem reportedTake_of_other (h : tk.target ≠ f) : s.reportedTake d f was is tk = tk :=
  if_pos (by simp [h])

theorem reportedTake_of_same (h : was = is) : s.reportedTake d f was is tk = tk := by
  unfold State.reportedTake
  subst h
  cases was
  · exact ite_self _
  · exact ite_self _

/-- A report that touches no take leaves the route at the first step. -/
theorem reportedRoute_of_kept (h : ∀ t, rt.take = some t → s.reportedTake d f was is t = t) :
    s.reportedRoute d f was is rt = rt := by
  have htake : rt.take.map (s.reportedTake d f was is) = rt.take := by
    cases hk : rt.take with
    | none => rfl
    | some t => exact congrArg some (h t hk)
  rw [State.reportedRoute, htake]

/-- `u` is a state on the way of a report to `d`, with the route `r` there. -/
structure RouteStage (d : Nat) (s u : State) (r : Route) : Prop where
  env : SameEnv d s u
  seen : SeenSame s u
  route : u.route d = some r

theorem RouteStage.of_setRoute (d : Nat) (s : State) (r : Route) : RouteStage d s (s.setRoute d (some r)) r :=
  ⟨⟨rfl, rfl, rfl, rfl, rfl⟩, .of_bt rfl, State.route_setRoute_self ..⟩

theorem RouteStage.raise (h : RouteStage d s u r) (cls : EventClass) (kind subject : Nat) (words : List Nat) :
    RouteStage d s (raise cls kind subject words u) r :=
  ⟨(sameEnv_routing d s).raise h.env, h.seen.trans (.of_bt (raise_bt ..)), (raise_route ..).trans h.route⟩

theorem RouteStage.holder (h : RouteStage d s u r) (hh : s.holder d = some e) : u.holder d = some e :=
  h.env.holder.trans hh

/-- R148: the last step of a report. -/
theorem RouteStage.revertCheck (h : RouteStage d s u r) (hkept : kept = if ruRevertHolds s d rt then rt.revert else 0)
    (hholds : ruRevertHolds s d r = ruRevertHolds s d rt) (hrevert : r.revert = rt.revert) :
    ruRevertCheck d u = u.setRoute d (some { r with revert := kept }) := by
  have hhere : ruRevertHolds u d r = ruRevertHolds s d rt := (h.env.ruRevertHolds h.seen rfl rfl).trans hholds
  rw [ruRevertCheck, modRoute_of_route h.route, hhere, hkept, ← hrevert]
  split <;> rfl

/-- The conditions of R148, and the count that a report leaves. -/
theorem kept_eq (hpos : (∃ e, s.holder d = some e ∧ (s.entry e).desc.autoRevert = true ∧ rt.failoverSince = true ∧
      rt.source = .feed (s.entry e).desc.backup ∧ (s.entry e).desc.backup ≠ (s.entry e).selected ∧
      (s.feedRec (s.entry e).selected).map FeedRecord.health = some .healthy) → kept = rt.revert)
    (hneg : (¬∃ e, s.holder d = some e ∧ (s.entry e).desc.autoRevert = true ∧ rt.failoverSince = true ∧
      rt.source = .feed (s.entry e).desc.backup ∧ (s.entry e).desc.backup ≠ (s.entry e).selected ∧
      (s.feedRec (s.entry e).selected).map FeedRecord.health = some .healthy) → kept = 0) :
    kept = if ruRevertHolds s d rt then rt.revert else 0 := by
  have hiff : ruRevertHolds s d rt = true → ∃ e, s.holder d = some e ∧ (s.entry e).desc.autoRevert = true ∧
      rt.failoverSince = true ∧ rt.source = .feed (s.entry e).desc.backup ∧
      (s.entry e).desc.backup ≠ (s.entry e).selected ∧
      (s.feedRec (s.entry e).selected).map FeedRecord.health = some .healthy := by
    intro h
    cases hh : s.holder d with
    | none =>
      rw [ruRevertHolds, holderEntry_of_no_holder hh] at h
      cases h
    | some e =>
      rw [ruRevertHolds, holderEntry_of_holder hh] at h
      dsimp only at h
      simp only [Bool.and_eq_true, beq_iff_eq, bne_iff_ne, Option.any_eq_true] at h
      obtain ⟨⟨⟨⟨hauto, hsince⟩, hsource⟩, hne⟩, x, hx, hhealthy⟩ := h
      exact ⟨e, rfl, hauto, hsince, hsource, hne, by rw [hx]; exact congrArg some hhealthy⟩
  by_cases h : ruRevertHolds s d rt = true
  · rw [if_pos h]
    exact hpos (hiff h)
  · rw [if_neg h]
    refine hneg ?_
    rintro ⟨e, hh, hauto, hsince, hsource, hne, hhealth⟩
    exact h (ruRevertHolds_of hh hhealth hauto hsince hsource hne)

/-! ### Reports that make no test -/

/-- A report of a feed that is not the current, the wanted or the selected one acts on the take alone. -/
theorem ruHealthReport_of_away (hrt : s.route d = some rt) (hhold : s.hold d = none)
    (hkept : kept = if ruRevertHolds s d rt then rt.revert else 0) (hsource : rt.source ≠ .feed f)
    (hwanted : rt.wanted ≠ some f) (hselected : ∀ e, s.holder d = some e → (s.entry e).selected ≠ f) :
    ruHealthReport f was is d s =
      s.setRoute d (some { s.reportedRoute d f was is rt with revert := kept }) := by
  obtain ⟨v, hv⟩ : ∃ v, v = s.setRoute d (some (s.reportedRoute d f was is rt)) := ⟨_, rfl⟩
  have hstage : RouteStage d s v (s.reportedRoute d f was is rt) := hv ▸ .of_setRoute ..
  have hsel : (v.selectedFeed d == some f) = false := by
    rw [State.selectedFeed, State.holderEntry, hstage.env.holder]
    cases hh : s.holder d with
    | none => rfl
    | some e => simpa [(hstage.seen e).2] using hselected e hh
  have htests : ruHealthTests d f was is false v = v := by
    unfold ruHealthTests
    rw [hstage.route]
    have hnone : (some (s.reportedRoute d f was is rt)).any (fun r => r.wanted == some f) = false := by
      simpa [State.reportedRoute] using hwanted
    dsimp only
    rw [hnone, hsel]
    simp
  rw [ruHealthReport_of_route hrt hhold, (beq_eq_false_iff_ne.2 hsource), if_neg Bool.false_ne_true, ← hv, htests,
    hstage.revertCheck hkept rfl rfl, hv, setRoute_setRoute]

/-- A report that says nothing new. -/
theorem ruHealthReport_of_same (hrt : s.route d = some rt) (hhold : s.hold d = none)
    (hkept : kept = if ruRevertHolds s d rt then rt.revert else 0) (h : was = is) :
    ruHealthReport f was is d s = s.setRoute d (some { rt with revert := kept }) := by
  have hreported : s.reportedRoute d f was is rt = rt := reportedRoute_of_kept fun _ _ => reportedTake_of_same h
  obtain ⟨v, hv⟩ : ∃ v, v = s.setRoute d (some rt) := ⟨_, rfl⟩
  have hstage : RouteStage d s v rt := hv ▸ .of_setRoute ..
  have hcurrent : ruHealthCurrent d f was is v = v := by
    subst h
    cases was <;> rfl
  have htests : ∀ c, ruHealthTests d f was is c v = v := by
    intro c
    subst h
    cases was <;> rfl
  rw [ruHealthReport_of_route hrt hhold, hreported, ← hv, hcurrent, ite_self, htests, hstage.revertCheck hkept rfl rfl, hv,
    setRoute_setRoute]

/-- R144: the current feed becomes usable, with no take to it. -/
theorem ruHealthReport_of_current_usable (hrt : s.route d = some rt) (hhold : s.hold d = none)
    (hkept : kept = if ruRevertHolds s d rt then rt.revert else 0) (hsource : rt.source = .feed f)
    (husable : s.usable f = true) (htake : ∀ t, rt.take = some t → t.target ≠ f) :
    ruHealthReport f false true d s = s.setRoute d (some { rt with freeze := none, revert := kept }) := by
  have hreported : s.reportedRoute d f false true rt = rt :=
    reportedRoute_of_kept fun t ht => reportedTake_of_other (htake t ht)
  obtain ⟨v, hv⟩ : ∃ v, v = s.setRoute d (some { rt with freeze := none }) := ⟨_, rfl⟩
  have hstage : RouteStage d s v { rt with freeze := none } := hv ▸ .of_setRoute ..
  have hstop : ruHealthCurrent d f false true (s.setRoute d (some rt)) = v := by
    change ruFreezeStop d (s.setRoute d (some rt)) = v
    rw [ruFreezeStop, modRoute_of_route (State.route_setRoute_self ..), setRoute_setRoute, hv]
  have hdeferred : ruDeferredFailover d v = v := by
    refine ruDeferredFailover_of_source_up fun x c hx hc => ?_
    obtain rfl := Option.some.inj (hstage.route.symm.trans hx)
    obtain rfl := Source.feed.inj (hsource.symm.trans hc)
    rw [hstage.env.usable, husable]
  have hrestore : ruRestore d v = v := by
    refine ruRestore_of_source_up fun x hx => ?_
    obtain rfl := Option.some.inj (hstage.route.symm.trans hx)
    simp [ruSourceDown, hsource, hstage.env.usable, husable]
  have htests : ruHealthTests d f false true true v = v := by
    unfold ruHealthTests
    dsimp only
    rw [hdeferred, ite_self, hrestore, ite_self]
  rw [ruHealthReport_of_route hrt hhold, hreported, beq_iff_eq.2 hsource, if_pos rfl, hstop, htests,
    hstage.revertCheck hkept rfl rfl, hv, setRoute_setRoute]

/-! ### Failover and restore -/

/-- R145: the failover take to a usable feed that the search finds. -/
theorem ruFailoverTake_of_found (hmode : s.lpu.mode = .run) (hrt : s.route d = some rt) (husable : s.usable g = true)
    (hsearch : ruSearch s d g = some p) (e : Nat) :
    ruFailoverTake d e g s = modEntry e (fun x => { x with armsLeft := x.armsLeft - 1 })
      (raise .take 1 d [g, 5, 4, (rt.take.map Take.target).getD 255]
        (s.setRoute d (some { rt with take := some ⟨g, .failover, .ready, some p, false, 0⟩ }))) := by
  rw [ruFailoverTake, ruRequestTake_of_found hmode hrt husable hsearch]
  rfl

/-- R145: no failover is triggered. -/
theorem ruFailover_of_idle (hrt : s.route d = some rt) (hh : s.holder d = some e) (h : rt.change = some .toSlate ∨
      (∃ t, rt.take = some t ∧ t.state ≠ .cued ∧ s.usable t.target = true) ∨ failoverTarget (s.entry e) = none ∨
      failoverTarget (s.entry e) = some f ∨ (s.entry e).desc.autoFailover = false ∨ (s.entry e).armsLeft = 0) :
    ruFailover d f s = s := by
  rw [ruFailover, holderEntry_of_holder hh, hrt]
  dsimp only
  split
  next hfree =>
    simp only [Bool.and_eq_true, bne_iff_ne, Bool.not_eq_true', Option.any_eq_false] at hfree
    obtain ⟨⟨-, hchange⟩, hbusy⟩ := hfree
    obtain h | ⟨t, ht, hstate, husable⟩ | h | h | h | h := h
    · exact absurd h hchange
    · exact absurd (hbusy t ht) (by simp [hstate, husable])
    · rw [h]
    · rw [h]
      simp
    all_goals
      split
      · rfl
      · simp [h]
  · rfl

theorem not_any_of_free (h : ¬∃ t, rt.take = some t ∧ t.state ≠ .cued ∧ s.usable t.target = true) :
    rt.take.any (fun t => t.state != .cued && s.usable t.target) = false := by
  rw [Option.any_eq_false]
  intro t ht
  by_contra hbusy
  simp only [Bool.not_eq_false, Bool.and_eq_true, bne_iff_ne] at hbusy
  exact h ⟨t, ht, hbusy.1, hbusy.2⟩

/-- R145: a failover is triggered, to the feed `g`. -/
theorem ruFailover_of_target (hmode : s.lpu.mode = .run) (hrt : s.route d = some rt) (hh : s.holder d = some e)
    (hchange : rt.change ≠ some .toSlate)
    (hfree : ¬∃ t, rt.take = some t ∧ t.state ≠ .cued ∧ s.usable t.target = true)
    (htarget : failoverTarget (s.entry e) = some g) (hne : g ≠ f) (hauto : (s.entry e).desc.autoFailover = true)
    (harms : 0 < (s.entry e).armsLeft) :
    ruFailover d f s = if s.usable g then
        ruFailoverTake d e g (s.setRoute d (some { rt with failoverSince := true }))
      else raise .take 6 d [g, f, (s.entry e).armsLeft]
        (s.setRoute d (some { rt with failoverSince := true, wanted := some g })) := by
  rw [ruFailover, holderEntry_of_holder hh, hrt]
  dsimp only
  rw [not_any_of_free hfree, if_pos (by simp [hmode, hchange]), htarget]
  dsimp only
  rw [if_neg (by simp [hne, hauto, Nat.ne_of_gt harms])]

/-- R146: a deferred failover is taken up. -/
theorem ruDeferredFailover_of_taken {c : Nat} (hmode : s.lpu.mode = .run) (hrt : s.route d = some rt)
    (hh : s.holder d = some e) (hsource : rt.source = .feed c) (hdown : s.usable c = false) (hwanted : rt.wanted = some g)
    (husable : s.usable g = true) (hchange : rt.change ≠ some .toSlate)
    (htakes : ∀ t, rt.take = some t → s.usable t.target = false) (hauto : (s.entry e).desc.autoFailover = true)
    (harms : 0 < (s.entry e).armsLeft) (htarget : failoverTarget (s.entry e) = some g) :
    ruDeferredFailover d s = ruFailoverTake d e g s := by
  have hne : g ≠ c := fun heq => by
    rw [heq, hdown] at husable
    cases husable
  have hnone : rt.take.any (fun t => s.usable t.target) = false := by
    rw [Option.any_eq_false]
    intro t ht
    simp [htakes t ht]
  rw [ruDeferredFailover, holderEntry_of_holder hh, hrt]
  dsimp only
  rw [hsource, hwanted]
  dsimp only
  rw [hnone, if_pos (by simp [hmode, husable, hdown, hchange, hauto, harms, htarget, hne])]

/-- R146: no deferred failover is taken up. -/
theorem ruDeferredFailover_of_not_deferred (hrt : s.route d = some rt) (hh : s.holder d = some e)
    (h : ¬(rt.wanted = some f ∧ (∃ c, rt.source = .feed c ∧ s.usable c = false) ∧ rt.change ≠ some .toSlate ∧
      (s.entry e).desc.autoFailover = true ∧ 0 < (s.entry e).armsLeft ∧ failoverTarget (s.entry e) = some f))
    (hwanted : rt.wanted = some f) : ruDeferredFailover d s = s := by
  rw [ruDeferredFailover, holderEntry_of_holder hh, hrt]
  dsimp only
  rw [hwanted]
  split
  next c w hc hw =>
    obtain rfl := Option.some.inj hw
    refine if_neg fun hall => h ?_
    simp only [Bool.and_eq_true, Bool.not_eq_true', bne_iff_ne, beq_iff_eq, decide_eq_true_eq] at hall
    obtain ⟨⟨⟨⟨⟨⟨⟨⟨-, -⟩, hdown⟩, hchange⟩, -⟩, hauto⟩, harms⟩, htarget⟩, -⟩ := hall
    exact ⟨hwanted, ⟨c, hc, hdown⟩, hchange, hauto, harms, htarget⟩
  · rfl

/-! ### The current feed becomes unusable -/

/-- R133: a take to `f`, which has become unusable. -/
def Take.waits (f : Nat) (tk : Take) : Take :=
  if tk.target = f ∧ tk.state ≠ .waitSource then
    { tk with state := .waitSource, slot := none, rough := false, timer := if tk.state = .arming then tk.timer else 0 }
  else tk

theorem reportedTake_of_down (s : State) (d f : Nat) (tk : Take) : s.reportedTake d f true false tk = tk.waits f := by
  unfold State.reportedTake Take.waits
  by_cases hf : tk.target = f
  · rw [if_neg (by simp [hf]), if_pos (c := (true && !false) = true) rfl]
    cases hst : tk.state with
    | waitSource => exact (if_neg (by simp)).symm
    | arming => exact (if_pos ⟨hf, nofun⟩).symm
    | ready => exact (if_pos ⟨hf, nofun⟩).symm
    | cued => exact (if_pos ⟨hf, nofun⟩).symm
  · rw [if_pos (by simp [hf]), if_neg (by simp [hf])]

theorem Take.waits_target (f : Nat) (tk : Take) : (tk.waits f).target = tk.target := by
  unfold Take.waits
  split <;> rfl

/-- The route of which the current feed `f` has become unusable, with the freeze timer started. -/
def Route.freezing (f : Nat) (r : Route) : Route := { r with freeze := some 0, take := r.take.map (Take.waits f) }

theorem Route.freezing_take_target (f : Nat) (r : Route) :
    (r.freezing f).take.map Take.target = r.take.map Take.target := by
  unfold Route.freezing
  cases r.take with
  | none => rfl
  | some t => exact congrArg some (t.waits_target f)

/-- A take to an unusable feed is in nobody's way, waiting or not. -/
theorem Route.freezing_busy_iff (hdown : s.usable f = false) :
    (∃ t, (rt.freezing f).take = some t ∧ t.state ≠ .cued ∧ s.usable t.target = true) ↔
      ∃ t, rt.take = some t ∧ t.state ≠ .cued ∧ s.usable t.target = true := by
  have hsame : ∀ t : Take, s.usable t.target = true → t.waits f = t := fun t ht => if_neg fun hf => by
    rw [hf.1, hdown] at ht
    cases ht
  unfold Route.freezing
  constructor
  · rintro ⟨t, ht, hstate, husable⟩
    obtain ⟨tk, htk, rfl⟩ := Option.map_eq_some_iff.1 ht
    have hself : tk.waits f = tk := hsame tk (Take.waits_target f tk ▸ husable)
    rw [hself] at hstate husable
    exact ⟨tk, htk, hstate, husable⟩
  · rintro ⟨t, ht, hstate, husable⟩
    refine ⟨t, ?_, hstate, husable⟩
    rw [ht]
    exact congrArg some (hsame t husable)

/-- R149, R144: the report that the current feed has become unusable. -/
theorem ruHealthReport_of_current_down (hrt : s.route d = some rt) (hhold : s.hold d = none)
    (hmode : s.lpu.mode = .run) (hh : s.holder d = some e) (hsource : rt.source = .feed f)
    (hchange : rt.change ≠ some .toSlate) :
    ruHealthReport f true false d s = ruRevertCheck d (ruRestore d (ruFailover d f
      (ruFreezeTest d (s.setRoute d (some (rt.freezing f)))))) := by
  have hreported : s.reportedRoute d f true false rt = { rt with take := rt.take.map (Take.waits f) } := by
    rw [State.reportedRoute, funext (reportedTake_of_down s d f)]
  obtain ⟨v, hv⟩ : ∃ v, v = s.setRoute d (some { rt with take := rt.take.map (Take.waits f) }) := ⟨_, rfl⟩
  have hstage : RouteStage d s v { rt with take := rt.take.map (Take.waits f) } := hv ▸ .of_setRoute ..
  have hstart : ruFreezeStart d v = ruFreezeTest d (s.setRoute d (some (rt.freezing f))) := by
    rw [ruFreezeStart, hstage.route]
    dsimp only
    rw [if_pos (by simp [hstage.env.mode, hmode, hstage.holder hh, hchange]), hv, setRoute_setRoute]
    rfl
  have hcurrent : ruHealthCurrent d f true false v = ruFailover d f (ruFreezeTest d (s.setRoute d (some (rt.freezing f)))) := by
    rw [← hstart]
    rfl
  rw [ruHealthReport_of_route hrt hhold, hreported, beq_iff_eq.2 hsource, if_pos rfl, ← hv, hcurrent]
  obtain ⟨w, hw⟩ : ∃ w, w = ruFailover d f (ruFreezeTest d (s.setRoute d (some (rt.freezing f)))) := ⟨_, rfl⟩
  rw [← hw]
  unfold ruHealthTests
  simp

end

end Sys2Proof.Machine
end

section
/-! SUPPORT. The tests that a health report leads to, and what the routes take from the FM (O58). -/

namespace Sys2Proof.Machine

/-- `t` is `s` with one TAKE event of `d` raised, as far as the RW and the LPU show it. -/
def RaisedTake (s t : State) (d kind : Nat) (words : List Nat) : Prop :=
  ∃ v w, v.rw = s.rw ∧ v.lpu = s.lpu ∧ v.tb = s.tb ∧ Raised .take kind d words v w ∧ t.rw = w.rw ∧ t.lpu = w.lpu

section
variable {s t u : State} {d e f g p kept kind : Nat} {words : List Nat} {rt r : Route} {tk : Take}

theorem RaisedTake.of_raise {x : Option Route} (hrw : t.rw = (raise .take kind d words (s.setRoute d x)).rw)
    (hlpu : t.lpu = (raise .take kind d words (s.setRoute d x)).lpu) : RaisedTake s t d kind words :=
  ⟨s.setRoute d x, _, rfl, rfl, rfl, raise_raised .., hrw, hlpu⟩

theorem RouteStage.consumeArm (h : RouteStage d s u r) (e : Nat) :
    RouteStage d s (modEntry e (fun x => { x with armsLeft := x.armsLeft - 1 }) u) r := by
  refine ⟨h.env.trans ⟨rfl, rfl, rfl, rfl, rfl⟩, h.seen.trans fun i => ?_, h.route⟩
  by_cases hi : i = e
  · subst hi
    rw [entry_modEntry_self]
    exact ⟨rfl, rfl⟩
  · rw [modEntry_entry_of_ne hi]
    exact ⟨rfl, rfl⟩

/-- R148, R145: no revert count runs on a route that fails over. -/
theorem ruRevertHolds_of_target (hh : s.holder d = some e) (hsource : rt.source = .feed f)
    (htarget : failoverTarget (s.entry e) = some g) (hne : g ≠ f) : ruRevertHolds s d rt = false := by
  rw [ruRevertHolds, holderEntry_of_holder hh]
  dsimp only
  unfold failoverTarget at htarget
  split at htarget
  next hback => simp [hback]
  · split at htarget
    · cases htarget
    · obtain rfl := Option.some.inj htarget
      simp [hsource, hne.symm]

/-! ### The current feed becomes unusable -/

section
variable (hrt : s.route d = some rt) (hhold : s.hold d = none)
  (hkept : kept = if ruRevertHolds s d rt then rt.revert else 0) (hmode : s.lpu.mode = .run) (hh : s.holder d = some e)
  (hsource : rt.source = .feed f) (hdown : s.usable f = false) (hchange : rt.change ≠ some .toSlate)
include hrt hhold hmode hh hsource hchange

/-- R149: above a freeze limit of 0 the freeze timer starts, and the failover follows. -/
theorem ruHealthReport_of_freezing (hlimit : 0 < (s.destParams d).freezeLimit) :
    ruHealthReport f true false d s =
      ruRevertCheck d (ruRestore d (ruFailover d f (s.setRoute d (some (rt.freezing f))))) := by
  rw [ruHealthReport_of_current_down hrt hhold hmode hh hsource hchange, ruFreezeTest_of_idle (State.route_setRoute_self ..)]
  rintro k ⟨⟩
  exact hlimit

include hkept hdown

/-- R145: the failover to a usable feed. -/
theorem currentDown_failover (hlimit : 0 < (s.destParams d).freezeLimit)
    (hfree : ¬∃ t, rt.take = some t ∧ t.state ≠ .cued ∧ s.usable t.target = true)
    (htarget : failoverTarget (s.entry e) = some g) (hne : g ≠ f) (hauto : (s.entry e).desc.autoFailover = true)
    (harms : 0 < (s.entry e).armsLeft) (husable : s.usable g = true) (hsearch : ruSearch s d g = some p) :
    (ruHealthReport f true false d s).route d = some { rt.freezing f with
      revert := kept, failoverSince := true, take := (some ⟨g, .failover, .ready, some p, false, 0⟩) } ∧
    (ruHealthReport f true false d s).entry e = { s.entry e with armsLeft := (s.entry e).armsLeft - 1 } ∧
    RaisedTake s (ruHealthReport f true false d s) d 1 [g, 5, 4, (rt.take.map Take.target).getD 255] := by
  let r : Route := { rt.freezing f with
    failoverSince := true, take := (some ⟨g, .failover, .ready, some p, false, 0⟩) }
  obtain ⟨w, hw⟩ : ∃ w, w = raise .take 1 d [g, 5, 4, (rt.take.map Take.target).getD 255] (s.setRoute d (some r)) := ⟨_, rfl⟩
  obtain ⟨z, hz⟩ : ∃ z, z = modEntry e (fun x => { x with armsLeft := x.armsLeft - 1 }) w := ⟨_, rfl⟩
  have hstage : RouteStage d s z r := hz ▸ (hw ▸ (RouteStage.of_setRoute d s r).raise ..).consumeArm e
  have hentry : z.entry e = { s.entry e with armsLeft := (s.entry e).armsLeft - 1 } := by
    rw [hz, entry_modEntry_self, hw, raise_entry]
    rfl
  have hfailover : ruFailover d f (s.setRoute d (some (rt.freezing f))) = z := by
    rw [ruFailover_of_target (s := s.setRoute d (some (rt.freezing f))) hmode (State.route_setRoute_self ..) hh hchange
      (fun hbusy => hfree ((Route.freezing_busy_iff hdown).1 hbusy)) htarget hne hauto harms]
    refine (if_pos husable).trans ?_
    rw [setRoute_setRoute, ruFailoverTake_of_found (s := s.setRoute d (some { rt.freezing f with failoverSince := true }))
      hmode (State.route_setRoute_self ..) husable hsearch, setRoute_setRoute, Route.freezing_take_target, hz, hw]
  have hend : ruHealthReport f true false d s = z.setRoute d (some { r with revert := kept }) := by
    rw [ruHealthReport_of_freezing hrt hhold hmode hh hsource hchange hlimit, hfailover,
      ruRestore_of_idle (.inr (.inr (Option.some_ne_none _))) hstage.route, hstage.revertCheck hkept _ rfl]
    rw [ruRevertHolds_of_target hh hsource htarget hne, ruRevertHolds_of_target (rt := r) hh hsource htarget hne]
  rw [hend]
  refine ⟨State.route_setRoute_self .., hentry, .of_raise (x := some r) ?_ ?_⟩
  · rw [hz, hw]
    rfl
  · rw [hz, hw]
    rfl

/-- R145: the failover to an unusable feed is deferred. -/
theorem currentDown_deferred (hlimit : 0 < (s.destParams d).freezeLimit)
    (hfree : ¬∃ t, rt.take = some t ∧ t.state ≠ .cued ∧ s.usable t.target = true)
    (htarget : failoverTarget (s.entry e) = some g) (hne : g ≠ f) (hauto : (s.entry e).desc.autoFailover = true)
    (harms : 0 < (s.entry e).armsLeft) (hunusable : s.usable g = false)
    (hkeeps : rt.take ≠ none ∨ s.usable (s.entry e).selected = false) :
    (ruHealthReport f true false d s).route d = some { rt.freezing f with
      revert := kept, failoverSince := true, wanted := some g } ∧ (ruHealthReport f true false d s).bt = s.bt ∧
    RaisedTake s (ruHealthReport f true false d s) d 6 [g, f, (s.entry e).armsLeft] := by
  let r : Route := { rt.freezing f with failoverSince := true, wanted := some g }
  obtain ⟨z, hz⟩ : ∃ z, z = raise .take 6 d [g, f, (s.entry e).armsLeft] (s.setRoute d (some r)) := ⟨_, rfl⟩
  have hstage : RouteStage d s z r := hz ▸ (RouteStage.of_setRoute d s r).raise ..
  have hfailover : ruFailover d f (s.setRoute d (some (rt.freezing f))) = z := by
    rw [ruFailover_of_target (s := s.setRoute d (some (rt.freezing f))) hmode (State.route_setRoute_self ..) hh hchange
      (fun hbusy => hfree ((Route.freezing_busy_iff hdown).1 hbusy)) htarget hne hauto harms]
    have hunusable' : ¬(s.setRoute d (some (rt.freezing f))).usable g = true := ne_true_of_eq_false hunusable
    refine (if_neg hunusable').trans ?_
    rw [setRoute_setRoute, hz]
    rfl
  have hrestore : ruRestore d z = z := by
    obtain htake | hback := hkeeps
    · refine ruRestore_of_idle (.inr (.inr ?_)) hstage.route
      exact fun hnone => htake (Option.map_eq_none_iff.1 hnone)
    · refine ruRestore_of_unusable (hstage.holder hh) hstage.route ?_ ?_
      · rintro w ⟨⟩
        rw [hstage.env.usable, hunusable]
      · rw [hstage.env.usable, (hstage.seen e).2, hback]
  have hend : ruHealthReport f true false d s = z.setRoute d (some { r with revert := kept }) := by
    rw [ruHealthReport_of_freezing hrt hhold hmode hh hsource hchange hlimit, hfailover, hrestore,
      hstage.revertCheck hkept _ rfl]
    rw [ruRevertHolds_of_target hh hsource htarget hne, ruRevertHolds_of_target (rt := r) hh hsource htarget hne]
  rw [hend]
  refine ⟨State.route_setRoute_self .., ?_, .of_raise (x := some r) ?_ ?_⟩
  · rw [hz]
    exact raise_bt ..
  · rw [hz]
    rfl
  · rw [hz]
    rfl

section
variable (hlimit : 0 < (s.destParams d).freezeLimit)
  (hidle : (∃ t, rt.take = some t ∧ t.state ≠ .cued ∧ s.usable t.target = true) ∨ failoverTarget (s.entry e) = none ∨
    failoverTarget (s.entry e) = some f ∨ (s.entry e).desc.autoFailover = false ∨ (s.entry e).armsLeft = 0)
include hlimit hidle

omit hkept in
/-- R149: without a failover the restore test decides. -/
theorem ruHealthReport_of_restore : ruHealthReport f true false d s =
    ruRevertCheck d (ruRestore d (s.setRoute d (some (rt.freezing f)))) := by
  rw [ruHealthReport_of_freezing hrt hhold hmode hh hsource hchange hlimit,
    ruFailover_of_idle (s := s.setRoute d (some (rt.freezing f))) (e := e) (State.route_setRoute_self ..) hh]
  exact .inr (hidle.imp_left (Route.freezing_busy_iff hdown).2)

/-- R147: no take is restored. -/
theorem currentDown_quiet (h : rt.take ≠ none ∨
      (∀ w, rt.wanted = some w → s.usable w = false) ∧ s.usable (s.entry e).selected = false) :
    ruHealthReport f true false d s = s.setRoute d (some { rt.freezing f with revert := kept }) := by
  have hstage := RouteStage.of_setRoute d s (rt.freezing f)
  have hrestore : ruRestore d (s.setRoute d (some (rt.freezing f))) = s.setRoute d (some (rt.freezing f)) := by
    obtain htake | ⟨hwanted, hback⟩ := h
    · exact ruRestore_of_idle (.inr (.inr fun hnone => htake (Option.map_eq_none_iff.1 hnone))) hstage.route
    · exact ruRestore_of_unusable (s := s.setRoute d (some (rt.freezing f))) hh hstage.route hwanted hback
  rw [ruHealthReport_of_restore hrt hhold hmode hh hsource hdown hchange hlimit hidle, hrestore,
    hstage.revertCheck hkept rfl rfl, setRoute_setRoute]

end

/-- R144: with a freeze limit of 0 the change to slate is placed at once. -/
theorem currentDown_frozen (hlimit : (s.destParams d).freezeLimit = 0) (htake : rt.take = none)
    (hwanted : ∀ w, rt.wanted = some w → s.usable w = false) (hback : s.usable (s.entry e).selected = false) :
    (ruHealthReport f true false d s).route d = some { rt with
      revert := kept, change := (some .toSlate), wanted := some (rt.wanted.getD f), freeze := none } ∧
    ((ruHealthReport f true false d s).delivery d).condition = .outage ∧ (ruHealthReport f true false d s).bt = s.bt ∧
    RaisedTake s (ruHealthReport f true false d s) d 7 [f, 0, rt.wanted.getD f] := by
  let r : Route := (rt.freezing f).frozen f
  obtain ⟨w, hw⟩ : ∃ w, w = raise .take 7 d [f, 0, rt.wanted.getD f] (s.setRoute d (some r)) := ⟨_, rfl⟩
  obtain ⟨z, hz⟩ : ∃ z, z = w.setDelivery d { s.delivery d with condition := .outage } := ⟨_, rfl⟩
  have hstage : RouteStage d s z r := by
    have hraised : RouteStage d s w r := hw ▸ (RouteStage.of_setRoute d s r).raise ..
    rw [hz]
    exact ⟨hraised.env.trans ⟨rfl, rfl, rfl, rfl, rfl⟩, hraised.seen, hraised.route⟩
  have htest : ruFreezeTest d (s.setRoute d (some (rt.freezing f))) = z := by
    rw [ruFreezeTest_of_limit (s := s.setRoute d (some (rt.freezing f))) (rt := rt.freezing f) (k := 0) hmode
      (State.route_setRoute_self ..) hh hsource rfl (Nat.le_of_eq hlimit), setRoute_setRoute, hz, hw, ← hlimit]
    rfl
  have hfailover : ruFailover d f z = z := ruFailover_of_idle hstage.route (hstage.holder hh) (.inl rfl)
  have hrestore : ruRestore d z = z := by
    refine ruRestore_of_unusable (hstage.holder hh) hstage.route ?_ ?_
    · rintro i ⟨⟩
      rw [hstage.env.usable]
      change s.usable (rt.wanted.getD f) = false
      cases hi : rt.wanted with
      | none => exact hdown
      | some i => exact hwanted i hi
    · rw [hstage.env.usable, (hstage.seen e).2, hback]
  have hroute : ({ r with revert := kept } : Route) = { rt with
      revert := kept, change := (some .toSlate), wanted := some (rt.wanted.getD f), freeze := none } := by
    have hmap : rt.take.map (Take.waits f) = rt.take := by
      rw [htake]
      rfl
    change ({ rt with
      revert := kept, change := (some .toSlate), wanted := some (rt.wanted.getD f), freeze := none,
      take := rt.take.map (Take.waits f) } : Route) = _
    rw [hmap]
  rw [ruHealthReport_of_current_down hrt hhold hmode hh hsource hchange, htest, hfailover, hrestore,
    hstage.revertCheck hkept rfl rfl, hroute]
  refine ⟨State.route_setRoute_self .., ?_, ?_, .of_raise (x := some r) ?_ ?_⟩
  · rw [hz]
    exact congrArg Delivery.condition (State.delivery_setDelivery_self ..)
  · rw [hz, hw]
    exact raise_bt ..
  · rw [hz, hw]
    rfl
  · rw [hz, hw]
    rfl

end

/-! ### Takes restored or taken up -/

/-- R147: the take that the restore test requests on the way of a report. -/
theorem restored_of_stage (hkept : kept = if ruRevertHolds s d rt then rt.revert else 0)
    (hmode : s.lpu.mode = .run) (hh : s.holder d = some e) (hsource : r.source = rt.source)
    (hsince : r.failoverSince = rt.failoverSince) (hrevert : r.revert = rt.revert)
    (htake : r.take = none) (hdown : ruSourceDown s r = true)
    (hg : r.wanted = some g ∨ (∀ w, r.wanted = some w → s.usable w = false) ∧ g = (s.entry e).selected)
    (husable : s.usable g = true) (hsearch : ruSearch s d g = some p)
    (ht : t = ruRevertCheck d (ruRestore d (s.setRoute d (some r)))) :
    t.route d = some { r with revert := kept, take := (some ⟨g, .restore, .ready, some p, false, 0⟩) } ∧ t.bt = s.bt ∧
    RaisedTake s t d 1 [g, 7, 4, 255] := by
  let y : Route := { r with take := (some ⟨g, .restore, .ready, some p, false, 0⟩) }
  obtain ⟨z, hz⟩ : ∃ z, z = raise .take 1 d [g, 7, 4, 255] (s.setRoute d (some y)) := ⟨_, rfl⟩
  have hstage : RouteStage d s z y := hz ▸ (RouteStage.of_setRoute d s y).raise ..
  have hrestore : ruRestore d (s.setRoute d (some r)) = z := by
    rw [ruRestore_of_usable (s := s.setRoute d (some r)) hh (State.route_setRoute_self ..) hmode htake hdown hg husable,
      ruRequestTake_of_found (s := s.setRoute d (some r)) hmode (State.route_setRoute_self ..) husable hsearch,
      setRoute_setRoute, hz, htake]
    rfl
  have hholds : ruRevertHolds s d y = ruRevertHolds s d rt := (SameEnv.refl d s).ruRevertHolds (.of_bt rfl) hsince hsource
  rw [ht, hrestore, hstage.revertCheck hkept hholds hrevert]
  refine ⟨State.route_setRoute_self .., ?_, .of_raise (x := some y) ?_ ?_⟩
  · rw [hz]
    exact raise_bt ..
  · rw [hz]
    rfl
  · rw [hz]
    rfl

section
variable (hrt : s.route d = some rt) (hhold : s.hold d = none)
  (hkept : kept = if ruRevertHolds s d rt then rt.revert else 0) (hmode : s.lpu.mode = .run) (hh : s.holder d = some e)
  (husable : s.usable f = true)
include hrt hhold hkept hmode hh husable

/-- R146: the wanted feed becomes usable, and the deferred failover is taken up. -/
theorem wantedUp_failover {c : Nat} (hwanted : rt.wanted = some f) (hsource : rt.source = .feed c)
    (hdown : s.usable c = false) (hchange : rt.change ≠ some .toSlate) (hauto : (s.entry e).desc.autoFailover = true)
    (harms : 0 < (s.entry e).armsLeft) (htarget : failoverTarget (s.entry e) = some f)
    (htakes : ∀ t, rt.take = some t → s.usable t.target = false) (hsearch : ruSearch s d f = some p) :
    (ruHealthReport f false true d s).route d = some { rt with
      revert := kept, take := (some ⟨f, .failover, .ready, some p, false, 0⟩) } ∧
    (ruHealthReport f false true d s).entry e = { s.entry e with armsLeft := (s.entry e).armsLeft - 1 } ∧
    RaisedTake s (ruHealthReport f false true d s) d 1 [f, 5, 4, (rt.take.map Take.target).getD 255] := by
  have hne : ∀ g, s.usable g = false → g ≠ f := fun g hg heq => by
    rw [heq, husable] at hg
    cases hg
  have hreported : s.reportedRoute d f false true rt = rt :=
    reportedRoute_of_kept fun t ht => reportedTake_of_other (hne _ (htakes t ht))
  have haway : (rt.source == .feed f) = false := by
    simpa [hsource] using hne c hdown
  let r : Route := { rt with take := (some ⟨f, .failover, .ready, some p, false, 0⟩) }
  obtain ⟨w, hw⟩ : ∃ w, w = raise .take 1 d [f, 5, 4, (rt.take.map Take.target).getD 255] (s.setRoute d (some r)) := ⟨_, rfl⟩
  obtain ⟨z, hz⟩ : ∃ z, z = modEntry e (fun x => { x with armsLeft := x.armsLeft - 1 }) w := ⟨_, rfl⟩
  have hstage : RouteStage d s z r := hz ▸ (hw ▸ (RouteStage.of_setRoute d s r).raise ..).consumeArm e
  have hentry : z.entry e = { s.entry e with armsLeft := (s.entry e).armsLeft - 1 } := by
    rw [hz, entry_modEntry_self, hw, raise_entry]
    rfl
  have hdeferred : ruDeferredFailover d (s.setRoute d (some rt)) = z := by
    rw [ruDeferredFailover_of_taken (s := s.setRoute d (some rt)) hmode (State.route_setRoute_self ..) hh hsource hdown
      hwanted husable hchange htakes hauto harms htarget, ruFailoverTake_of_found (s := s.setRoute d (some rt)) hmode
      (State.route_setRoute_self ..) husable hsearch, setRoute_setRoute, hz, hw]
  have htests : ruHealthTests d f false true false (s.setRoute d (some rt)) = ruRestore d z := by
    unfold ruHealthTests
    rw [State.route_setRoute_self, hdeferred]
    simp [hwanted]
  rw [ruHealthReport_of_route hrt hhold, hreported, haway, if_neg Bool.false_ne_true, htests,
    ruRestore_of_idle (.inr (.inr (Option.some_ne_none _))) hstage.route, hstage.revertCheck hkept rfl rfl]
  refine ⟨State.route_setRoute_self .., hentry, .of_raise (x := some r) ?_ ?_⟩
  · rw [hz, hw]
    rfl
  · rw [hz, hw]
    rfl

omit hkept hmode in
/-- R147: the wanted or the selected feed becomes usable, and the restore test decides. -/
theorem restorableUp_restores
    (hnot : ¬(rt.wanted = some f ∧ (∃ c, rt.source = .feed c ∧ s.usable c = false) ∧ rt.change ≠ some .toSlate ∧
      (s.entry e).desc.autoFailover = true ∧ 0 < (s.entry e).armsLeft ∧ failoverTarget (s.entry e) = some f))
    (htake : rt.take = none) (hevent : rt.wanted = some f ∨ (s.entry e).selected = f)
    (hdown : rt.source = .slate ∨ ∃ c, rt.source = .feed c ∧ s.usable c = false) :
    ruHealthReport f false true d s = ruRevertCheck d (ruRestore d (s.setRoute d (some rt))) := by
  have hreported : s.reportedRoute d f false true rt = rt :=
    reportedRoute_of_kept fun t ht => by
      rw [htake] at ht
      cases ht
  have haway : (rt.source == .feed f) = false := by
    obtain hslate | ⟨c, hsource, hc⟩ := hdown
    · rw [hslate]
      rfl
    · rw [hsource, beq_eq_false_iff_ne]
      rintro ⟨⟩
      rw [husable] at hc
      cases hc
  have htests : ruHealthTests d f false true false (s.setRoute d (some rt)) = ruRestore d (s.setRoute d (some rt)) := by
    have hsel : (s.setRoute d (some rt)).selectedFeed d = some (s.entry e).selected := by
      rw [State.selectedFeed, holderEntry_of_holder (s := s.setRoute d (some rt)) hh]
      rfl
    unfold ruHealthTests
    rw [State.route_setRoute_self, hsel]
    by_cases hwanted : rt.wanted = some f
    · rw [ruDeferredFailover_of_not_deferred (s := s.setRoute d (some rt)) (State.route_setRoute_self ..) hh hnot hwanted]
      simp [hwanted]
    · have hselected := hevent.resolve_left hwanted
      simp [hwanted, hselected]
  rw [ruHealthReport_of_route hrt hhold, hreported, haway, if_neg Bool.false_ne_true, htests]

end

/-! ### What the reports do to the routes -/

/-- O58, first part, for a take of a feed that is nothing else to `d`. -/
theorem takeReported (hrt : s.route d = some rt) (hhold : s.hold d = none) (htake : rt.take = some tk)
    (hkept : kept = if ruRevertHolds s d rt then rt.revert else 0) (hsource : rt.source ≠ .feed f)
    (hwanted : rt.wanted ≠ some f) (hselected : ∀ e, s.holder d = some e → (s.entry e).selected ≠ f) (was is : Bool) :
    ruHealthReport f was is d s = s.setRoute d (some { rt with
      revert := kept, take := (some (s.reportedTake d f was is tk)) }) := by
  rw [ruHealthReport_of_away hrt hhold hkept hsource hwanted hselected, State.reportedRoute, htake]
  rfl

theorem reportedTake_of_up (h : tk.target = f) (hstate : tk.state = .waitSource) :
    s.reportedTake d f false true tk = ruArm s d tk := by
  unfold State.reportedTake
  rw [if_neg (by simp [h]), hstate]
  rfl

theorem reportedTake_of_armed (h : tk.target = f) (hstate : tk.state ≠ .waitSource) :
    s.reportedTake d f false true tk = tk := by
  unfold State.reportedTake
  rw [if_neg (by simp [h]), if_neg (by simp), if_neg (by simp [hstate])]

theorem Take.waits_of_waiting (h : tk.state = .waitSource) (f : Nat) : tk.waits f = tk := if_neg fun hf => hf.2 h

theorem Take.waits_of_arming (htarget : tk.target = f) (h : tk.state = .arming) :
    tk.waits f = { tk with state := .waitSource, slot := none, rough := false } := by
  unfold Take.waits
  rw [if_pos ⟨htarget, by simp [h]⟩, if_pos h]

theorem Take.waits_of_armed (htarget : tk.target = f) (h : tk.state = .ready ∨ tk.state = .cued) :
    tk.waits f = { tk with state := .waitSource, slot := none, rough := false, timer := 0 } := by
  have hne : tk.state ≠ .waitSource ∧ tk.state ≠ .arming := by
    obtain h | h := h
    · simp [h]
    · simp [h]
  unfold Take.waits
  rw [if_pos ⟨htarget, hne.1⟩, if_neg hne.2]

/-- The reports of a feed leave the holders and the grant queues. -/
theorem reading_ga (x : Ga) : Reading (fun _ => True) (fun _ => False) (fun t => t.ga = x) where
  raise hs := (raise_ga ..).trans hs
  route _ hs := hs
  delivery _ hs := hs
  feed hf := hf.elim
  counts _ hs := hs
  latch _ hs := hs
  forward hs := (lpuForward_ga ..).trans hs
  hold _ _ _ hs := hs
  join _ hs := hs
  free _ hs := hs

/-- The frame of a health report. -/
theorem ruHealthReport_frame (s : State) (d f : Nat) (was is : Bool) :
    (∀ g, g ≠ d → (ruHealthReport f was is d s).route g = s.route g) ∧ (ruHealthReport f was is d s).fm = s.fm ∧
    (ruHealthReport f was is d s).ga = s.ga := by
  refine ⟨(otherRoutes_reading d s).ruHealthReport rfl (fun _ _ => rfl) f was is,
    (reading_fm s.fm).ruHealthReport trivial rfl f was is,
    (reading_ga s.ga).ruHealthReport trivial rfl f was is⟩

end

/-- Settles O58: the steps of R149 one by one, each made on the state that the step before leaves. -/
theorem reportsReachTheRoutes : Obligations.ReportsReachTheRoutes := by
  refine ⟨fun s d f was is rt kept hrt hhold => ?_, completionReportsReachTakes, reportsOfTheMonitor⟩
  intro reverts hpos hneg t on old quiet raised
  have hkept : kept = if ruRevertHolds s d rt then rt.revert else 0 := kept_eq hpos hneg
  obtain ⟨hroutes, hfm, hga⟩ := ruHealthReport_frame s d f was is
  have hset : ∀ r, t = s.setRoute d (some r) → t.route d = some r ∧ quiet := fun r ht => by
    refine ⟨ht ▸ State.route_setRoute_self .., ?_⟩
    change t.bt = s.bt ∧ t.rw = s.rw ∧ t.lpu = s.lpu
    rw [ht]
    exact ⟨rfl, rfl, rfl⟩
  refine ⟨hroutes, hfm, hga, fun h => hset _ (ruHealthReport_of_same hrt hhold hkept h), ?_, ?_, ?_⟩
  · intro tk htake hsource hwanted hselected ends
    have hends : ∀ k, s.reportedTake d f was is tk = k → ends k := fun k hk => by
      have ht : t = s.setRoute d (some { rt with revert := kept, take := (some k) }) :=
        hk ▸ takeReported hrt hhold htake hkept hsource hwanted hselected was is
      obtain ⟨hroute, hquiet⟩ := hset _ ht
      refine ⟨hroute, hquiet, ?_⟩
      rw [ht]
      rfl
    refine ⟨fun h => hends _ (reportedTake_of_other h), ?_, ?_⟩
    · rintro htarget rfl rfl
      refine ⟨fun h => hends _ ?_, fun h => hends _ ?_, fun h => hends _ ?_⟩
      · rw [reportedTake_of_down, Take.waits_of_waiting h]
      · rw [reportedTake_of_down, Take.waits_of_arming htarget h]
      · rw [reportedTake_of_down, Take.waits_of_armed htarget h]
    · rintro htarget rfl rfl
      refine ⟨fun h => hends _ (reportedTake_of_armed htarget h), fun h => ⟨fun hnone => hends _ ?_, fun p hp => hends _ ?_⟩⟩
      · rw [reportedTake_of_up htarget h, ruArm_of_not_found (htarget ▸ hnone)]
      · rw [reportedTake_of_up htarget h, ruArm_of_found (htarget ▸ hp)]
  · rintro rfl rfl hsource husable htakes
    exact hset _ (ruHealthReport_of_current_usable (rt := rt) hrt hhold hkept hsource husable htakes)
  · intro e hh hmode x target idle restores
    refine ⟨?_, ?_⟩
    · rintro rfl rfl hsource hdown hchange waits busy frozen
      refine ⟨fun hlimit => ⟨fun g hfree htarget hne hauto harms => ⟨fun p husable hp => ?_, fun hunusable hkeeps => ?_⟩,
        fun hidle => ⟨fun h => ?_, fun g p htake hrestores hp => ?_⟩⟩, fun hlimit htake hidle => ?_⟩
      · exact currentDown_failover (rt := rt) hrt hhold hkept hmode hh hsource hdown hchange hlimit hfree htarget hne hauto
          harms husable hp
      · exact currentDown_deferred (rt := rt) hrt hhold hkept hmode hh hsource hdown hchange hlimit hfree htarget hne hauto
          harms hunusable hkeeps
      · exact hset _ (currentDown_quiet (rt := rt) hrt hhold hkept hmode hh hsource hdown hchange hlimit hidle h)
      · refine restored_of_stage (r := rt.freezing f) hkept hmode hh rfl rfl rfl ?_ ?_ hrestores.2 hrestores.1 hp
          (ruHealthReport_of_restore hrt hhold hmode hh hsource hdown hchange hlimit hidle)
        · exact Option.map_eq_none_iff.2 htake
        · simp [ruSourceDown, Route.freezing, hsource, hdown]
      · exact currentDown_frozen (rt := rt) hrt hhold hkept hmode hh hsource hdown hchange hlimit htake hidle.1 hidle.2
    · rintro rfl rfl husable deferred
      refine ⟨fun p hdeferred htakes hp => ?_, fun g p hnot htake hevent hdown hrestores hp => ?_⟩
      · obtain ⟨hwanted, ⟨c, hsource, hc⟩, hchange, hauto, harms, htarget⟩ := hdeferred
        exact wantedUp_failover (rt := rt) hrt hhold hkept hmode hh husable hwanted hsource hc hchange hauto harms htarget
          htakes hp
      · refine restored_of_stage (r := rt) hkept hmode hh rfl rfl rfl htake ?_ hrestores.2 hrestores.1 hp
          (restorableUp_restores hrt hhold hh husable hnot htake hevent hdown)
        obtain hslate | ⟨c, hsource, hc⟩ := hdown
        · simp [ruSourceDown, hslate]
        · simp [ruSourceDown, hsource, hc]

end Sys2Proof.Machine
end

section
/-! SUPPORT. The end of a hold: the reads that it sends, in the order of its entry (O27, first and second part). -/

namespace Sys2Proof.Machine

/-! ### A read sent downstream -/

section
variable {s t u v : State} {d f slot : Nat} {x : Served} {h : HoldEntry} {w : Region} {r : Request} {rs : List Request}

/-- `s` after `ys` have entered the forwarding queue. -/
def State.withSent (ys : List Forward) (s : State) : State :=
  s.withLpu { s.lpu with forwarding := s.lpu.forwarding ++ ys }

theorem windowSlot_of_window (hw : s.windowDef d = some w) (r : Request) :
    windowSlot s d r = (r.addr.toNat - w.base.toNat) / 2048 := by
  rw [windowSlot, hw]
  rfl

theorem windowOffset_of_window (hw : s.windowDef d = some w) (r : Request) :
    windowOffset s d r = (r.addr.toNat - w.base.toNat) % 2048 := by
  rw [windowOffset, hw]
  rfl

/-- R10: a read enters a forwarding queue that has a place. -/
theorem lpuServe_of_room (hnone : s.lpu.decidedReads = []) (hroom : s.lpu.forwarding.length < 32) (d : Nat) (r : Request)
    (x : Served) : lpuServe d r x s = s.withForward (s.serving x d r) := by
  have hforward : ∀ y, lpuForward y s = s.withForward y := fun y => by
    simp [lpuForward, State.withForward, hroom, hnone]
  exact hforward _

theorem withSent_withForward (y : Forward) (ys : List Forward) (s : State) :
    (s.withForward y).withSent ys = s.withSent (y :: ys) := by
  unfold State.withSent State.withForward State.withLpu
  simp

/-- R161: joined reads of the latched slot are answered from its source. -/
theorem lpuAnswerJoined_of_latched (hlatch : s.latch d = some ⟨slot, .decided x⟩)
    (hslot : ∀ y ∈ rs, windowSlot s d y = slot) (hnone : s.lpu.decidedReads = [])
    (hroom : s.lpu.forwarding.length + rs.length ≤ 32) :
    lpuAnswerJoined d rs s = s.withSent (rs.map (s.serving x d)) := by
  induction rs generalizing s with
  | nil =>
    unfold State.withSent
    rw [List.map_nil, List.append_nil]
    rfl
  | cons r rs ih =>
    rw [List.length_cons] at hroom
    have hlatched : latchDecided s d slot = true := by
      rw [latchDecided, hlatch]
      exact beq_self_eq_true slot
    have hfollow : lpuFollow s d slot = x := by
      rw [lpuFollow, hlatch]
      exact if_pos rfl
    have hread : lpuReadWindow d r s = (s.withForward (s.serving x d r), false) := by
      rw [lpuReadWindow, hslot r List.mem_cons_self, hlatched, hfollow, lpuServe_of_room hnone (by omega)]
      exact if_neg (by simp)
    have hlength : (s.withForward (s.serving x d r)).lpu.forwarding.length = s.lpu.forwarding.length + 1 :=
      List.length_append
    rw [lpuAnswerJoined, hread]
    dsimp only
    rw [ih (s := s.withForward (s.serving x d r)) hlatch (fun y hy => hslot y (List.mem_cons_of_mem _ hy)) hnone (by omega),
      withSent_withForward]
    rfl

/-- The state in which the hold `h` has been decided to `x`, with none of its reads answered. -/
def State.holdDecided (s : State) (h : HoldEntry) (x : Served) : State :=
  (holdFree h.dest s).setLatch h.dest (some ⟨h.slot, .decided x⟩)

theorem State.latch_holdDecided (s : State) (h : HoldEntry) (x : Served) :
    (s.holdDecided h x).latch h.dest = some ⟨h.slot, .decided x⟩ := State.latch_setLatch_self ..

/-- R161: the end of a hold all of whose reads are of the latched slot. -/
theorem lpuEndHold_of_latched (hreads : h.reads ≠ []) (hslot : ∀ y ∈ h.reads.tail, windowSlot s h.dest y = h.slot)
    (hnone : s.lpu.decidedReads = []) (hroom : s.lpu.forwarding.length + h.reads.length ≤ 32) (x : Served) :
    lpuEndHold h x s = (s.holdDecided h x).withSent (h.reads.map (s.serving x h.dest)) := by
  obtain ⟨r, rs, hrs⟩ : ∃ r rs, h.reads = r :: rs := List.exists_cons_of_ne_nil hreads
  rw [hrs, List.length_cons] at hroom
  rw [hrs, List.tail_cons] at hslot
  obtain ⟨v, hv⟩ : ∃ v, v = s.holdDecided h x := ⟨_, rfl⟩
  have hlatch : v.latch h.dest = some ⟨h.slot, .decided x⟩ := hv ▸ State.latch_holdDecided s h x
  have hvnone : v.lpu.decidedReads = [] := hv ▸ hnone
  have hvlength : v.lpu.forwarding.length = s.lpu.forwarding.length := hv ▸ rfl
  have hvslot : ∀ y ∈ rs, windowSlot v h.dest y = h.slot := hv ▸ hslot
  have hvsent : v.serving x h.dest = s.serving x h.dest := hv ▸ rfl
  have hlength : (v.withForward (v.serving x h.dest r)).lpu.forwarding.length = s.lpu.forwarding.length + 1 := by
    rw [← hvlength]
    exact List.length_append
  rw [lpuEndHold, hrs]
  change lpuAnswerJoined h.dest rs (lpuServe h.dest r x (s.holdDecided h x)) = _
  rw [← hv, lpuServe_of_room hvnone (by omega), lpuAnswerJoined_of_latched (s := v.withForward (v.serving x h.dest r)) hlatch
    hvslot hvnone (by omega), withSent_withForward, ← hvsent]
  rfl

/-- `t` is a state after the hold `h` of `s` has ended with its source `x` and all its reads sent. -/
structure HoldEnded (s : State) (h : HoldEntry) (x : Served) (t : State) : Prop where
  holds : t.lpu.holds = s.lpu.holds.filter (fun k => k.dest ≠ h.dest)
  latch : t.latch h.dest = some ⟨h.slot, .decided x⟩
  forwarding : t.lpu.forwarding = s.lpu.forwarding ++ h.reads.map (s.serving x h.dest)

theorem holdEnded_of_sent (hv : v.lpu = s.lpu) (h : HoldEntry) (x : Served) :
    HoldEnded s h x ((v.holdDecided h x).withSent (h.reads.map (s.serving x h.dest))) := by
  refine ⟨?_, State.latch_holdDecided v h x, ?_⟩
  · change v.lpu.holds.filter (fun k => k.dest != h.dest) = _
    rw [hv]
    refine List.filter_congr fun k _ => ?_
    by_cases hk : k.dest = h.dest
    · simp [hk]
    · simp [hk]
  · change v.lpu.forwarding ++ _ = _
    rw [hv]

theorem HoldEnded.sends (hended : HoldEnded s h x t) {ys : List Forward}
    (hys : List.Forall₂ (s.Sends x h.dest) h.reads ys) : t.lpu.forwarding = s.lpu.forwarding ++ ys := by
  rw [hended.forwarding, ← State.eq_map_serving hys]

end

/-! ### Repeats at the end of a hold -/

section
variable {s : State} {d f : Nat} {h : HoldEntry} {rt : Route} {w : Region}

theorem ruFreezeRepeat_of_route (hrt : s.route d = some rt) (f q : Nat) :
    ruFreezeRepeat d f q s = ((s.setRoute d (some { rt with phase := modSub s.ringDepth rt.phase 1 })).setDelivery d
      { s.delivery d with freezeRepeats := min 4294967295 ((s.delivery d).freezeRepeats + 1) }, previousSlot s f q) := by
  rw [ruFreezeRepeat, ruPhaseBack_of_route hrt]
  rfl

/-- R160: the state after a freeze repeat that ends the hold `h`. -/
def State.frozenHold (s : State) (d : Nat) (rt : Route) : State :=
  (s.setRoute d (some { rt with phase := modSub s.ringDepth rt.phase 1 })).setDelivery d
    { s.delivery d with freezeRepeats := min 4294967295 ((s.delivery d).freezeRepeats + 1) }

section
variable (hhold : s.hold d = some h) (hw : s.windowDef d = some w) (hnone : s.lpu.decidedReads = [])
  (hroom : s.lpu.forwarding.length + h.reads.length ≤ 32) (hreads : h.reads ≠ [])
  (hslot : ∀ y ∈ h.reads.tail, (y.addr.toNat - w.base.toNat) / 2048 = h.slot)
include hhold hw hnone hroom hreads hslot

/-- R160, R161: the hold of `d` ends as a freeze repeat. -/
theorem lpuHoldFreeze_of_hold (hrt : s.route d = some rt) (hfeed : h.feed = f) :
    lpuHoldFreeze d f s = ((s.frozenHold d rt).holdDecided h (previousSlot s f h.ringSlot)).withSent
      (h.reads.map (s.serving (previousSlot s f h.ringSlot) h.dest)) := by
  obtain rfl := State.dest_of_hold hhold
  have hslot' : ∀ y ∈ h.reads.tail, windowSlot s h.dest y = h.slot := fun y hy =>
    (windowSlot_of_window hw y).trans (hslot y hy)
  rw [lpuHoldFreeze, hhold]
  dsimp only
  rw [if_pos hfeed, ruFreezeRepeat_of_route hrt]
  exact lpuEndHold_of_latched (s := s.frozenHold h.dest rt) hreads hslot' hnone hroom _

/-- R159, R161: the hold of `d` ends at a completion that makes its slot available. -/
theorem lpuHoldCompletion_of_hold (hfeed : h.feed = f) (havail : s.available f h.ringSlot = true) :
    lpuHoldCompletion d f s = (s.holdDecided h (.ring f h.ringSlot)).withSent
      (h.reads.map (s.serving (.ring f h.ringSlot) h.dest)) := by
  obtain rfl := State.dest_of_hold hhold
  rw [lpuHoldCompletion, hhold]
  dsimp only
  rw [if_pos (by simp [hfeed, havail]), lpuEndHold_of_latched hreads (fun y hy => ?_) hnone hroom]
  exact (windowSlot_of_window hw y).trans (hslot y hy)

end

/-- The second part of O27. -/
theorem holdEndsByReport (s : State) (d f : Nat) (h : HoldEntry) (rt : Route) (w : Region) (hhold : s.hold d = some h)
    (hrt : s.route d = some rt) (hw : s.windowDef d = some w) (hnone : s.lpu.decidedReads = [])
    (hroom : s.lpu.forwarding.length + h.reads.length ≤ 32) (hreads : h.reads ≠ [])
    (hslot : ∀ y ∈ h.reads.tail, (y.addr.toNat - w.base.toNat) / 2048 = h.slot) :
    let rest := s.lpu.holds.filter (fun k => k.dest ≠ d)
    let before := modSub s.ringDepth h.ringSlot 1
    let shown : Served := if s.available f before then .ring f before else .slate
    let ended := fun (t : State) (x : Served) => t.lpu.holds = rest ∧ t.latch d = some ⟨h.slot, .decided x⟩ ∧
      ∀ sent, List.Forall₂ (s.Sends x d) h.reads sent → t.lpu.forwarding = s.lpu.forwarding ++ sent
    (h.feed = f → s.available f h.ringSlot = true → let t := lpuHoldCompletion d f s
      ended t (.ring f h.ringSlot) ∧ t.ru = s.ru ∧ t.dm = s.dm ∧ t.bt = s.bt ∧ t.rw = s.rw) ∧
    (h.feed ≠ f ∨ s.available f h.ringSlot = false → lpuHoldCompletion d f s = s) ∧
    (h.feed = f → let t := lpuHoldFreeze d f s
      ended t shown ∧ t.route d = some { rt with phase := modSub s.ringDepth rt.phase 1 } ∧
      t.delivery d =
        { s.delivery d with freezeRepeats := min 4294967295 ((s.delivery d).freezeRepeats + 1) } ∧
      t.bt = s.bt ∧ t.rw = s.rw) ∧
    (h.feed ≠ f → lpuHoldFreeze d f s = s) := by
  obtain rfl := State.dest_of_hold hhold
  intro rest before shown ended
  have hended : ∀ t x, HoldEnded s h x t → ended t x := fun t x ht => ⟨ht.holds, ht.latch, fun ys hys => ht.sends hys⟩
  refine ⟨fun hfeed havail => ?_, fun hidle => ?_, fun hfeed => ?_, fun hfeed => ?_⟩
  · intro t
    have ht : t = _ := lpuHoldCompletion_of_hold hhold hw hnone hroom hreads hslot hfeed havail
    refine ⟨hended _ _ (ht ▸ holdEnded_of_sent rfl ..), ?_⟩
    rw [ht]
    exact ⟨rfl, rfl, rfl, rfl⟩
  · rw [lpuHoldCompletion, hhold]
    refine if_neg fun hall => ?_
    obtain ⟨hfeed, havail⟩ := Bool.and_eq_true_iff.1 hall
    obtain hne | hnot := hidle
    · exact hne (of_decide_eq_true hfeed)
    · rw [hnot] at havail
      cases havail
  · intro t
    have ht : t = _ := lpuHoldFreeze_of_hold hhold hw hnone hroom hreads hslot hrt hfeed
    obtain ⟨v, hv⟩ : ∃ v, v = s.frozenHold h.dest rt := ⟨_, rfl⟩
    have hlpu : v.lpu = s.lpu := hv ▸ rfl
    have hroute : v.route h.dest = some { rt with phase := modSub s.ringDepth rt.phase 1 } :=
      hv ▸ State.route_setRoute_self ..
    have hdelivery : v.delivery h.dest =
        { s.delivery h.dest with freezeRepeats := min 4294967295 ((s.delivery h.dest).freezeRepeats + 1) } :=
      hv ▸ State.delivery_setDelivery_self ..
    have hrest : v.bt = s.bt ∧ v.rw = s.rw := by
      rw [hv]
      exact ⟨rfl, rfl⟩
    rw [← hv] at ht
    refine ⟨hended _ _ (ht ▸ holdEnded_of_sent hlpu ..), ?_⟩
    rw [ht]
    exact ⟨hroute, hdelivery, hrest⟩
  · rw [lpuHoldFreeze, hhold]
    exact if_neg hfeed

end

/-! ### The limit of a hold -/

/-- R159: the oscillator comes to the limit of the only hold, with no mark expected. -/
def State.heldTo (s : State) (h : HoldEntry) : State :=
  (s.withTb { s.tb with subMicros := s.tb.subMicros + (h.limit - h.elapsed) }).withLpu
    { s.lpu with holds := [{ h with elapsed := h.elapsed + (h.limit - h.elapsed) }] }

theorem timeTo_of_only_hold {s : State} {h : HoldEntry} (hholds : s.lpu.holds = [h]) (hexpected : s.tb.expected = none) :
    timeTo (s.tb.subMicros + (h.limit - h.elapsed)) s = s.heldTo h := by
  have hdue : deadlineDue s = none := by
    rw [deadlineDue, hexpected]
    exact ite_self none
  have hnext : nextDue s = some (holdDue s h) := by
    rw [nextDue, hholds, hdue]
    rfl
  have hidle : ∀ n, passTime (s.tb.subMicros + (h.limit - h.elapsed)) n s = s := by
    intro n
    cases n with
    | zero => rfl
    | succ n =>
      rw [passTime, hnext]
      exact if_neg (Nat.lt_irrefl _)
  have hmicros : s.tb.subMicros + (h.limit - h.elapsed) - s.tb.subMicros = h.limit - h.elapsed := Nat.add_sub_cancel_left ..
  have hmax : max s.tb.subMicros (s.tb.subMicros + (h.limit - h.elapsed)) = s.tb.subMicros + (h.limit - h.elapsed) :=
    max_eq_right (Nat.le_add_right ..)
  rw [timeTo, hidle, moveTo, holdsAge, hholds, hmicros]
  change (s.withTb { s.tb with
    subMicros := max s.tb.subMicros (s.tb.subMicros + (h.limit - h.elapsed)) }).withLpu _ = _
  rw [hmax]
  rfl

/-- HOLD_LIMIT_EXPIRY of the only hold, where its limit lies within the millisecond in progress. -/
theorem exec_holdLimitExpiry {s : State} {h : HoldEntry} (hr : s.lpu.resetAsserted = false) (hholds : s.lpu.holds = [h])
    (hexpected : s.tb.expected = none) (hlimit : s.tb.subMicros + (h.limit - h.elapsed) < 1000) :
    exec (.holdLimitExpiry h.dest) s = .next (lpuHoldExpire h.dest (s.heldTo h)) := by
  have hhold : s.hold h.dest = some h := by
    rw [State.hold, hholds]
    simp
  have hdue : (holdDue s h).1 = s.tb.subMicros + (h.limit - h.elapsed) := rfl
  have harm : exec (.holdLimitExpiry h.dest) s =
      .next (if s.lpu.resetAsserted then s else tbHoldExpiry h.dest s) := rfl
  rw [harm, hr, if_neg Bool.false_ne_true, tbHoldExpiry, hhold]
  dsimp only
  rw [hdue, if_pos hlimit, timeTo_of_only_hold hholds hexpected]

section
variable {s : State} {d f q slot elapsed limit e : Nat} {reads : List Request} {rt : Route}

/-- R162, R163: what the repeat slip at the limit of a hold has done when the event has been raised: `u` before it and `v` after
it. -/
structure HoldSlipped (s : State) (d f q slot e : Nat) (rt : Route) (h : HoldEntry) (u v : State) : Prop where
  raised : Raised .slip 1 d [slot, if s.available f (modSub s.ringDepth q 1) then modSub s.ringDepth q 1 else 65536,
    min 4294967295 ((s.delivery d).repeatSlips + 1), 0] u v
  before : u.lpu = (s.heldTo h).lpu
  link : SameLink (s.heldTo h) v
  latches : v.lpu.latches = s.lpu.latches
  route : v.route d = some { rt with phase := modSub s.ringDepth rt.phase 1 }
  repeatSlips : (v.delivery d).repeatSlips = min 4294967295 ((s.delivery d).repeatSlips + 1)
  periodRepeats : (v.delivery d).periodRepeats = min 4294967295 ((s.delivery d).periodRepeats + 1)
  dropSlips : (v.delivery d).dropSlips = (s.delivery d).dropSlips
  impairment : (v.delivery d).impairment = max (s.delivery d).impairment (s.destParams d).impairmentHold
  holdLimit : (v.delivery d).holdLimit = (s.delivery d).holdLimit
  slips : (v.entry e).slips = min 65535 ((s.entry e).slips + 1)
  fm : v.fm = s.fm
  ga : v.ga = s.ga

/-- R159: the hold at its limit is decided as a repeat slip. -/
theorem lpuHoldExpire_of_limit (hrt : s.route d = some rt) (hh : s.holder d = some e) :
    let h : HoldEntry := ⟨d, f, q, slot, elapsed, limit, reads⟩
    ∃ u v, HoldSlipped s d f q slot e rt h u v ∧ lpuHoldExpire d (s.heldTo h) =
      lpuEndHold { h with elapsed := elapsed + (limit - elapsed) } (previousSlot s f q) v := by
  intro h
  obtain ⟨u, hslip, hlpu, hru, hdelivery, hentry, hfm, hga⟩ :=
    ruRepeatSlip_spec (s := s.heldTo h) (rt := rt) hrt hh slot f q 0
  obtain ⟨v, hv⟩ : ∃ v, v = raise .slip 1 d [slot,
      if s.available f (modSub s.ringDepth q 1) then modSub s.ringDepth q 1 else 65536,
      min 4294967295 ((s.delivery d).repeatSlips + 1), 0] u := ⟨_, rfl⟩
  have hvdelivery : v.delivery d = u.delivery d := hv ▸ raise_delivery ..
  have hslip' : ruRepeatSlip d slot f q 0 (s.heldTo h) = (v, previousSlot s f q) := hslip.trans (hv ▸ rfl)
  have hhold : (s.heldTo h).hold d = some { h with elapsed := elapsed + (limit - elapsed) } := by
    rw [State.hold]
    exact List.find?_cons_of_pos (decide_eq_true rfl)
  have hexpire : lpuHoldExpire d (s.heldTo h) =
      lpuEndHold { h with elapsed := elapsed + (limit - elapsed) } (previousSlot s f q) v := by
    rw [lpuHoldExpire, hhold]
    dsimp only
    rw [hslip']
  refine ⟨u, v, ⟨hv ▸ raise_raised .., hlpu, hv ▸ (SameLink.of_lpu_eq hlpu).raise .., ?_, ?_, ?_, ?_, ?_, ?_, ?_, ?_, ?_, ?_⟩,
    hexpire⟩
  · rw [hv, raise_lpu_latches, hlpu]
    rfl
  · rw [hv, raise_route, State.route, hru]
    exact State.route_setRoute_self ..
  · rw [hvdelivery, hdelivery]
    rfl
  · rw [hvdelivery, hdelivery]
    rfl
  · rw [hvdelivery, hdelivery]
    rfl
  · rw [hvdelivery, hdelivery]
    rfl
  · rw [hvdelivery, hdelivery]
    rfl
  · rw [hv, raise_entry]
    exact hentry
  · rw [hv, raise_fm]
    exact hfm
  · rw [hv, raise_ga]
    exact hga

/-- `t` is `v` but for latches, the forwarding queue and the hold list. -/
def ReadsOnly (v t : State) : Prop :=
  t.withLpu { t.lpu with latches := v.lpu.latches, forwarding := v.lpu.forwarding, holds := v.lpu.holds } = v

/-- What O27 says of the slip, where only reads have been treated after it. -/
theorem HoldSlipped.slipped {h : HoldEntry} {u v t : State} (hs : HoldSlipped s d f q slot e rt h u v)
    (ht : ReadsOnly v t) : u.lpu = { s.lpu with holds := u.lpu.holds } ∧
      Raised .slip 1 d [slot, if s.available f (modSub s.ringDepth q 1) then modSub s.ringDepth q 1 else 65536,
        min 4294967295 ((s.delivery d).repeatSlips + 1), 0] u
        (t.withLpu { t.lpu with latches := s.lpu.latches, forwarding := s.lpu.forwarding, holds := u.lpu.holds }) ∧
      t.route d = some { rt with phase := modSub s.ringDepth rt.phase 1 } ∧
      (t.delivery d).repeatSlips = min 4294967295 ((s.delivery d).repeatSlips + 1) ∧
      (t.delivery d).periodRepeats = min 4294967295 ((s.delivery d).periodRepeats + 1) ∧
      (t.delivery d).dropSlips = (s.delivery d).dropSlips ∧
      (t.delivery d).impairment = max (s.delivery d).impairment (s.destParams d).impairmentHold ∧
      (t.entry e).slips = min 65535 ((s.entry e).slips + 1) ∧ t.fm = s.fm ∧ t.ga = s.ga := by
  have hforwarding : v.lpu.forwarding = s.lpu.forwarding := by
    rw [hs.link]
    rfl
  have hholds : v.lpu.holds = u.lpu.holds := by
    rw [hs.link, hs.before]
  have hroute : t.route d = v.route d := (congrArg (fun z => z.route d) ht :)
  have hdelivery : t.delivery d = v.delivery d := (congrArg (fun z => z.delivery d) ht :)
  have hentry : t.entry e = v.entry e := (congrArg (fun z => z.entry e) ht :)
  have hfm : t.fm = v.fm := (congrArg State.fm ht :)
  have hga : t.ga = v.ga := (congrArg State.ga ht :)
  refine ⟨?_, ?_, hroute.trans hs.route, ?_, ?_, ?_, ?_, ?_, hfm.trans hs.fm, hga.trans hs.ga⟩
  · rw [hs.before]
    rfl
  · rw [← hs.latches, ← hforwarding, ← hholds, ht]
    exact hs.raised
  · rw [hdelivery, hs.repeatSlips]
  · rw [hdelivery, hs.periodRepeats]
  · rw [hdelivery, hs.dropSlips]
  · rw [hdelivery, hs.impairment]
  · rw [hentry, hs.slips]

theorem readsOnly_of_sent (v : State) (h : HoldEntry) (x : Served) (ys : List Forward) :
    ReadsOnly v ((v.holdDecided h x).withSent ys) := rfl

/-- What a read sent downstream shows of the state. -/
theorem SameLink.serving_eq {v : State} (h : SameLink s v) (x : Served) (d : Nat) (r : Request) : v.serving x d r = s.serving x d r := by
  have hwindow : v.windowDef = s.windowDef := by
    funext i
    unfold State.windowDef
    rw [h]
  have hring : v.ringDef = s.ringDef := by
    funext i
    unfold State.ringDef
    rw [h]
  have hbase : v.controlBase = s.controlBase := by
    unfold State.controlBase
    rw [h]
  unfold State.serving windowOffset windowSlot remapped
  rw [hwindow, hring, hbase]

theorem available_congr {v : State} (hfm : v.fm = s.fm) (hdepth : v.lpu.depth = s.lpu.depth) (f q : Nat) :
    v.available f q = s.available f q := by
  have hn : v.ringDepth = s.ringDepth := by
    unfold State.ringDepth
    rw [hdepth]
  unfold State.available
  rw [feedRec_congr hfm, hn]

/-- R155, R158: a start whose slot is not available, with a usable feed. -/
theorem ruDecide_of_hold {n : Nat} (hrt : s.route d = some rt) (hh : s.holder d = some e) (hmode : s.lpu.mode = .run)
    (hsource : rt.source = .feed f) (hchange : rt.change = none) (htake : ∀ tk, rt.take = some tk → tk.state ≠ .ready)
    (husable : s.usable f = true) (hn : s.ringDepth = n) (hnot : s.available f ((slot + rt.phase) % n) = false) :
    ruDecide d slot s = (s, .hold f ((slot + rt.phase) % n)) := by
  subst hn
  have hdec := ruDecide_of_run (slot := slot) hrt hh hmode (by simp [hchange]) (ruTryTake_of_not_ready hrt htake slot)
  rw [Option.elim_none, ruServeCurrent_of_feed hrt hsource, ruApplyLag_of_idle hrt hchange,
    ruByAvailability_of_route hrt] at hdec
  dsimp only at hdec
  rwa [if_neg (ne_true_of_eq_false hnot), if_pos husable] at hdec

/-- `s` after the start of `slot` of `d` has been held again, in the entry `k`, with no other hold. -/
def State.heldAgain (s : State) (d slot : Nat) (k : HoldEntry) : State :=
  (s.setLatch d (some ⟨slot, .pending⟩)).withLpu { (s.setLatch d (some ⟨slot, .pending⟩)).lpu with holds := [k] }

theorem State.latch_heldAgain (s : State) (d slot : Nat) (k : HoldEntry) :
    (s.heldAgain d slot k).latch d = some ⟨slot, .pending⟩ :=
  (State.latch_setLatch_self (d := d) s (some ⟨slot, .pending⟩) :)

theorem ReadsOnly.heldAgain {v t : State} (h : ReadsOnly v t) (d slot : Nat) (k : HoldEntry) :
    ReadsOnly v (t.heldAgain d slot k) := h

theorem readsOnly_of_served (v : State) (h : HoldEntry) (x : Served) (y : Forward) :
    ReadsOnly v ((v.holdDecided h x).withForward y) := rfl

/-- R161: a slot start among the joined reads that must wait again keeps the entry, with the reads behind it. -/
theorem lpuAnswerJoined_of_hold {r : Request} {more : List Request} {q2 slot2 : Nat} (hholds : s.lpu.holds = [])
    (hslot : windowSlot s d r = slot2) (hoffset : windowOffset s d r < 64) (hlatch : latchDecided s d slot2 = false)
    (hdec : ruDecide d slot2 s = (s, .hold f q2)) :
    lpuAnswerJoined d (r :: more) s =
      s.heldAgain d slot2 ⟨d, f, q2, slot2, 0, (s.delivery d).holdLimit, r :: more⟩ := by
  have hread : lpuReadWindow d r s = (lpuHold d f q2 slot2 r (s.setLatch d (some ⟨slot2, .pending⟩)), true) := by
    rw [lpuReadWindow, hslot, hlatch, if_pos (by simp [hoffset]), lpuSlotStart, hslot, hdec]
    exact if_pos (by rw [hholds]; exact Nat.zero_lt_succ 7)
  rw [lpuAnswerJoined, hread]
  dsimp only
  unfold holdJoin lpuHold
  rw [show (s.setLatch d (some ⟨slot2, .pending⟩)).lpu.holds = [] from hholds]
  simp [State.heldAgain, State.withLpu]

/-- The first part of O27. -/
theorem holdEndsAtItsLimit (s : State) (d f q slot elapsed limit : Nat) (r : Request) (rs : List Request) (rt : Route)
    (e : Nat) (w : Region) (hreset : s.lpu.resetAsserted = false)
    (hholds : s.lpu.holds = [⟨d, f, q, slot, elapsed, limit, r :: rs⟩]) (hexpected : s.tb.expected = none)
    (hlimit : s.tb.subMicros + (limit - elapsed) < 1000) (hrt : s.route d = some rt) (hh : s.holder d = some e)
    (hw : s.windowDef d = some w) (hnone : s.lpu.decidedReads = [])
    (hroom : s.lpu.forwarding.length + (r :: rs).length ≤ 32) :
    let n := s.ringDepth
    let before := modSub n q 1
    let shown : Served := if s.available f before then .ring f before else .slate
    let back : Route := { rt with phase := modSub n rt.phase 1 }
    let slips := min 4294967295 ((s.delivery d).repeatSlips + 1)
    let slipped := fun (t u : State) =>
      exec (.holdLimitExpiry d) s = .next t ∧ u.lpu = { s.lpu with holds := u.lpu.holds } ∧
      Raised .slip 1 d [slot, if s.available f before then before else 65536, slips, 0] u
        (t.withLpu { t.lpu with latches := s.lpu.latches, forwarding := s.lpu.forwarding, holds := u.lpu.holds }) ∧
      t.route d = some back ∧ (t.delivery d).repeatSlips = slips ∧
      (t.delivery d).periodRepeats = min 4294967295 ((s.delivery d).periodRepeats + 1) ∧
      (t.delivery d).dropSlips = (s.delivery d).dropSlips ∧
      (t.delivery d).impairment = max (s.delivery d).impairment (s.destParams d).impairmentHold ∧
      (t.entry e).slips = min 65535 ((s.entry e).slips + 1) ∧ t.fm = s.fm ∧ t.ga = s.ga
    ((∀ y ∈ rs, (y.addr.toNat - w.base.toNat) / 2048 = slot) → ∃ t u, slipped t u ∧ t.lpu.holds = [] ∧
      t.latch d = some ⟨slot, .decided shown⟩ ∧
      ∀ sent, List.Forall₂ (s.Sends shown d) (r :: rs) sent → t.lpu.forwarding = s.lpu.forwarding ++ sent) ∧
    ∀ r2 more x, rs = r2 :: more →
      let slot2 := (r2.addr.toNat - w.base.toNat) / 2048
      let q2 := (slot2 + back.phase) % n
      slot2 ≠ slot → (r2.addr.toNat - w.base.toNat) % 2048 < 64 → s.lpu.mode = .run → rt.source = .feed f →
      rt.change = none → (∀ tk, rt.take = some tk → tk.state ≠ .ready) → s.feedRec f = some x →
      (x.health = .healthy ∨ x.health = .degraded) → s.available f q2 = false →
      ∃ t u, slipped t u ∧ t.lpu.holds = [⟨d, f, q2, slot2, 0, (s.delivery d).holdLimit, r2 :: more⟩] ∧
        t.latch d = some ⟨slot2, .pending⟩ ∧
        ∀ y, s.Sends shown d r y → t.lpu.forwarding = s.lpu.forwarding ++ [y] := by
  intro n before shown back slips slipped
  let h : HoldEntry := ⟨d, f, q, slot, elapsed, limit, r :: rs⟩
  let h' : HoldEntry := ⟨d, f, q, slot, elapsed + (limit - elapsed), limit, r :: rs⟩
  obtain ⟨u, v, hs, hexpire⟩ := lpuHoldExpire_of_limit (f := f) (q := q) (slot := slot) (elapsed := elapsed) (limit := limit)
    (reads := r :: rs) hrt hh
  have hexpire' : lpuHoldExpire d (s.heldTo h) = lpuEndHold h' shown v := hexpire
  have hexec : exec (.holdLimitExpiry d) s = .next (lpuEndHold h' shown v) :=
    (exec_holdLimitExpiry (h := h) hreset hholds hexpected hlimit).trans (congrArg _ hexpire')
  have hsent : v.serving shown d = s.serving shown d := funext fun y => hs.link.serving_eq shown d y
  have hvnone : v.lpu.decidedReads = [] := by
    rw [hs.link]
    exact hnone
  have hvforwarding : v.lpu.forwarding = s.lpu.forwarding := by
    rw [hs.link]
    rfl
  have hvholds : v.lpu.holds = [h'] := by
    rw [hs.link]
    rfl
  have hvw : v.windowDef d = some w := by
    rw [State.windowDef, hs.link]
    exact hw
  have hfree : v.lpu.holds.filter (fun k => k.dest != d) = [] := by
    rw [hvholds]
    simp [h']
  refine ⟨fun hslot => ?_, fun r2 more x hrs => ?_⟩
  · have hend : lpuEndHold h' shown v = (v.holdDecided h' shown).withSent ((r :: rs).map (v.serving shown d)) :=
      lpuEndHold_of_latched (h := h') (List.cons_ne_nil r rs)
        (fun y hy => (windowSlot_of_window hvw y).trans (hslot y hy)) hvnone (by rw [hvforwarding]; exact hroom) shown
    rw [hend] at hexec
    refine ⟨_, u, ⟨hexec, hs.slipped (readsOnly_of_sent ..)⟩, hfree, State.latch_holdDecided v h' shown, fun ys hys => ?_⟩
    change v.lpu.forwarding ++ _ = _
    rw [hvforwarding, hsent, ← State.eq_map_serving hys]
  · intro slot2 q2 hne hoffset hmode hsource hchange htake hx hhealth hnot
    subst hrs
    rw [List.length_cons] at hroom
    obtain ⟨v1, hv1⟩ : ∃ v1, v1 = (v.holdDecided h' shown).withForward (v.serving shown d r) := ⟨_, rfl⟩
    have hserve : lpuServe d r shown (v.holdDecided h' shown) = v1 :=
      (lpuServe_of_room (s := v.holdDecided h' shown) hvnone
        (by change v.lpu.forwarding.length < 32; rw [hvforwarding]; omega) d r shown).trans hv1.symm
    have hlatch : v1.latch d = some ⟨slot, .decided shown⟩ := hv1 ▸ State.latch_holdDecided v h' shown
    have hundecided : latchDecided v1 d slot2 = false := by
      rw [latchDecided, hlatch]
      exact beq_eq_false_iff_ne.2 (Ne.symm hne)
    have hroute : v1.route d = some back := hv1 ▸ hs.route
    have hfm : v1.fm = s.fm := hv1 ▸ hs.fm
    have hga : v1.ga = s.ga := hv1 ▸ hs.ga
    have hdepth : v1.lpu.depth = s.lpu.depth := by
      rw [hv1]
      change v.lpu.depth = _
      rw [hs.link]
      rfl
    have hv1mode : v1.lpu.mode = .run := by
      rw [hv1]
      change v.lpu.mode = _
      rw [hs.link]
      exact hmode
    have hv1holder : v1.holder d = some e := by
      rw [State.holder, hga]
      exact hh
    have hv1usable : v1.usable f = true := by
      rw [State.usable, feedRec_congr hfm]
      exact (usable_iff hx).2 hhealth
    have hv1w : v1.windowDef d = some w := hv1 ▸ hvw
    have hv1n : v1.ringDepth = n := by
      rw [State.ringDepth, hdepth]
      rfl
    have hdec : ruDecide d slot2 v1 = (v1, .hold f q2) :=
      ruDecide_of_hold hroute hv1holder hv1mode hsource hchange htake hv1usable hv1n
        ((available_congr hfm hdepth f q2).trans hnot)
    have hv1holds : v1.lpu.holds = [] := hv1 ▸ hfree
    have hv1limit : (v1.delivery d).holdLimit = (s.delivery d).holdLimit := hv1 ▸ hs.holdLimit
    have hend : lpuEndHold h' shown v =
        v1.heldAgain d slot2 ⟨d, f, q2, slot2, 0, (s.delivery d).holdLimit, r2 :: more⟩ := by
      rw [lpuEndHold]
      change lpuAnswerJoined d (r2 :: more) (lpuServe d r shown (v.holdDecided h' shown)) = _
      rw [hserve, ← hv1limit]
      exact lpuAnswerJoined_of_hold hv1holds (windowSlot_of_window hv1w r2)
        (by rw [windowOffset_of_window hv1w]; exact hoffset) hundecided hdec
    rw [hend] at hexec
    have hreads : ReadsOnly v v1 := hv1 ▸ readsOnly_of_served ..
    have hforwarding : v1.lpu.forwarding = v.lpu.forwarding ++ [v.serving shown d r] := hv1 ▸ rfl
    refine ⟨_, u, ⟨hexec, hs.slipped (hreads.heldAgain ..)⟩, rfl, v1.latch_heldAgain .., fun y hy => ?_⟩
    change v1.lpu.forwarding = _
    rw [hforwarding, hvforwarding, hsent, ← hy.eq_serving]

end

end Sys2Proof.Machine
end

section
/-! SUPPORT. The ends of a hold that come about in RING_WRITE (O27, third part). -/

namespace Sys2Proof.Machine

/-! ### Treatments of every destination, one of which ends the hold -/

/-- A treatment of `n` objects of which `d` leads from `P` to `Q`, and the others keep both. -/
theorem forAll_around {g : Nat → State → State} {P Q : State → Prop} {n d : Nat} (hd : d < n)
    (hbefore : ∀ i s, i ≠ d → P s → P (g i s)) (hself : ∀ s, P s → Q (g d s)) (hafter : ∀ i s, i ≠ d → Q s → Q (g i s))
    {s : State} (hs : P s) : Q (forAll n g s) := by
  have hP : ∀ k, k ≤ d → P (forAll k g s) := by
    intro k
    induction k with
    | zero => exact fun _ => hs
    | succ k ih =>
      intro hk
      rw [forAll_succ]
      exact hbefore k _ (by omega) (ih (by omega))
  have hQ : ∀ k, d < k → Q (forAll k g s) := by
    intro k
    induction k with
    | zero => exact fun hk => absurd hk (Nat.not_lt_zero d)
    | succ k ih =>
      intro hk
      rw [forAll_succ]
      obtain rfl | hlt := Nat.eq_or_lt_of_le (Nat.le_of_lt_succ hk)
      · exact hself _ (hP d le_rfl)
      · exact hafter k _ (by omega) (ih hlt)
  exact hQ n hd

section
variable {s t u v : State} {d f i : Nat} {x : Served} {h : HoldEntry} {rt : Route} {w : Region}

/-! ### What the acts of the routes leave of the link and of the slips -/

/-- `v` has the link part of `s` but for the own requests. -/
def KeepsLink (s v : State) : Prop :=
  v.lpu = { s.lpu with ownQueue := v.lpu.ownQueue, nextTag := v.lpu.nextTag }

theorem KeepsLink.of_lpu_eq (h : v.lpu = s.lpu) : KeepsLink s v := by
  unfold KeepsLink
  rw [h]

theorem KeepsLink.trans (h : KeepsLink s t) (k : KeepsLink t u) : KeepsLink s u := by
  unfold KeepsLink at *
  rw [h] at k
  exact k

theorem KeepsLink.raise (h : KeepsLink s t) (cls : EventClass) (kind subject : Nat) (words : List Nat) :
    KeepsLink s (raise cls kind subject words t) := by
  refine h.trans ?_
  have hraised : OnlyClosing t (Machine.raise cls kind subject words t) := (OnlyClosing.refl t).raise ..
  exact (congrArg State.lpu hraised :)

theorem KeepsLink.sameLink (h : KeepsLink s v) : SameLink s v := by
  unfold SameLink
  rw [h]

theorem keepsLink_routing (s : State) : Routing (fun _ => True) (fun _ => True) (KeepsLink s) where
  raise h := h.raise ..
  route _ h := h
  delivery _ h := h
  feed _ h := h
  counts _ h := h

theorem HoldEnded.keepsLink (hended : HoldEnded s h x t) (hk : KeepsLink t u) : HoldEnded s h x u := by
  refine ⟨?_, ?_, ?_⟩
  · rw [hk]
    exact hended.holds
  · rw [State.latch, hk]
    exact hended.latch
  · rw [hk]
    exact hended.forwarding

theorem HoldEnded.of_keepsLink (hk : KeepsLink s t) (hended : HoldEnded t h x u) : HoldEnded s h x u := by
  refine ⟨?_, hended.latch, ?_⟩
  · rw [hended.holds, hk]
  · rw [hended.forwarding, funext fun r => hk.sameLink.serving_eq x h.dest r, hk]

/-- The phase and the slip counts of `d` in `t` are those of `s`. -/
structure SlipsKept (d : Nat) (s t : State) : Prop where
  phase : ∀ r, s.route d = some r → ∃ r', t.route d = some r' ∧ r'.phase = r.phase
  freezeRepeats : (t.delivery d).freezeRepeats = (s.delivery d).freezeRepeats
  repeatSlips : (t.delivery d).repeatSlips = (s.delivery d).repeatSlips
  dropSlips : (t.delivery d).dropSlips = (s.delivery d).dropSlips

theorem SlipsKept.of_route {r : Route} (hrt : s.route d = some rt) (hroute : t.route d = some r) (hphase : r.phase = rt.phase)
    {c : Condition} (hdelivery : t.delivery d = { s.delivery d with condition := c }) : SlipsKept d s t := by
  refine ⟨fun y hy => ⟨r, hroute, ?_⟩, ?_, ?_, ?_⟩
  · obtain rfl := Option.some.inj (hrt.symm.trans hy)
    exact hphase
  all_goals rw [hdelivery]

theorem SlipsKept.of_same (hroute : t.route d = s.route d) (hdelivery : t.delivery d = s.delivery d) : SlipsKept d s t :=
  ⟨fun r hr => ⟨r, hroute.trans hr, rfl⟩, by rw [hdelivery], by rw [hdelivery], by rw [hdelivery]⟩

theorem SlipsKept.trans (h : SlipsKept d s t) (k : SlipsKept d t u) : SlipsKept d s u := by
  refine ⟨fun r hr => ?_, k.freezeRepeats.trans h.freezeRepeats, k.repeatSlips.trans h.repeatSlips,
    k.dropSlips.trans h.dropSlips⟩
  obtain ⟨r1, hr1, hp1⟩ := h.phase r hr
  obtain ⟨r2, hr2, hp2⟩ := k.phase r1 hr1
  exact ⟨r2, hr2, hp2.trans hp1⟩

theorem TakeOnly.slipsKept (h : TakeOnly d s t) : SlipsKept d s t := by
  refine ⟨fun r hr => ?_, by rw [h.1], by rw [h.1], by rw [h.1]⟩
  obtain ⟨k, y, hroute⟩ := h.2 r hr
  exact ⟨_, hroute, rfl⟩

theorem slipsKept_setRoute {r : Route} (hrt : s.route d = some rt) (hphase : r.phase = rt.phase) :
    SlipsKept d s (s.setRoute d (some r)) :=
  .of_route hrt (State.route_setRoute_self ..) hphase (c := (s.delivery d).condition) rfl

/-- What follows a change of the route of `d` that keeps its phase. -/
theorem SlipsKept.after_setRoute {r : Route} (hrt : s.route d = some rt) (h : SlipsKept d (s.setRoute d (some r)) t)
    (hphase : r.phase = rt.phase) : SlipsKept d s t := (slipsKept_setRoute hrt hphase).trans h

theorem slipsKept_modRoute {g : Route → Route} (hg : ∀ r, (g r).phase = r.phase) : SlipsKept d s (modRoute d g s) := by
  cases hrt : s.route d with
  | none =>
    rw [modRoute_of_no_route hrt]
    exact .of_same rfl rfl
  | some r =>
    rw [modRoute_of_route hrt]
    exact slipsKept_setRoute hrt (hg r)

theorem ruFreezeTest_slipsKept (d : Nat) (s : State) : SlipsKept d s (ruFreezeTest d s) := by
  cases hrt : s.route d with
  | none =>
    rw [ruFreezeTest, hrt]
    exact .of_same rfl rfl
  | some r =>
    obtain hsame | ⟨-, f, c, hroute, hdelivery⟩ := ruFreezeTest_cases hrt
    · rw [hsame]
      exact .of_same rfl rfl
    · exact .of_route hrt hroute rfl hdelivery

theorem ruFreezeStart_slipsKept (d : Nat) (s : State) : SlipsKept d s (ruFreezeStart d s) := by
  unfold ruFreezeStart
  cases hrt : s.route d with
  | none => exact .of_same rfl rfl
  | some r =>
    dsimp only
    split
    · exact .after_setRoute hrt (ruFreezeTest_slipsKept ..) rfl
    · exact .of_same rfl rfl

theorem ruFailoverTake_slipsKept (d e g : Nat) (s : State) : SlipsKept d s (ruFailoverTake d e g s) :=
  (ruRequestTake_takeOnly d g .failover s).slipsKept.trans (.of_same rfl rfl)

theorem ruFailover_slipsKept (d f : Nat) (s : State) : SlipsKept d s (ruFailover d f s) := by
  unfold ruFailover
  split
  next e x r _ hrt =>
    split
    · split
      · exact .of_same rfl rfl
      · split
        · exact .of_same rfl rfl
        · split
          · exact .after_setRoute hrt (ruFailoverTake_slipsKept ..) rfl
          · exact .after_setRoute hrt (.of_same (raise_route ..) (raise_delivery ..)) rfl
    · exact .of_same rfl rfl
  · exact .of_same rfl rfl

theorem ruRevertCheck_slipsKept (d : Nat) (s : State) : SlipsKept d s (ruRevertCheck d s) :=
  slipsKept_modRoute fun r => by split <;> rfl

/-- The steps of R149 after a held read has been answered: a feed has become unusable. -/
theorem ruHealthSteps_slipsKept (d f : Nat) (c : Bool) (s : State) : SlipsKept d s (ruRevertCheck d
    (ruHealthTests d f true false c (if c then ruHealthCurrent d f true false s else s))) := by
  have hcurrent : SlipsKept d s (if c then ruHealthCurrent d f true false s else s) := by
    split
    · exact (ruFreezeStart_slipsKept d s).trans (ruFailover_slipsKept d f _)
    · exact .of_same rfl rfl
  obtain ⟨z, hz⟩ : ∃ z, z = if c then ruHealthCurrent d f true false s else s := ⟨_, rfl⟩
  rw [← hz] at hcurrent ⊢
  have htests : SlipsKept d z (ruHealthTests d f true false c z) := by
    unfold ruHealthTests
    dsimp only
    split
    · exact (ruRestore_takeOnly d z).slipsKept
    · exact .of_same rfl rfl
  exact (hcurrent.trans htests).trans (ruRevertCheck_slipsKept ..)

theorem ruHealthSteps_keepsLink (d f : Nat) (c : Bool) (s : State) : KeepsLink s (ruRevertCheck d
    (ruHealthTests d f true false c (if c then ruHealthCurrent d f true false s else s))) := by
  have hrefl : KeepsLink s s := .of_lpu_eq rfl
  have hcurrent : KeepsLink s (if c then ruHealthCurrent d f true false s else s) := by
    split
    · exact (keepsLink_routing s).ruHealthCurrent trivial hrefl f true false
    · exact hrefl
  exact (keepsLink_routing s).ruRevertCheck trivial
    ((keepsLink_routing s).ruHealthTests trivial hcurrent f true false c)

/-! ### The destination whose hold ends as a freeze repeat -/

/-- `t` comes after the freeze repeat that ended the hold `h` of `d`, in `s` with route `rt`. -/
structure HoldFrozen (s : State) (d f : Nat) (h : HoldEntry) (rt : Route) (t : State) : Prop where
  ended : HoldEnded s h (previousSlot s f h.ringSlot) t
  phase : ∃ r, t.route d = some r ∧ r.phase = modSub s.ringDepth rt.phase 1
  freezeRepeats : (t.delivery d).freezeRepeats = min 4294967295 ((s.delivery d).freezeRepeats + 1)
  repeatSlips : (t.delivery d).repeatSlips = (s.delivery d).repeatSlips
  dropSlips : (t.delivery d).dropSlips = (s.delivery d).dropSlips

theorem HoldFrozen.kept (hfrozen : HoldFrozen s d f h rt t) (hlink : KeepsLink t u) (hslips : SlipsKept d t u) :
    HoldFrozen s d f h rt u := by
  refine ⟨hfrozen.ended.keepsLink hlink, ?_, hslips.freezeRepeats.trans hfrozen.freezeRepeats,
    hslips.repeatSlips.trans hfrozen.repeatSlips, hslips.dropSlips.trans hfrozen.dropSlips⟩
  obtain ⟨r, hr, hphase⟩ := hfrozen.phase
  obtain ⟨r', hr', hphase'⟩ := hslips.phase r hr
  exact ⟨r', hr', hphase'.trans hphase⟩

/-- R160, R149: a report that its feed has become unusable ends the hold of `d`. -/
theorem ruHealthReport_of_held (hhold : s.hold d = some h) (hw : s.windowDef d = some w) (hnone : s.lpu.decidedReads = [])
    (hroom : s.lpu.forwarding.length + h.reads.length ≤ 32) (hreads : h.reads ≠ [])
    (hslot : ∀ y ∈ h.reads.tail, (y.addr.toNat - w.base.toNat) / 2048 = h.slot) (hrt : s.route d = some rt)
    (hfeed : h.feed = f) : HoldFrozen s d f h rt (ruHealthReport f true false d s) := by
  obtain rfl := State.dest_of_hold hhold
  obtain ⟨v, hv⟩ : ∃ v, v = s.setRoute h.dest (some (s.reportedRoute h.dest f true false rt)) := ⟨_, rfl⟩
  have hvroute : v.route h.dest = some (s.reportedRoute h.dest f true false rt) := hv ▸ State.route_setRoute_self ..
  have hvhold : v.hold h.dest = some h := hv ▸ hhold
  have hvw : v.windowDef h.dest = some w := hv ▸ hw
  have hvnone : v.lpu.decidedReads = [] := hv ▸ hnone
  have hvroom : v.lpu.forwarding.length + h.reads.length ≤ 32 := hv ▸ hroom
  obtain ⟨z, hz⟩ : ∃ z, z = lpuHoldFreeze h.dest f v := ⟨_, rfl⟩
  have hfrozen : HoldFrozen s h.dest f h rt z := by
    have heq := hz.trans (lpuHoldFreeze_of_hold hvhold hvw hvnone hvroom hreads hslot hvroute hfeed)
    obtain ⟨y, hy⟩ : ∃ y, y = v.frozenHold h.dest (s.reportedRoute h.dest f true false rt) := ⟨_, rfl⟩
    have hlpu : y.lpu = s.lpu := by
      rw [hy, hv]
      rfl
    have hroute : y.route h.dest = some { s.reportedRoute h.dest f true false rt with
        phase := modSub s.ringDepth rt.phase 1 } := by
      rw [hy, hv]
      exact State.route_setRoute_self ..
    have hdelivery : y.delivery h.dest =
        { s.delivery h.dest with freezeRepeats := min 4294967295 ((s.delivery h.dest).freezeRepeats + 1) } := by
      rw [hy, hv]
      exact State.delivery_setDelivery_self ..
    have hended : HoldEnded s h (previousSlot s f h.ringSlot) z := by
      rw [heq, ← hy, hv]
      exact holdEnded_of_sent hlpu h (previousSlot s f h.ringSlot)
    have hzroute : z.route h.dest = y.route h.dest := by
      rw [heq, ← hy]
      rfl
    have hzdelivery : z.delivery h.dest = y.delivery h.dest := by
      rw [heq, ← hy]
      rfl
    rw [hroute] at hzroute
    rw [hdelivery] at hzdelivery
    exact ⟨hended, ⟨_, hzroute, rfl⟩, by rw [hzdelivery], by rw [hzdelivery], by rw [hzdelivery]⟩
  have hreport : ruHealthReport f true false h.dest s = ruRevertCheck h.dest (ruHealthTests h.dest f true false
      ((z.route h.dest).any fun r => r.source == .feed f)
      (if (z.route h.dest).any fun r => r.source == .feed f then ruHealthCurrent h.dest f true false z else z)) := by
    rw [ruHealthReport, hrt, ruHealthTake_of_route hrt, ← hv, hz]
    rfl
  rw [hreport]
  exact hfrozen.kept (ruHealthSteps_keepsLink ..) (ruHealthSteps_slipsKept ..)

end

end Sys2Proof.Machine
end

section
/-! SUPPORT. O27: the ends of a hold in RING_WRITE, and the statement. -/

namespace Sys2Proof.Machine

section
variable {s t u v : State} {d f i w o : Nat} {r : Request} {x : FeedRecord} {h : HoldEntry} {rt : Route} {win : Region}

theorem lpuAccepts_decidedReads (h : lpuAccepts s = true) : s.lpu.decidedReads = [] := by
  simp only [lpuAccepts, Bool.and_eq_true, List.isEmpty_iff] at h
  obtain ⟨⟨⟨-, -⟩, hnone⟩, -⟩ := h
  exact hnone

theorem regionSize_eq (s : State) : regionSize s = s.ringDepth * 2048 := rfl

/-- R4: a request of class ring lies in one of the slots of the ring. -/
theorem WriterAt.slot_lt (h : WriterAt s f w o r) : w < s.ringDepth := by
  obtain ⟨-, y, ⟨-, hdef, hclass, hw, -⟩, -⟩ := h
  unfold classify at hclass
  split at hclass
  · cases hclass
  · split at hclass
    · cases hclass
    · split at hclass
      next g hfind =>
        obtain ⟨rfl, -⟩ := Class.ring.inj hclass
        have hin := List.find?_some hfind
        rw [hdef, Option.any_some, Region.contains, regionSize_eq, Bool.and_eq_true, decide_eq_true_eq,
          decide_eq_true_eq] at hin
        omega
      · split at hclass
        · cases hclass
        · cases hclass

theorem hold_of_only (hholds : s.lpu.holds = [h]) (hd : h.dest = d) : s.hold d = some h := by
  rw [State.hold, hholds]
  exact List.find?_cons_of_pos (decide_eq_true hd)

theorem no_hold_of_only (hholds : s.lpu.holds = [h]) (hi : h.dest ≠ i) : s.hold i = none := by
  rw [State.hold, hholds, List.find?_cons_of_neg (by simpa using hi)]
  rfl

theorem HoldEnded.holds_nil {y : Served} (hended : HoldEnded s h y t) (hholds : s.lpu.holds = [h]) : t.lpu.holds = [] := by
  rw [hended.holds, hholds]
  simp

/-! ### The report of a feed that fails -/

/-- A property that the acts of a route keep is kept by a report to a destination without a hold. -/
theorem Routing.ruHealthReport_of_no_hold {D F : Nat → Prop} {P : State → Prop} (hP : Routing D F P) (hi : D i)
    (hhold : s.hold i = none) (hs : P s) (f : Nat) (was is : Bool) : P (ruHealthReport f was is i s) := by
  cases hrt : s.route i with
  | none =>
    rw [ruHealthReport_of_no_route hrt]
    exact hs
  | some rt =>
    rw [ruHealthReport_of_route hrt hhold]
    refine hP.ruRevertCheck hi (hP.ruHealthTests hi ?_ ..)
    split
    · exact hP.ruHealthCurrent hi (hP.route hi hs) ..
    · exact hP.route hi hs

/-- `t` has the link part, the feed records, and the route and delivery of `d` that `s` has. -/
structure UntouchedAt (d : Nat) (s t : State) : Prop where
  link : KeepsLink s t
  own : SameOwn d s t
  env : SameEnv d s t

theorem untouchedAt_routing (d : Nat) (s : State) : Routing (fun i => i ≠ d) (fun _ => False) (UntouchedAt d s) where
  raise h := ⟨h.link.raise .., (sameOwn_routing d s).raise h.own, (sameEnv_routing d s).raise h.env⟩
  route hi h := ⟨h.link, (sameOwn_routing d s).route hi h.own, (sameEnv_routing d s).route trivial h.env⟩
  delivery hi h := ⟨h.link, (sameOwn_routing d s).delivery hi h.own, (sameEnv_routing d s).delivery trivial h.env⟩
  feed hf _ := hf.elim
  counts hc h := ⟨h.link, (sameOwn_routing d s).counts hc h.own, (sameEnv_routing d s).counts hc h.env⟩

theorem UntouchedAt.refl (d : Nat) (s : State) : UntouchedAt d s s := ⟨.of_lpu_eq rfl, .refl d s, .refl d s⟩

theorem previousSlot_congr (havail : ∀ q, t.available f q = s.available f q) (hdepth : t.ringDepth = s.ringDepth) (q : Nat) :
    previousSlot t f q = previousSlot s f q := by
  unfold previousSlot
  dsimp only
  rw [hdepth, havail]

theorem available_of_record {y : FeedRecord} (hx : s.feedRec f = some x) (hy : t.feedRec f = some y)
    (hcomplete : y.complete = x.complete) (hlast : y.lastSlot = x.lastSlot) (hdepth : t.ringDepth = s.ringDepth) (q : Nat) :
    t.available f q = s.available f q := by
  rw [Bool.eq_iff_iff, available_iff hx, available_iff hy, hcomplete, hlast, hdepth]

/-- A HoldFrozen of a state in which nothing of `d` has changed. -/
theorem HoldFrozen.of_untouched (hs : UntouchedAt d s t) (hfrozen : HoldFrozen t d f h rt u) : HoldFrozen s d f h rt u := by
  have hprevious : previousSlot t f h.ringSlot = previousSlot s f h.ringSlot :=
    previousSlot_congr (fun q => available_congr hs.env.fm hs.env.depth f q) hs.env.ringDepth _
  refine ⟨?_, ?_, ?_, ?_, ?_⟩
  · rw [← hprevious]
    exact hfrozen.ended.of_keepsLink hs.link
  · rw [← hs.env.ringDepth]
    exact hfrozen.phase
  · rw [hfrozen.freezeRepeats, hs.own.delivery]
  · rw [hfrozen.repeatSlips, hs.own.delivery]
  · rw [hfrozen.dropSlips, hs.own.delivery]

/-- R86: the DM recomputes conditions alone. -/
theorem HoldFrozen.dmReclassFeed (hfrozen : HoldFrozen s d f h rt t) : HoldFrozen s d f h rt (dmReclassFeed f t) := by
  have hreclass : ∀ i z, HoldFrozen s d f h rt z → HoldFrozen s d f h rt (dmReclass i z) := by
    intro i z hz
    have hslips : SlipsKept d z (dmReclass i z) := by
      by_cases hi : d = i
      · subst hi
        obtain ⟨y, hy, -⟩ := hz.phase
        exact .of_route hy hy rfl (State.delivery_setDelivery_self ..)
      · exact .of_same rfl (State.delivery_setDelivery_of_ne _ _ hi)
    exact hz.kept (.of_lpu_eq rfl) hslips
  unfold Machine.dmReclassFeed
  refine forAll_preserves (P := HoldFrozen s d f h rt) (fun i z hz => ?_) 48 hfrozen
  split
  · exact hreclass i z hz
  · exact hz

section
variable (hd : d < 48) (hholds : s.lpu.holds = [h]) (hdest : h.dest = d) (hw : s.windowDef d = some win)
  (hnone : s.lpu.decidedReads = []) (hroom : s.lpu.forwarding.length + h.reads.length ≤ 32) (hreads : h.reads ≠ [])
  (hslot : ∀ y ∈ h.reads.tail, (y.addr.toNat - win.base.toNat) / 2048 = h.slot) (hrt : s.route d = some rt)
  (hfeed : h.feed = f)
include hd hholds hdest hw hnone hroom hreads hslot hrt hfeed

/-- R86, R160: a feed fails on which the only hold waits. -/
theorem healthReport_of_held : HoldFrozen s d f h rt (healthReport f .degraded .failed s) := by
  have hbefore : ∀ i t, i ≠ d → UntouchedAt d s t → UntouchedAt d s (ruHealthReport f true false i t) := by
    intro i t hi ht
    have htholds : t.lpu.holds = [h] := by
      rw [ht.link]
      exact hholds
    exact (untouchedAt_routing d s).ruHealthReport_of_no_hold hi (no_hold_of_only htholds (hdest ▸ hi.symm)) ht f true false
  have hself : ∀ t, UntouchedAt d s t → HoldFrozen s d f h rt (ruHealthReport f true false d t) := by
    intro t ht
    have htholds : t.lpu.holds = [h] := by
      rw [ht.link]
      exact hholds
    have htw : t.windowDef d = some win := by
      rw [State.windowDef, ht.link]
      exact hw
    have htnone : t.lpu.decidedReads = [] := by
      rw [ht.link]
      exact hnone
    have htroom : t.lpu.forwarding.length + h.reads.length ≤ 32 := by
      rw [ht.link]
      exact hroom
    exact .of_untouched ht (ruHealthReport_of_held (hold_of_only htholds hdest) htw htnone htroom hreads hslot
      (ht.own.route.trans hrt) hfeed)
  have hafter : ∀ i t, i ≠ d → HoldFrozen s d f h rt t → HoldFrozen s d f h rt (ruHealthReport f true false i t) := by
    intro i t hi ht
    have hfree : t.hold i = none := State.hold_of_holds_nil (ht.ended.holds_nil hholds) i
    have hkept := (untouchedAt_routing d t).ruHealthReport_of_no_hold hi hfree (.refl d t) f true false
    exact ht.kept hkept.link (.of_same hkept.own.route hkept.own.delivery)
  have hreports : HoldFrozen s d f h rt (forAll 48 (ruHealthReport f true false) s) :=
    forAll_around hd hbefore hself hafter (.refl d s)
  have hreport : healthReport f .degraded .failed s =
      dmReclassFeed f (forAll 48 (ruHealthReport f true false) s) := rfl
  rw [hreport]
  exact hreports.dmReclassFeed

end

/-! ### The report of a completion -/

/-- Of `t`, all that a completion report may see at `d` is that of `s`. -/
structure TakesOnly (d : Nat) (s t : State) : Prop where
  lpu : t.lpu = s.lpu
  fm : t.fm = s.fm
  dm : t.dm = s.dm
  bt : t.bt = s.bt
  rw : t.rw = s.rw
  phase : (t.route d).map Route.phase = (s.route d).map Route.phase

theorem TakesOnly.refl (d : Nat) (s : State) : TakesOnly d s s := ⟨rfl, rfl, rfl, rfl, rfl, rfl⟩

theorem TakesOnly.trans (h : TakesOnly d s t) (k : TakesOnly d t u) : TakesOnly d s u :=
  ⟨k.lpu.trans h.lpu, k.fm.trans h.fm, k.dm.trans h.dm, k.bt.trans h.bt, k.rw.trans h.rw, k.phase.trans h.phase⟩

/-- R132, R134: a slot completion report changes takes alone. -/
theorem ruCompletion_takesOnly (d i f : Nat) (s : State) : TakesOnly d s (ruCompletion i f s) := by
  refine ⟨modRoute_lpu .., modRoute_fm .., modRoute_dm .., modRoute_bt .., modRoute_rw .., ?_⟩
  cases hrt : s.route i with
  | none => rw [ruCompletion, modRoute_of_no_route hrt]
  | some rt =>
    rw [ruCompletion, modRoute_of_route hrt]
    by_cases hi : d = i
    · subst hi
      rw [State.route_setRoute_self, hrt]
      rfl
    · rw [State.route_setRoute_of_ne _ _ hi]

theorem ruSlotCompletion_of_no_hold (h : s.hold d = none) (f : Nat) : ruSlotCompletion f d s = ruCompletion d f s := by
  rw [ruSlotCompletion, lpuHoldCompletion_of_no_hold]
  rw [State.hold, (ruCompletion_takesOnly d d f s).lpu]
  exact h

/-- `t` comes after the completion that ended the hold `h` of `d`, in `s`. -/
structure HoldServed (s : State) (d f : Nat) (h : HoldEntry) (t : State) : Prop where
  ended : HoldEnded s h (.ring f h.ringSlot) t
  phase : (t.route d).map Route.phase = (s.route d).map Route.phase
  dm : t.dm = s.dm
  bt : t.bt = s.bt
  rw : t.rw = s.rw

section
variable (hd : d < 48) (hholds : s.lpu.holds = [h]) (hdest : h.dest = d) (hw : s.windowDef d = some win)
  (hnone : s.lpu.decidedReads = []) (hroom : s.lpu.forwarding.length + h.reads.length ≤ 32) (hreads : h.reads ≠ [])
  (hslot : ∀ y ∈ h.reads.tail, (y.addr.toNat - win.base.toNat) / 2048 = h.slot) (hfeed : h.feed = f)
  (havail : s.available f h.ringSlot = true)
include hd hholds hdest hw hnone hroom hreads hslot hfeed havail

/-- R69, R159: a completion makes the slot available on which the only hold waits. -/
theorem slotCompletions_of_held : HoldServed s d f h (forAll 48 (ruSlotCompletion f) s) := by
  have hbefore : ∀ i t, i ≠ d → TakesOnly d s t → TakesOnly d s (ruSlotCompletion f i t) := by
    intro i t hi ht
    have hfree : t.hold i = none := no_hold_of_only (by rw [ht.lpu, hholds]) (hdest ▸ hi.symm)
    rw [ruSlotCompletion_of_no_hold hfree]
    exact ht.trans (ruCompletion_takesOnly ..)
  have hself : ∀ t, TakesOnly d s t → HoldServed s d f h (ruSlotCompletion f d t) := by
    intro t ht
    obtain ⟨v, hv⟩ : ∃ v, v = ruCompletion d f t := ⟨_, rfl⟩
    have hmoved : TakesOnly d s v := hv ▸ ht.trans (ruCompletion_takesOnly ..)
    have hvhold : v.hold d = some h := hold_of_only (by rw [hmoved.lpu, hholds]) hdest
    have hvw : v.windowDef d = some win := by
      rw [State.windowDef, hmoved.lpu]
      exact hw
    have hvavail : v.available f h.ringSlot = true :=
      (available_congr hmoved.fm (by rw [hmoved.lpu]) f h.ringSlot).trans havail
    have hlink : KeepsLink s v := .of_lpu_eq hmoved.lpu
    have hended : HoldEnded v h (.ring f h.ringSlot) (lpuHoldCompletion d f v) ∧
        (lpuHoldCompletion d f v).ru = v.ru ∧ (lpuHoldCompletion d f v).dm = v.dm ∧
        (lpuHoldCompletion d f v).bt = v.bt ∧ (lpuHoldCompletion d f v).rw = v.rw := by
      rw [lpuHoldCompletion_of_hold hvhold hvw (by rw [hmoved.lpu, hnone]) (by rw [hmoved.lpu]; exact hroom) hreads hslot
        hfeed hvavail]
      exact ⟨holdEnded_of_sent rfl .., rfl, rfl, rfl, rfl⟩
    obtain ⟨hend, hru, hdm, hbt, hrw⟩ := hended
    rw [ruSlotCompletion, ← hv]
    refine ⟨hend.of_keepsLink hlink, ?_, hdm.trans hmoved.dm, hbt.trans hmoved.bt, hrw.trans hmoved.rw⟩
    rw [← hmoved.phase, State.route, hru]
    rfl
  have hafter : ∀ i t, i ≠ d → HoldServed s d f h t → HoldServed s d f h (ruSlotCompletion f i t) := by
    intro i t hi ht
    have hmoved := ruCompletion_takesOnly d i f t
    rw [ruSlotCompletion_of_no_hold (State.hold_of_holds_nil (ht.ended.holds_nil hholds) i)]
    exact ⟨ht.ended.keepsLink (.of_lpu_eq hmoved.lpu), hmoved.phase.trans ht.phase, hmoved.dm.trans ht.dm,
      hmoved.bt.trans ht.bt, hmoved.rw.trans ht.rw⟩
  exact forAll_around hd hbefore hself hafter (.refl d s)

end

end

end Sys2Proof.Machine
end

section
/-! SUPPORT. O27: the hold that ends in RING_WRITE, and the statement. -/

namespace Sys2Proof.Machine

section
variable {s : State} {d f w o : Nat} {r : Request} {x : FeedRecord} {h : HoldEntry} {rt : Route} {win : Region}

/-- R65: a write that ends a slot of the ring of `f` is a completion report. -/
theorem WriterAt.exec_report (h : WriterAt s f w o r) (ho : o ≠ 0) (hlen : o + r.len = 2048) :
    exec (.ringWrite r) s = .next (fmCompletion f w (s.passed r)) := by
  rw [exec_ringWrite, h.lpuReceive_eq, if_neg ho, if_pos hlen]

theorem completed_lastSlot (n w : Nat) (head : UnitHead) (x : FeedRecord) : (x.completed n w head).lastSlot = w := by
  unfold FeedRecord.completed FeedRecord.countClean
  split <;> rfl

theorem completed_complete (n w : Nat) (head : UnitHead) (x : FeedRecord) :
    (x.completed n w head).complete = x.completeAfter n w := by
  unfold FeedRecord.completed FeedRecord.countClean
  split <;> rfl

theorem one_le_completed {n : Nat} (hn : 0 < n) (w : Nat) (head : UnitHead) (x : FeedRecord) :
    1 ≤ (x.completed n w head).complete := by
  rw [completed_complete]
  unfold FeedRecord.completeAfter
  split
  · exact le_rfl
  · split
    · omega
    · exact le_rfl

theorem HoldFrozen.setFeedRec {t : State} (hfrozen : HoldFrozen s d f h rt t) (g : Nat) (y : Option FeedRecord) :
    HoldFrozen s d f h rt (t.setFeedRec g y) := hfrozen.kept (.of_lpu_eq rfl) (.of_same rfl rfl)

section
variable (hd : d < 48) (hwriter : WriterAt s f w o r) (ho : o ≠ 0) (hlen : o + r.len = 2048) (hx : s.feedRec f = some x)
  (hholds : s.lpu.holds = [h]) (hdest : h.dest = d) (hfeed : h.feed = f) (hrt : s.route d = some rt)
  (hw : s.windowDef d = some win) (hroom : s.lpu.forwarding.length + 1 + h.reads.length ≤ 32) (hreads : h.reads ≠ [])
  (hslot : ∀ y ∈ h.reads.tail, (y.addr.toNat - win.base.toNat) / 2048 = h.slot)
include hd hwriter ho hlen hx hholds hdest hfeed hw hroom hreads hslot

/-- R159: the clean completion of a HEALTHY feed in the slot on which the only hold waits. -/
theorem exec_completion_of_held {head : UnitHead} (hring : h.ringSlot = w) (hopen : x.openUnit = some ⟨w, some head⟩)
    (hresult : head.result = .inOrder) (htest : head.testSignal = x.testSignal) (hh : x.health = .healthy)
    (hscore : x.score - 1 < (s.feedParams f).degradeThreshold) :
    ∃ t v, exec (.ringWrite r) s = .next t ∧ HoldServed v d f h t ∧ KeepsLink (s.passed r) v ∧ v.route d = s.route d ∧
      v.dm = s.dm ∧ v.bt = s.bt ∧ v.rw = s.rw := by
  obtain ⟨y, hy⟩ : ∃ y, y = ({ x with silence := 0 } : FeedRecord).completed s.ringDepth w head := ⟨_, rfl⟩
  obtain ⟨v, hv⟩ : ∃ v, v = (s.passed r).setFeedRec f (some y) := ⟨_, rfl⟩
  have hunit : fmUnitCompletion f w head x (s.passed r) = forAll 48 (ruSlotCompletion f) v := by
    rw [fmUnitCompletion_of_clean (s := s.passed r) hh hresult htest hscore, hv, hy]
    rfl
  have hrecord : v.feedRec f = some y := hv ▸ State.feedRec_setFeedRec_self ..
  have hlast : y.lastSlot = w := hy ▸ completed_lastSlot ..
  have hdepth : v.ringDepth = s.ringDepth := hv ▸ rfl
  have hlt : w < s.ringDepth := hwriter.slot_lt
  have havail : v.available f h.ringSlot = true := by
    rw [hring, ← hlast]
    refine State.available_lastSlot hrecord (by omega) ?_
    rw [hy]
    exact one_le_completed (by omega) ..
  have hvroom : v.lpu.forwarding.length + h.reads.length ≤ 32 := by
    have hlength : v.lpu.forwarding.length = s.lpu.forwarding.length + 1 := by
      rw [hv]
      exact List.length_append
    omega
  have hvholds : v.lpu.holds = [h] := hv ▸ hholds
  have hvw : v.windowDef d = some win := hv ▸ hw
  have hsnone : s.lpu.decidedReads = [] := lpuAccepts_decidedReads (hwriter.2.elim fun _ hat => hat.1.1)
  have hnone : v.lpu.decidedReads = [] := hv ▸ hsnone
  refine ⟨_, v, hwriter.exec_completion ho hlen hx hopen, ?_, ?_⟩
  · rw [hunit]
    exact slotCompletions_of_held hd hvholds hdest hvw hnone hvroom hreads hslot hfeed havail
  · rw [hv]
    exact ⟨.of_lpu_eq rfl, rfl, rfl, rfl, rfl⟩

include hrt

/-- R71, R160: a completion without a header fails the DEGRADED feed on which the only hold waits. -/
theorem exec_failure_of_held (hopen : ∀ head, x.openUnit ≠ some ⟨w, some head⟩) (hh : x.health = .degraded)
    (hfail : (s.feedParams f).failThreshold ≤ min 1023 (x.score + 8)) :
    ∃ t v, exec (.ringWrite r) s = .next t ∧ HoldFrozen v d f h rt t ∧ KeepsLink (s.passed r) v ∧
      v.delivery d = s.delivery d ∧ v.ringDepth = s.ringDepth ∧ ∀ q, v.available f q = s.available f q := by
  obtain ⟨z, hz⟩ : ∃ z, z = (s.passed r).setFeedRec f (some { x with silence := 0 }) := ⟨_, rfl⟩
  have hzrecord : z.feedRec f = some { x with silence := 0 } := hz ▸ State.feedRec_setFeedRec_self ..
  have hzfail : (z.feedParams f).failThreshold ≤ min 1023 (({ x with silence := 0 } : FeedRecord).score + 8) := hz ▸ hfail
  have hzlpu : z.lpu = (s.passed r).lpu := hz ▸ rfl
  have hzroute : z.route d = some rt := hz ▸ hrt
  have hzdelivery : z.delivery d = s.delivery d := hz ▸ rfl
  have hzdepth : z.ringDepth = s.ringDepth := hz ▸ rfl
  obtain ⟨failed, hfailed⟩ : ∃ y : FeedRecord, y = { x with
      silence := 0, score := min 1023 (x.score + 8), health := .failed, attempts := min 15 (x.attempts + 1),
      stateTimer := 0 } := ⟨_, rfl⟩
  have hcomplete : failed.complete = x.complete := hfailed ▸ rfl
  have hlast : failed.lastSlot = x.lastSlot := hfailed ▸ rfl
  obtain ⟨v, hv⟩ : ∃ v, v = raise .feed 1 f [4, 5, min 1023 (x.score + 8), min 15 (x.attempts + 1)]
      (z.setFeedRec f (some failed)) := ⟨_, rfl⟩
  have hscored := fmScored_of_failing hzrecord hh hzfail
  dsimp only at hscored
  rw [← hfailed, ← hv] at hscored
  have hvrecord : v.feedRec f = some failed := by
    rw [hv, raise_feedRec]
    exact State.feedRec_setFeedRec_self ..
  have hvdepth : v.ringDepth = s.ringDepth := by
    rw [hv, raise_ringDepth]
    exact hzdepth
  have hrecorded : KeepsLink (s.passed r) (z.setFeedRec f (some failed)) := .of_lpu_eq hzlpu
  have hlink : KeepsLink (s.passed r) v := by
    rw [hv]
    exact hrecorded.raise .feed 1 f _
  have hvroute : v.route d = some rt := by
    rw [hv, raise_route]
    exact hzroute
  have hvdelivery : v.delivery d = s.delivery d := by
    rw [hv, raise_delivery]
    exact hzdelivery
  have hvholds : v.lpu.holds = [h] := by
    rw [hlink]
    exact hholds
  have hvw : v.windowDef d = some win := by
    rw [State.windowDef, hlink]
    exact hw
  have hsnone : s.lpu.decidedReads = [] := lpuAccepts_decidedReads (hwriter.2.elim fun _ hat => hat.1.1)
  have hvnone : v.lpu.decidedReads = [] := by
    rw [hlink]
    exact hsnone
  have hvroom : v.lpu.forwarding.length + h.reads.length ≤ 32 := by
    have hlength : v.lpu.forwarding.length = s.lpu.forwarding.length + 1 := by
      rw [hlink]
      exact List.length_append
    omega
  obtain ⟨t, ht⟩ : ∃ t, t = healthReport f .degraded .failed v := ⟨_, rfl⟩
  have hfrozen : HoldFrozen v d f h rt t := ht ▸ healthReport_of_held hd hvholds hdest hvw hvnone hvroom hreads hslot hvroute hfeed
  obtain ⟨y, -, hreport⟩ := fmHeaderlessCompletion_of_present (s := s.passed r) (w := w) hx (by simp [hh]) (by simp [hh])
  rw [← hz, hscored, ← ht] at hreport
  have hexec := hwriter.exec_report ho hlen
  rw [fmCompletion_of_headerless (s := s.passed r) hx hopen, hreport] at hexec
  exact ⟨_, v, hexec, hfrozen.setFeedRec .., hlink, hvdelivery, hvdepth,
    available_of_record hx hvrecord hcomplete hlast hvdepth⟩

end

end

/-- Settles O27: what a hold sends is decided once; each of its three ends leads there. -/
theorem holdLimitMakesARepeatSlip : Obligations.HoldLimitMakesARepeatSlip := by
  refine ⟨holdEndsAtItsLimit, holdEndsByReport, ?_⟩
  intro s d f w o r x h rt win hd hwriter ho hlen hx hholds hdest hfeed hrt hw hroom hreads hslot before shown ended
  have hended : ∀ t v y, HoldEnded v h y t → KeepsLink (s.passed r) v → ended t y := by
    intro t v y ht hlink
    have hhere : HoldEnded (s.passed r) h y t := ht.of_keepsLink hlink
    subst hdest
    exact ⟨hhere.holds_nil (s := s.passed r) hholds, hhere.latch, fun ys hys => hhere.sends (s := s.passed r) hys⟩
  refine ⟨fun head hring hopen hresult htest hh hscore => ?_, fun hopen hh hfail => ?_⟩
  · obtain ⟨t, v, hexec, hserved, hlink, hroute, hdm, hbt, hrw⟩ := exec_completion_of_held hd hwriter ho hlen hx hholds hdest
      hfeed hw hroom hreads hslot hring hopen hresult htest hh hscore
    refine ⟨t, hexec, ?_, ?_, hserved.dm.trans hdm, hserved.bt.trans hbt, hserved.rw.trans hrw⟩
    · have hend := hended t v _ hserved.ended hlink
      rwa [hring] at hend
    · rw [hserved.phase, hroute, hrt]
      rfl
  · obtain ⟨t, v, hexec, hfrozen, hlink, hdelivery, hdepth, havail⟩ := exec_failure_of_held hd hwriter ho hlen hx hholds
      hdest hfeed hrt hw hroom hreads hslot hopen hh hfail
    have hshown : previousSlot v f h.ringSlot = shown := previousSlot_congr havail hdepth h.ringSlot
    obtain ⟨y, hy, hphase⟩ := hfrozen.phase
    refine ⟨t, hexec, hshown ▸ hended t v _ hfrozen.ended hlink, ?_, ?_, ?_, ?_⟩
    · rw [hy, ← hdepth]
      exact congrArg some hphase
    · rw [hfrozen.freezeRepeats, hdelivery]
    · rw [hfrozen.repeatSlips, hdelivery]
    · rw [hfrozen.dropSlips, hdelivery]

end Sys2Proof.Machine
end
